-- ==== Sys2Proof/Word.lean ====
section
/-! DEFINITION. Word.lean: the word types of the package and their plainest arithmetic. -/

namespace Sys2Proof

/-- A byte of a host-visible structure (R4). -/
abbrev Byte := BitVec 8

/-- A 32-bit register or record word (R6). -/
abbrev Word := BitVec 32

/-- A sparse table: the entries that differ from the table's default, by rising key. -/
abbrev Tbl (α : Type) := List (Nat × α)

/-- A field that counts up and holds at its largest value `top`. -/
def holdAt (top n : Nat) : Nat := min top n

/-- A field that counts up and wraps at `2 ^ w`. -/
def wrapAt (w n : Nat) : Nat := n % 2 ^ w

/-- `if b` as a bit. -/
def bit (b : Bool) : Nat := if b then 1 else 0

/-- The quotient rounded up, 0 for a zero divisor. -/
def ceilDiv (a b : Nat) : Nat := if b = 0 then 0 else (a + b - 1) / b

/-- `n` rounded up to a multiple of `m`. -/
def roundUp (n m : Nat) : Nat := ceilDiv n m * m

/-- `x` brought into the interval from `lo` to `hi`. -/
def clampInt (lo hi x : Int) : Int := if x < lo then lo else if x > hi then hi else x

end Sys2Proof
end

