-- ==== Sys2Proof/Syntax.lean ====
section
/-! DEFINITION. Syntax.lean: the operands and the 206 commands of spec/opcode_table.json, one constructor of `Instr` a row.
The table gives no row any bits; each operand is what the row's rules say the command carries from outside. -/

namespace Sys2Proof

/-- The sources of authority over the device (00, shared vocabularies; R273). -/
inductive Seat | a | b | n | s
  deriving DecidableEq, Repr, Inhabited

/-- The three register views of R512; in the internal one the checker-as-core has its own copy of the banked ICU registers (R337). -/
inductive View | a | b | int | chk
  deriving DecidableEq, Repr, Inhabited

/-- The eleven element formats of R37. -/
inductive Fmt | t2 | s4 | u4 | s6 | s8 | u8 | s16 | u16 | s24 | s32 | s48
  deriving DecidableEq, Repr, Inhabited

/-- The rounding modes of R56. -/
inductive Round | rne | rtz | stoch
  deriving DecidableEq, Repr, Inhabited

/-- A tensor (R65, R197): row-major elements, one scale word a block along `axis`; `block` is 0 for a whole-axis block. -/
structure Tensor where
  fmt    : Fmt
  shape  : List Nat
  axis   : Nat
  block  : Nat
  scales : List (BitVec 16)
  elems  : List Int
  deriving DecidableEq, Repr, Inhabited

/-- How a requantised operator's output is narrowed (R55 to R58, R70). -/
structure OutSpec where
  fmt   : Fmt
  q     : Nat
  s     : Nat
  round : Round
  dyn   : Bool
  mo    : Nat
  eo    : Int
  emax  : Nat
  axis  : Nat
  block : Nat
  deriving DecidableEq, Repr, Inhabited

/-- One spatial axis of a convolution or pool (R78, R80). -/
structure Axis where
  kernel : Nat
  stride : Nat
  dil    : Nat
  padB   : Nat
  padA   : Nat
  deriving DecidableEq, Repr, Inhabited

/-- POOL's variants (R80). -/
inductive PoolKind | max | min | avg
  deriving DecidableEq, Repr, Inhabited

/-- The lifted element-wise operators of R81. -/
inductive EltOp | add | sub | max | min
  deriving DecidableEq, Repr, Inhabited

/-- REDUCE's variants (R99). -/
inductive RedKind | sum | mean | max | min
  deriving DecidableEq, Repr, Inhabited

/-- A tensor in a core's shelf (R39, R49, R65, R109): what it is, and the byte addresses at which its scale words and its elements
begin. `vary` marks an outermost extent that the layout lets vary (R66). -/
structure TRef where
  fmt      : Fmt
  shape    : List Nat
  axis     : Nat
  block    : Nat
  vary     : Bool
  scalesAt : Nat
  elemsAt  : Nat
  deriving DecidableEq, Repr, Inhabited

/-- An operator of contract level 1 with its operands `T` and the layout's parameters (R74). WINDOW, SCAN and RESAMPLE name a
stream of the partition; RESAMPLE reads it where it has no operand. The data movement operators name their output's scale axis and
block, which the layout declares for every tensor (R43). -/
inductive Operator (T : Type)
  | matmul (w x : T) (bias : Option T) (ered : Int) (out : OutSpec)
  | conv1d (w x : T) (bias : Option T) (ax : Axis) (groups : Nat) (ered : Int) (out : OutSpec)
  | conv2d (w x : T) (bias : Option T) (ah aw : Axis) (groups : Nat) (ered : Int) (out : OutSpec)
  | dwconv (w x : T) (bias : Option T) (axs : List Axis) (mult : Nat) (ered : Int) (out : OutSpec)
  | pool (k : PoolKind) (x : T) (axs : List Axis) (ered : Int) (out : OutSpec)
  | elt (op : EltOp) (x y : T) (ered : Int) (out : OutSpec)
  | mul (x y : T) (ered : Int) (out : OutSpec)
  | shift (x : T) (count : Int) (per : Option T) (r : Round)
  | lut (x : T) (ez z0 : Int) (f : Nat) (table : List Int) (et : Int) (out : OutSpec)
  | norm (x : T) (axis : Nat) (layer : Bool) (ez : Int) (eps : Nat) (gain off : T) (out : OutSpec)
  | softmax (x : T) (axis : Nat) (ez : Int) (f : Nat) (table : List Nat) (out : OutSpec)
  | scan (x : T) (stream : Nat) (eh : Int) (a b : List Int) (bs : BitVec 16) (r : Round) (out : OutSpec)
  | fft (x : T) (axis : Nat) (cplx inverse : Bool) (emax : Nat) (r : Round)
  | resample (x : Option T) (stream d : Nat) (taps : List Int) (ts : BitVec 16) (ered : Int) (out : OutSpec)
  | window (stream : Nat)
  | requant (x : T) (ered : Int) (out : OutSpec)
  | cast (x : T) (fmt : Fmt)
  | concat (xs : List T) (axis oaxis oblock : Nat)
  | split (x : T) (axis : Nat) (sizes : List Nat) (oaxis oblock : Nat)
  | slice (x : T) (cuts : List (Nat × Nat × Nat × Nat)) (oaxis oblock : Nat)
  | gather (table idx : T) (oaxis oblock : Nat)
  | transpose (x : T) (perm : List Nat)
  | topk (x : T) (axis k : Nat) (idxFmt : Fmt)
  | reduce (k : RedKind) (x : T) (axes : List Nat) (ered : Int) (out : OutSpec)
  | select (c x y : T) (ered : Int) (out : OutSpec)
  deriving DecidableEq, Repr, Inhabited

/-- A place in a core's shelf for a result: the byte addresses of its scale words and of its elements. -/
structure Dest where
  scalesAt : Nat
  elemsAt  : Nat
  deriving DecidableEq, Repr, Inhabited

/-- A piece of a batch's work (R106, R109, R114, R115): a whole operator; a sliver's share of a split reduction, the block pairs from
`lo` to below `hi`, whose S48 partial sums go to the shelf; or partial sums, by sliver index and address, combined and narrowed. -/
inductive Job
  | run (op : Operator TRef) (dst : List Dest)
  | pairs (op : Operator TRef) (lo hi elemsAt : Nat)
  | combine (shape : List Nat) (parts : List (Nat × Nat)) (out : OutSpec) (dst : Dest)
  deriving DecidableEq, Repr, Inhabited

/-- What a submission entry says beside its PARAMS (R282): the seat of the port it came through (R273), the queue
number (seats A and B), the port 0 NA or 1 NB (seat N), CID, PARTITION and the data range. For seat N, which has no host memory,
`addr` is the datagram's source, its IPv4 address with its port above (R279). -/
structure Hdr where
  seat : Seat
  sq   : Nat
  cid  : Nat
  part : Nat
  addr : Nat
  len  : Nat
  deriving DecidableEq, Repr, Inhabited

/-- Where a time action comes from: SAFETY_SET or TIM_CMD (R389, R399). -/
inductive TimeSrc
  | cmd (h : Hdr)
  | reg
  deriving DecidableEq, Repr, Inhabited

/-- Names a frame: partition, region, real or tuning, FRAME_SEQ or slot number (R181, R250), and the START since which it
counts, because sequence numbers begin again at each (R296). -/
structure FrameId where
  part   : Nat
  region : Nat
  tuning : Bool
  seq    : Nat
  run    : Nat
  deriving DecidableEq, Repr, Inhabited

/-- The unit a fence names (R122, R123). -/
inductive FenceUnit
  | core (cluster core : Nat)
  | cluster (cluster : Nat)
  | none
  deriving DecidableEq, Repr, Inhabited

/-- An error that the fabric detects (R122); a peg fault of no core and a cellar error name the cluster that met it, if one did (R486). -/
inductive FabErr
  | residue (cluster core : Nat)
  | signature (cluster core : Nat)
  | shelfUe (cluster core : Nat)
  | peg (cluster core : Nat)
  | pegNone (cluster : Option Nat)
  | storeUe (cluster : Nat)
  | parity (cluster : Nat)
  | cellarUe (word : Nat) (cluster : Option Nat)
  | context (slot : Nat)
  | noFault
  deriving DecidableEq, Repr, Inhabited

/-- The engine values that carry a residue (R108). Within the reduction of an output: the two operands and the product of a term of a block
pair, the block sum of a pair, its product *t* with the scales' multipliers, its contribution *u*; then the accumulator and the requantised
element. Pairs, and the terms of a pair, are numbered from 0 in the order in which they are taken. -/
inductive EngineValue
  | weight (pair term : Nat)
  | activation (pair term : Nat)
  | product (pair term : Nat)
  | blockSum (pair : Nat)
  | scaled (pair : Nat)
  | contribution (pair : Nat)
  | acc
  | element
  deriving DecidableEq, Repr, Inhabited

/-- A disturbance of a value in an engine (R108): job, output position, which value it strikes, what it adds. -/
structure Upset where
  job   : Nat
  site  : EngineValue
  pos   : Nat
  delta : Int
  deriving DecidableEq, Repr, Inhabited

/-- What happens in a core during an engine batch beside its jobs: the taken branches' targets and final trip counts that its
sequencer folds (R110), upsets of engine values (R108), corrected ECC errors of shelf, store room and cellar (R240). -/
structure BatchObs where
  flow       : List Nat
  upsets     : List Upset
  shelfCorr  : Nat
  storeCorr  : Nat
  cellarCorr : Nat
  deriving DecidableEq, Repr, Inhabited

/-- The far end of a DMA transfer (R111). -/
inductive DmaEnd
  | store (addr : Nat)
  | cellar (addr : Nat)
  | ring (node addr : Nat)
  deriving DecidableEq, Repr, Inhabited

/-- A DMA transfer of a core (R111): between the shelf and `far`; `toShelf` is its direction. -/
structure Dma where
  toShelf : Bool
  shelf   : Nat
  far     : DmaEnd
  len     : Nat
  deriving DecidableEq, Repr, Inhabited

/-- What reading one 64-bit cellar word finds (R156 to R158). -/
inductive EccOutcome | clean | corrected | uncorrectable | tagMismatch
  deriving DecidableEq, Repr, Inhabited

/-- What an AX die's self-test found (R131): fenced cores and clusters, and the DIE_FAIL code (0 none). -/
structure SelfTest where
  cores    : List (Nat × Nat)
  clusters : List Nat
  dieFail  : Nat
  deriving DecidableEq, Repr, Inhabited

/-- The levels of SEALP[7:0] and SEALN[7:0] (R407). -/
structure Balls where
  p : BitVec 8
  n : BitVec 8
  deriving DecidableEq, Repr, Inhabited

/-- A tap test: whether each half of the comparator reports the injected mismatch (R310). -/
structure TapResult where
  halfA : Bool
  halfB : Bool
  deriving DecidableEq, Repr, Inhabited

/-- Registers an abstract command reaches (R320, R321); a trigger's words are numbered 2t and 2t + 1. -/
inductive DbgReg
  | x (i : Nat)
  | csr (i : Nat)
  | dpc
  | trigger (i : Nat)
  deriving DecidableEq, Repr, Inhabited

/-- A comparator fault (R309 to R311), by the half that reports it where one does. -/
inductive PathFault
  | halves (half : Nat)
  | stuck (half : Nat)
  | inPhase
  | parity (half : Nat)
  deriving DecidableEq, Repr, Inhabited

/-- The companion memories of R317. -/
inductive CxMem | sram | emram
  deriving DecidableEq, Repr, Inhabited

/-- The port events that cause a seat reset (R299). -/
inductive SeatResetCause | flr | hot | perst | dlDown
  deriving DecidableEq, Repr, Inhabited

/-- The firmware services a user task may ask for (R325, R328, R479). -/
inductive Service
  | checkin (slot : Nat)
  | mailbox (doorbell : Word)
  | snapshot (instant : Word) (era id : Nat)
  | other (n : Nat)
  deriving DecidableEq, Repr, Inhabited

/-- How a PTP message travels (R382). -/
inductive PtpTransport | udp4 | ethernet | other
  deriving DecidableEq, Repr, Inhabited

/-- What a PTP message says of itself (R382, R384): its version, its domain, whether it is of the gPTP profile, how it travels, whether it
comes from the master that the time stack has configured for a port that is its time receiver, and the 8 octets of its correctionField. -/
structure PtpHead where
  version   : Nat
  minor     : Nat
  domain    : Nat
  gptp      : Bool
  transport : PtpTransport
  master    : Bool
  corr      : List Byte
  deriving DecidableEq, Repr, Inhabited

/-- A received PTP message with what the port engine takes from it (R5, R382, R384), timestamps as their 10 octets in network byte order:
the master's t1 in a one-step Sync or in its Follow_Up, t4 of a Delay_Resp, the peer's t2 and t3 of a Pdelay exchange; `id` is the STAMP_ID
of the port's own frame that is answered (R398). `badFcs` is a frame whose frame check sequence is bad (R518). -/
inductive PtpMsg
  | sync (h : PtpHead) (t1 : Option (List Byte))
  | followUp (h : PtpHead) (t1 : List Byte)
  | delayResp (h : PtpHead) (id : Nat) (t4 : List Byte)
  | pdelayResp (h : PtpHead) (id : Nat) (t2 : List Byte) (t3 : Option (List Byte))
  | pdelayFollowUp (h : PtpHead) (t3 : List Byte)
  | other
  | badFcs
  deriving DecidableEq, Repr, Inhabited

/-- The time fields of a transmit request (R396), with the frame's bytes. -/
structure TxReq where
  launchEn : Bool
  safeBase : Bool
  launch   : Nat
  stampReq : Bool
  stampId  : Nat
  frame    : List Byte
  deriving DecidableEq, Repr, Inhabited

/-- The supplies of R498. -/
inductive Supply | vddAx | vddCx | vddAtt | vdd1 | vdd2h | vddq | vio18 | vio33
  deriving DecidableEq, Repr, Inhabited

/-- The configuration that a TELEGRAM item carries (R411). -/
structure TgCfg where
  enable  : Bool
  udpPort : Nat
  srcId   : Word
  dstId   : Word
  txCycle : Nat
  rxCycle : Nat
  peerNa  : Word
  peerNb  : Word
  deriving DecidableEq, Repr, Inhabited

/-- The binding that a SLOT item carries (R411, R416). -/
structure SlotCfg where
  slot    : Nat
  enable  : Bool
  part    : Nat
  region  : Nat
  output  : Nat
  element : Nat
  deriving DecidableEq, Repr, Inhabited

/-- What a host's memory answers to a port's DMA (R278): the data of a read, an error of it, or, from now on, whether it rejects the port's
writes (log 99). -/
inductive HostAnswer
  | data (bytes : List Byte)
  | error
  | writes (rejected : Bool)
  deriving DecidableEq, Repr, Inhabited

/-- What a CODE packet delivers (R138, R425 step 7). -/
inductive CodeKind
  | microcode
  | program (part region index : Nat)
  deriving DecidableEq, Repr, Inhabited

/-- A read of a register: byte address in BAR0 and width in bytes (R6). -/
structure ReadAt where
  addr  : Nat
  width : Nat
  deriving DecidableEq, Repr, Inhabited

/-- A capture block as a port completes it (R172, R175): how many ns ago the FS edge of its first sample lies, and its samples, one
list for each instant. -/
structure CapBlock where
  back    : Nat
  samples : List (List Int)
  deriving DecidableEq, Repr, Inhabited

/-- The commands of the block: one constructor per row of spec/opcode_table.json, in the table's order. -/
inductive Instr
  | identify (h : Hdr)
  | getStatusDevice (h : Hdr)
  | getStatusPartition (h : Hdr)
  | getStatusContext (h : Hdr) (index : Nat)
  | getStatusEvidence (h : Hdr) (index : Nat)
  | attestReport (h : Hdr) (nonce : List Byte)
  | attestSigned
  | attestCert (h : Hdr)
  | load (h : Hdr) (stream : List Byte)
  | loadComplete (part : Fin 16) (badCode : Option Nat)
  | unload (h : Hdr)
  | start (h : Hdr)
  | stop (h : Hdr)
  | stopComplete (part : Fin 16)
  | storeLayout (h : Hdr) (stream : List Byte)
  | eraseLayout (h : Hdr)
  | uploadConst (h : Hdr) (dieMask : Nat) (body : List Byte)
  | releaseConst (h : Hdr) (digest : List Byte)
  | setResultRing (h : Hdr) (cq : Nat)
  | feedSamples (h : Hdr) (ctx seq stamp era : Nat) (data : List Byte)
  | feedMessage (h : Hdr) (ctx rows : Nat) (data : List Byte)
  | checkin (h : Hdr) (task : Nat)
  | fenceCore (h : Hdr) (die cluster core : Nat)
  | wdgTake (h : Hdr) (unit mode width opn close : Nat)
  | wdgRelease (h : Hdr) (unit : Nat)
  | wdgMode (h : Hdr) (unit mode width : Nat)
  | timeStep (src : TimeSrc) (base : Nat) (amount : Int)
  | timeAdopt (src : TimeSrc) (base : Nat)
  | timeDismiss (src : TimeSrc) (base : Nat)
  | timePathAck (src : TimeSrc) (base : Nat)
  | timeCfg (h : Hdr) (base : Nat) (ctrl : BitVec 4) (gain limit : Word) (pathHold : Nat)
  | xd (h : Hdr) (cfg : Word)
  | netCfg (h : Hdr) (port : Nat) (addr mask gw tscfg : Word)
  | telegram (h : Hdr) (cfg : TgCfg)
  | slot (h : Hdr) (cfg : SlotCfg)
  | okayRelease (h : Hdr)
  | sleepRun (h : Hdr)
  | sleepDoze (h : Hdr)
  | sleepNap (h : Hdr)
  | sleepAttic (h : Hdr) (timer : Nat)
  | systemReset (h : Hdr)
  | dieReset (h : Hdr) (die : Nat)
  | updDownload (h : Hdr) (kind chunk offset : Nat) (crc : Word) (data : List Byte)
  | chunkCommit
  | updVerify (h : Hdr) (kind : Nat)
  | verifyDone
  | updActivate (h : Hdr) (kind window : Nat)
  | activationRestartDone
  | updConfirm (h : Hdr) (kind : Nat)
  | trialWindowExpiry
  | lockstepSplit (h : Hdr)
  | lockstepRejoin (h : Hdr) (tap : TapResult)
  | debugHalt
  | debugResume
  | debugStep
  | abstractWrite (r : DbgReg) (v : Word)
  | abstractRead (r : DbgReg)
  | systemBusAccess (write : Bool) (addr : Nat) (v : Word)
  | sqDoorbell (seat : Seat) (q : Fin 64) (v : Word)
  | cqDoorbell (seat : Seat) (q : Fin 64) (v : Word)
  | resultHeadDoorbell (seat : Seat) (part : Fin 16) (v : Word)
  | queueEnable (seat : Seat) (q : Fin 64)
  | queueDisable (seat : Seat) (q : Fin 64)
  | commandFetch (entry : List Byte)
  | usbSubmission (entry data : List Byte)
  | seatNDatagram (port : Fin 2) (srcIp : Word) (srcPort : Nat) (bytes : List Byte)
  | hostDmaReadDone (seat : Seat) (q : Fin 64) (ends : HostAnswer)
  | hostDmaTimeout (seat : Seat) (q : Fin 64)
  | seatReset (seat : Seat) (cause : SeatResetCause)
  | seatBarsReady (seat : Seat)
  | perstRelease (seat : Seat)
  | registerWrite (view : View) (addr width : Nat) (v : Word)
  | lowerWordRead (view : View) (at_ : ReadAt)
  | capEvtHiRead (view : View) (i : Fin 8)
  | capPpsInHiRead (view : View)
  | netTxtsHiRead (view : View) (port : Fin 2)
  | icuErrorsRead (view : View)
  | wdgGlobalRead (view : View)
  | icuDoorbell (v : Word)
  | icuClaim (checker : Bool)
  | icuEoi (checker : Bool) (source : BitVec 10)
  | icuEnSet (w : Fin 32) (v : Word)
  | icuEnClr (w : Fin 32) (v : Word)
  | icuPendSet (w : Fin 32) (v : Word)
  | icuPendClr (w : Fin 32) (v : Word) (same : Option Word)
  | icuSrcCfgWrite (s : Fin 1024) (v : Word)
  | crcData8 (u : Fin 8) (v : Word)
  | crcData16 (u : Fin 8) (v : Word)
  | crcData32 (u : Fin 8) (v : Word)
  | crcStart (u : Fin 8)
  | crcStateLoWrite (u : Fin 8) (v : Word)
  | crcStateHiWrite (u : Fin 8) (v : Word)
  | offsetSample (base : Nat) (hi : Option Word) (theta : Int)
  | pathSample (base : Nat) (sample : Int)
  | snapshotRequest (v : Word)
  | snapshotLatch (unit : Fin 5)
  | wdgArm (view : View) (unit : Fin 8) (upper : BitVec 24)
  | wdgService (view : View) (unit : Fin 8) (upper : BitVec 24)
  | wdgExpiry (unit : Fin 8)
  | wdPulseEnd (unit : Fin 8)
  | taskCycleEnd (group : Fin 8)
  | checkinService (slot : Fin 64)
  | taskEcall (slot : Fin 8) (number : Nat) (svc : Service)
  | taskFault (slot : Fin 8) (mcause : Word)
  | taskBudgetExpiry (slot : Fin 8)
  | coreMismatch (lowBit : Fin 128)
  | stateTap (main checker : List Word)
  | tapTest (halfA halfB : Bool)
  | comparePathFault (f : PathFault)
  | inputDisagree (group : Fin 3)
  | inputStuck (group : Fin 3)
  | cacheParity
  | memoryUncorrectable (mem : CxMem) (addr : Nat)
  | companionScrub (mem : CxMem) (addr : Nat) (found : EccOutcome)
  | captureBlock (port : Fin 16) (block : CapBlock)
  | fsLost (port : Fin 16)
  | evtEdge (i : Fin 8) (rising : Bool)
  | ppsInEdge (rising : Bool)
  | ppsOutRise
  | ppsOutFall
  | writePacket (die : Fin 4) (src addr : Nat) (data : List Byte)
  | resultPacket (f : FrameId) (partner : Bool) (offset : Nat) (data : List Byte)
  | codePacket (die : Fin 4) (kind : CodeKind) (code : List Byte)
  | launchCmd (die : Fin 4) (f : FrameId) (instant : Nat)
  | fence (die : Fin 4)
  | readCause (die : Fin 4)
  | descriptorWrite (die : Fin 4) (slot : Nat) (desc : List Byte)
  | scanStateReset (die : Fin 4) (slot : Nat)
  | derivedCommit (die : Fin 4) (slot rows : Nat) (gap : Bool)
  | snapshotCmd (die : Fin 4) (id : Nat) (instant : Nat)
  | ackPacket (die : Fin 4) (seq status : Nat)
  | cmdResendTimeout (die : Fin 4) (seq : Nat)
  | hello (die : Fin 4) (st : SelfTest)
  | discover (node : Fin 5) (east : Bool) (hops : Nat)
  | discoveryTimeout
  | discoverReturnTimeout
  | dieAnnounceTimeout (die : Fin 4)
  | ringState (node : Fin 5) (up : BitVec 5) (seq : Nat)
  | evidPacket (f : FrameId) (partner : Bool) (bytes : List Byte)
  | timeBlockSend (node : Fin 5) (east : Bool)
  | timeBlockReceive (node : Fin 5) (east : Bool) (theirTime : Option Int) (echo : Option (Int × Int))
  | linkRetryTimeout (node : Fin 5) (east : Bool)
  | linkDown (link : Fin 5) (cause : Fin 4)
  | dieUnreachable (die : Fin 4)
  | launchConvert (part : Fin 16) (plan : Nat)
  | frameLaunch (part : Fin 16) (plan : Nat)
  | frameStart (die : Fin 4)
  | engineBatch (die : Fin 4) (core cycles : Nat) (work : List Job) (obs : BatchObs) (err : Option FabErr)
  | batchBoundary (die : Fin 4) (core : Nat)
  | sliverDone (die : Fin 4) (core : Nat)
  | pegArrive (die : Fin 4) (core peg : Nat)
  | pegWait (die : Fin 4) (core peg : Nat)
  | pegPost (die : Fin 4) (core peg : Nat)
  | pegTake (die : Fin 4) (core peg : Nat)
  | pegSet (die : Fin 4) (core peg : Nat)
  | dmaTransfer (die : Fin 4) (core : Nat) (d : Dma) (found : EccOutcome)
  | regionEnd (die : Fin 4) (f : FrameId) (partner : Bool) (hit : Option (Nat × Nat)) (outs : List Tensor)
  | deadlineExpiry (f : FrameId)
  | waitDeadlineExpiry (f : FrameId)
  | tuningSlotOpen (part : Fin 16) (region : Nat)
  | regionReloadDone (part : Fin 16) (region : Nat) (partner : Bool)
  | autostart (part : Fin 16)
  | alarmAssert (die : Fin 4) (err : FabErr)
  | alarmClear (die : Fin 4)
  | alarmHoldExpiry (die : Fin 4)
  | evidenceWaitExpiry (f : FrameId)
  | resultWaitExpiry (f : FrameId)
  | judgement (differ : Bool)
  | judgeSelftest (ok : Bool)
  | timebaseWrap (base : Fin 4)
  | stepApply (base : Nat)
  | appSample
  | xdSample
  | ptpMessageReceive (port : Fin 2) (m : PtpMsg)
  | ethTransmitRequest (port : Fin 2) (r : TxReq)
  | ethTransmitLaunch (port : Fin 2)
  | ethLinkUp (port : Fin 2) (tenGig : Bool)
  | ethLinkLoss (port : Fin 2)
  | ethLinkTryTimeout (port : Fin 2)
  | safeReqN (lowNs : Nat)
  | sealReread (samples : List Balls)
  | okayPeriodBoundary
  | telegramBuild (inTime : Bool)
  | telegramCopyReceive (port : Fin 2) (bytes : List Byte)
  | telegramWaitExpiry
  | telegramRxTimeout
  | powerOn (balls : Balls)
  | resetN (lowNs : Nat) (balls : Balls)
  | supplyBrownout (supply : Supply) (lowNs : Nat) (balls : Balls)
  | pllLockLoss (node : Fin 5)
  | refclkFault
  | cellarScrub (die : Fin 4) (block : Nat) (found : List EccOutcome) (passDone : Bool)
  | tempUpdate (node : Fin 5) (t : BitVec 10)
  | dozeTick
  | napSelfRefresh
  | wakeN (lowNs : Nat) (balls : Balls)
  | atticPinWake (source : Nat) (balls : Balls)
  | atticTimerWake (balls : Balls)
  | fsRegular (port : Fin 16)
  | safeReqNRelease
  | inputAgreement (group : Fin 3) (value : Word)
  | unloadComplete (part : Fin 16)
  | storeLayoutComplete (part : Fin 16)
  | taskBudgetRenewal (slot : Fin 8)
  | msixVectorUnmask (seat : Seat) (vector : Fin 64)
  | linkBlockReceive (node : Fin 5) (east : Bool) (bytes : List Byte)
  deriving DecidableEq, Repr, Inhabited

end Sys2Proof
end

