-- ==== Sys2Proof/Decode.lean ====
section
/-! DEFINITION. Decode.lean: the command that a word spells by the table's bits. The table gives no row any bits, so
no word spells a command. -/

namespace Sys2Proof

/-- Every row of spec/opcode_table.json has an empty list of fields: a word spells no command. -/
def decodeTableWord (_nbits _w : Nat) : Option Instr := none

end Sys2Proof
end

