-- ==== Sys2Proof/Config.lean ====
section
/-! DEFINITION. Config.lean: what one part fixes and the spec does not state, and the free values, as constants without a
body: no proof can see them. A free value is applied to `State.free`, which every draw advances (log 1). -/

namespace Sys2Proof

/-- A free choice between two behaviours that the spec allows ("may or may not"). -/
opaque Config.freeBool : Nat → Bool

/-- A free number; a draw of STOCH rounding (R56) is its remainder modulo the needed power of two. -/
opaque Config.freeNat : Nat → Nat

/-- Draw number `i` of the generator that a region's pinned seed, a frame's sequence number and a core's index seed (R60): the
algorithm is not part of the contract. -/
opaque Config.pinnedDraw : Nat → Nat → Nat → Nat → Nat

/-- The 16 serial bytes of the part (R517). -/
opaque Config.serial : Nat → BitVec 8

/-- The MAC octets of NA (0 to 5) and NB (6 to 11) (R517). -/
opaque Config.mac : Nat → BitVec 8

/-- ROM_VERSION of CMP_ROM (R517). -/
opaque Config.romVersion : BitVec 32

/-- Boots before this power-on since manufacture (R517). -/
opaque Config.bootsBefore : Nat

/-- Whether the image delivered in slot A of a kind passes checks 1 to 6 of R443 under the keys that the part was delivered with. -/
opaque Config.factoryValid : Nat → Bool

/-- VERSION of the image delivered in slot A of a kind (R442). -/
opaque Config.factoryVersion : Nat → BitVec 32

/-- BODY_DIGEST of the image delivered in slot A of a kind (R442). -/
opaque Config.factoryDigest : Nat → Nat → BitVec 8

/-- The PTP domain that the time stack has configured for a port, as a number modulo 128 (R382). -/
opaque Config.ptpDomain : Nat → Nat

/-- What TOPK writes as a U16 index for an index above 65,535 (R98), for which the spec states no result. -/
opaque Config.topkIndex : Nat → BitVec 16

/-- The boot ROM's SHAKE256 digest of the root public key (R433). -/
opaque Config.romDigest : List (BitVec 8)

/-- ROOT_KEY of the identity region (R434). -/
opaque Config.rootKey : List (BitVec 8)

/-- DEVICE_KEY of the identity region (R434). -/
opaque Config.deviceKey : List (BitVec 8)

/-- ATTEST_KEY of the identity region (R434). -/
opaque Config.attestKey : List (BitVec 8)

/-- The 64 bytes of the certificate's public key, which matches ATTEST_KEY (R439). -/
opaque Config.attestPublic : Nat → BitVec 8

/-- ISSUED of the certificate, in days since 2000-01-01 (R439). -/
opaque Config.certIssued : BitVec 32

/-- The certificate's signature under Tirvanov's root key (R439). -/
opaque Config.certSignature : List (BitVec 8)

/-- SLH-DSA-SHAKE-256f signature under a private key: key, message (R438). -/
opaque Config.slhSign : List (BitVec 8) → List (BitVec 8) → List (BitVec 8)

/-- Whether an SLH-DSA-SHAKE-256s signature verifies: public key, message, signature (R441, R443). -/
opaque Config.slhVerify : List (BitVec 8) → List (BitVec 8) → List (BitVec 8) → Bool

/-- AES-256-GCM opening (R442): key, IV, additional data, ciphertext, tag; none when the tag fails. -/
opaque Config.gcmOpen :
  List (BitVec 8) → List (BitVec 8) → List (BitVec 8) → List (BitVec 8) → List (BitVec 8) → Option (List (BitVec 8))

/-- The task slots that a firmware image declares (R325), by its BODY_DIGEST and the slot: its remainder modulo 3 is 0 none, 1 a task
with a budget, 2 a task with budget 0; then come the budget from 1 to 100 us, 4 bits for CRC units 4 to 7, and a mask of services. -/
opaque Config.taskDecl : List (BitVec 8) → Nat → Nat

/-- What a region's programs, which are opaque, declare of a peg index (R116): as a number, its remainder modulo 4 is 0 for a
BARRIER, 1 a COUNT, 2 a FLAG and 3 no peg, then come 16 bits of initial and 16 bits of final value. -/
opaque Config.pegDecl : List (BitVec 8) → Nat → Nat

/-- The operators that a core program's code holds (R74): the code is opaque. -/
opaque Config.codeOps : List (BitVec 8) → List (Operator TRef)

/-- The control-flow signature after a value is folded into it (R110): signature, value. -/
opaque Config.sigStep : Nat → Nat → Nat

/-- The branch targets and trip counts of a program that runs a sliver, by its SIG_FOLD and the sliver's size in units (R110). -/
opaque Config.sigFlow : Nat → Nat → List Nat

/-- What the sliver plan of a program for `n` healthy cores pins to core `k` (R109): offset in the region's constants, shelf address,
length. -/
opaque Config.pinPlan : List (BitVec 8) → Nat → Nat → List (Nat × Nat × Nat)

/-- What of a region's constants a cluster's store room holds (R109): offset in the region's constants, store address, length. -/
opaque Config.storePlan : List (BitVec 8) → List (Nat × Nat × Nat)

/-- The bytes of the attic program of an image version, by offset (R326, R473): how an image body is laid out in the retention RAM
is not stated. -/
opaque Config.atticProgram : BitVec 32 → Nat → BitVec 8

/-- The VDD_AX target that the test floor stored in eMRAM, above 520 mV, in mV (R502): its remainder modulo 81 counts. -/
opaque Config.avsTarget : Nat

/-- The words of the boot ROM (R326). -/
opaque Config.bootRom : Nat → BitVec 32

end Sys2Proof
end

