-- ==== Sys2Proof/Machine/State.lean ====
section
/-! DEFINITION. Machine/State.lean: everything the spec gives the block, as plain data, and the state right after reset. -/

namespace Sys2Proof.Machine

/-! ### The loaded layout (07) -/

/-- The 32-byte tensor header of R197. -/
structure TensorHdr where
  fmt       : Nat
  rank      : Nat
  axis      : Nat
  block     : Nat
  extents   : List Nat
  elemBytes : Nat
  deriving DecidableEq, Repr, Inhabited

/-- STREAM (R209). -/
structure StreamRec where
  kind         : Nat
  home         : Nat
  fmt          : Nat
  sflags       : Nat
  channels     : Nat
  source       : Nat
  ringLength   : Nat
  stateLength  : Nat
  scale        : Nat
  blockSamples : Nat
  rate         : Nat
  portMode     : Nat
  evtBind      : Nat
  maxRows      : Nat
  deriving DecidableEq, Repr, Inhabited

/-- A step entry (R212). -/
structure StepRec where
  units    : Nat
  cycles   : Nat
  fan      : Nat
  gmin     : Nat
  overhead : Nat
  deriving DecidableEq, Repr, Inhabited

/-- An output descriptor (R213). `vary` says that the outermost extent may be smaller than the descriptor's (R66). -/
structure OutRec where
  hdr     : TensorHdr
  derived : Nat
  vary    : Bool := true
  deriving DecidableEq, Repr, Inhabited

/-- PLACEMENT (R214). -/
structure PlaceRec where
  die      : Nat
  required : Nat
  minCores : Nat
  cand     : Nat
  deriving DecidableEq, Repr, Inhabited

/-- PROGRAM (R215), its code kept as delivered. -/
structure ProgRec where
  first   : Nat
  last    : Nat
  sigSeed : Nat
  sigFold : Nat
  code    : List Byte
  deriving DecidableEq, Repr, Inhabited

/-- CONST or CONSTREF (R216, R217); `refKind` is 2 for a CONST. -/
structure ConstRec where
  refKind : Nat
  hdr     : TensorHdr
  size    : Nat
  index   : Nat
  digest  : List Byte
  body    : List Byte
  deriving DecidableEq, Repr, Inhabited

/-- INTEGRITY (R218). -/
structure IntegRec where
  mode        : Nat
  tolerance   : Nat
  pDie        : Nat
  pRequired   : Nat
  pMinCores   : Nat
  pCand       : Nat
  pSeed       : Nat
  shadow      : Nat
  deriving DecidableEq, Repr, Inhabited

/-- TUNING (R220). -/
structure TuningRec where
  interval : Nat
  phase    : Nat
  digest   : List Byte
  inputs   : List Byte
  state    : List Byte
  deriving DecidableEq, Repr, Inhabited

/-- A region group (R206, R211). -/
structure RegionRec where
  steps     : List StepRec
  outputs   : List OutRec
  seedKind  : Nat
  pegs      : Nat
  seed      : Nat
  constBytes : Nat
  workBytes : Nat
  reserve   : Nat
  ioBytes   : Nat
  places    : List PlaceRec
  progs     : List ProgRec
  consts    : List ConstRec
  integ     : IntegRec
  verdict   : Option (List Word)
  tuning    : Option TuningRec
  deriving DecidableEq, Repr, Inhabited

/-- A stream entry of a FRAMEPLAN (R221). -/
structure PlanStream where
  stream : Nat
  w      : Nat
  h      : Nat
  g      : Nat
  deriving DecidableEq, Repr, Inhabited

/-- FRAMEPLAN (R221). -/
structure PlanRec where
  region   : Nat
  base     : Nat
  period   : Nat
  phase    : Nat
  deadline : Nat
  streams  : List PlanStream
  deriving DecidableEq, Repr, Inhabited

/-- TIMEBIND (R222). -/
structure BindRec where
  base      : Nat
  waitLock  : Bool
  lockBound : Nat
  appSource : Nat
  deriving DecidableEq, Repr, Inhabited

/-- ROUTE (R223). -/
structure RouteRec where
  event  : Nat
  vector : Nat
  region : Nat
  deriving DecidableEq, Repr, Inhabited

/-- A task entry of TASKS (R224). -/
structure TaskRec where
  source : Nat
  min    : Nat
  max    : Nat
  order  : Nat
  region : Nat
  deriving DecidableEq, Repr, Inhabited

/-- TASKS (R224). -/
structure TasksRec where
  wdg   : Nat
  cycle : Nat
  opn   : Nat
  close : Nat
  tasks : List TaskRec
  deriving DecidableEq, Repr, Inhabited

/-- A parsed layout stream (R206 to R224). -/
structure Layout where
  part          : Nat
  seat          : Nat
  autostart     : Bool
  microcodeMin  : Nat
  layoutVersion : Nat
  buildId       : Nat
  clusters      : List Nat
  contexts      : List Nat
  cellar        : List Nat
  streams       : List StreamRec
  regions       : List RegionRec
  plans         : List PlanRec
  binds         : List BindRec
  routes        : List RouteRec
  tasks         : Option TasksRec
  deriving DecidableEq, Repr, Inhabited

/-! ### Evidence (08) -/

/-- The evidence record (R250); `eflags` is EFLAGS, `eras` ERAS. -/
structure EvRec where
  kind        : Nat := 0
  eflags      : Nat := 0
  part        : Nat := 0
  die         : Nat := 0
  region      : Nat := 0
  seq         : Nat := 0
  sched       : Nat := 0
  start       : Nat := 0
  endS        : Nat := 0
  eras        : Nat := 0
  attempt     : Nat := 0
  displaced   : Nat := 0
  fenceCause  : Nat := 0
  margin      : Int := 0
  saturations : Nat := 0
  residue     : Nat := 0
  t2          : Nat := 0
  corrSram    : Nat := 0
  corrCellar  : Nat := 0
  uncorrSram  : Nat := 0
  uncorrCellar : Nat := 0
  pegFaults   : Nat := 0
  signature   : Nat := 0
  tune        : Nat := 0
  tuneAge     : Nat := 0
  delta       : Nat := 0
  deltaCount  : Nat := 0
  tolerance   : Nat := 0
  checkin     : Nat := 0
  minHealthy  : Nat := 0
  outCrc      : Nat := 0
  resultCheck : Nat := 0
  mode        : Nat := 0
  shortMask   : Nat := 0
  staleMask   : Nat := 0
  tuneDigest  : List Byte := []
  judgeSteps  : Nat := 0
  verdict     : Nat := 0
  reason      : Nat := 0
  winCount    : Nat := 0
  winFill     : Nat := 0
  k           : Nat := 0
  w           : Nat := 0
  judgedSafe  : Nat := 0
  judgedEra   : Nat := 0
  deriving DecidableEq, Repr, Inhabited

/-- A stored evidence record with the seat that owned its partition then (R252, R272); 3 is no owner. -/
structure EvStored where
  bytes : List Byte
  part  : Nat
  owner : Nat
  deriving DecidableEq, Repr, Inhabited

/-- A 16-byte log entry with the owner at recording (R485 to R487). -/
structure LogEntry where
  bytes : List Byte
  part  : Nat
  owner : Nat
  deriving DecidableEq, Repr, Inhabited

/-- What a copy of a frame has counted (R250). -/
structure Counts where
  sats       : Nat := 0
  residue    : Nat := 0
  t2         : Nat := 0
  corrSram   : Nat := 0
  corrCellar : Nat := 0
  uncorrSram : Nat := 0
  uncorrCellar : Nat := 0
  pegFaults  : Nat := 0
  deriving DecidableEq, Repr, Inhabited

/-- Where a copy of a frame stands: not started, on its cores, stopping at its batch boundaries, ended. -/
inductive RunPhase
  | idle
  | running
  | stopping
  | ended
  deriving DecidableEq, Repr, Inhabited

/-- Why a copy stops before its region's end (R190, R187, R124). -/
inductive StopWhy
  | displaced
  | deadline
  | error
  deriving DecidableEq, Repr, Inhabited

/-- One run of a frame's region: the main one, or its partner in SHADOW and DUPLEX (R241). `place` is the placement, 3 the
partner placement; `total` is the length of the data area that the die sent (R242); `ev` and the data pieces are what has reached the
companion; `seen` is WRITE_COUNT at the start by stream. -/
structure Copy where
  region    : Nat := 0
  place     : Nat := 0
  die       : Nat := 0
  clusters  : List Nat := []
  phase     : RunPhase := .idle
  why       : StopWhy := .error
  startS    : Nat := 0
  endS      : Nat := 0
  cnt       : Counts := {}
  aborted   : Bool := false
  shortMask : Nat := 0
  staleMask : Nat := 0
  sig       : Nat := 0
  ev        : Option EvRec := none
  crc       : Word := 0
  total     : Nat := 0
  pieces    : Tbl (List Byte) := []
  whole     : Option (List Byte) := none
  seen      : List (Nat × Nat) := []
  deriving DecidableEq, Repr, Inhabited

/-- Where a frame stands between its launch and its publication (R181 to R191, R124, R251, R258): in its lead stream's
queue, on its die, struck by an error, awaiting evidence and data, in the judge's queue. -/
inductive FramePhase
  | waiting
  | running
  | fencing
  | ended
  | queued
  deriving DecidableEq, Repr, Inhabited

/-- A live frame. `L` is its TB_SAFE launch instant or slot opening, in ns of TB_SAFE's long count; `lead` the lead stream;
`newest` the newest sample of each stream's window; `taken` the MESSAGE rows it took: stream, first row, row after the last; `abortEv`
is the judged record of an aborted attempt that is replayed, with its index in the store; `struckAt` holds, for each die on which an error
has struck the frame, the instant D of the first (R125, R127); `storedAt` the index of its record where that stands in the store already. -/
structure Frame where
  id        : FrameId
  plan      : Nat := 0
  lead      : Nat := 0
  base      : Nat := 0
  sched     : Nat := 0
  L         : Nat := 0
  deadline  : Nat := 0
  gen       : Nat := 0
  phase     : FramePhase := .waiting
  main      : Copy := {}
  twin      : Option Copy := none
  twinGone  : Bool := false
  newest    : List Int := []
  reanch    : Bool := false
  startSlot : Bool := false
  extraSlot : Bool := false
  attempt   : Nat := 0
  displaced : Nat := 0
  entered   : Bool := false
  fenced    : Bool := false
  fenceCause : Nat := 0
  struckAt  : List (Nat × Nat) := []
  unsure    : Bool := false
  taken     : List (Nat × Nat × Nat) := []
  resultCheck : Nat := 0
  abortEv   : Option (Nat × EvRec) := none
  storedAt  : Option Nat := none
  deriving DecidableEq, Repr, Inhabited

/-! ### AX dies (04, 05, 06) -/

/-- A peg (R116): kind 0 BARRIER, 1 COUNT, 2 FLAG; the region it belongs to, its initial and final values, and whether it is the
completion barrier of a step, which takes its count from the step's slivers (R114). -/
structure Peg where
  kind     : Nat
  expected : Nat
  arrivals : Nat
  opened   : Bool
  count    : Nat
  flag     : Bool
  part     : Nat
  region   : Nat
  initial  : Nat
  final    : Nat
  ofStep   : Bool
  deriving DecidableEq, Repr, Inhabited

/-- An output lane's block-sum register and S48 reduction accumulator (R106), each with its residue (R108). -/
structure Lane where
  sum    : Int := 0
  sumRes : Nat := 0
  acc    : Int := 0
  accRes : Nat := 0
  deriving DecidableEq, Repr, Inhabited

/-- What a core is doing (R107, R109 to R111, R114): its frame, sliver and the sliver's size in units, the edge up to which its cycles in slivers
are counted (R476), a batch in progress, the peg it waits on and the edge since when, its last output tensors, its shelf, its engines' lanes by number, the running control-flow
signature, the pinned draws made for the frame (R60), its DMA port's outstanding transfers with what their source's ECC finds, and whether its sequencer is halted (R124). -/
structure Core where
  frame   : Option FrameId := none
  sliver  : Nat := 0
  size    : Nat := 0
  busyAt  : Nat := 0
  inBatch : Bool := false
  waitPeg : Option Nat := none
  waitAt  : Nat := 0
  outs    : List Tensor := []
  shelf   : List Host.Cell := []
  lanes   : Tbl Lane := []
  sig     : Nat := 0
  draws   : Nat := 0
  dma     : List (Dma × EccOutcome) := []
  halted  : Bool := false
  deriving DecidableEq, Repr, Inhabited

/-- The descriptor of R167 with the die's faulty mark (R168), the gaps in its ring (R149, R179), the TB_SAFE stamps of MESSAGE rows
and how many are taken (R178), whether a working copy of its SCAN state exists, a tuning frame's scratch copy (R88, R89) and the next
RESAMPLE output (R93). Ring rows, block index, SCAN copies and the staging area of a DERIVED context are bytes of the cellar (R169). -/
structure Ctx where
  kind        : Nat := 0
  part        : Nat := 0
  stream      : Nat := 0
  fmt         : Nat := 0
  flags       : Nat := 0
  channels    : Nat := 0
  source      : Nat := 0xFFFF
  ringBase    : Nat := 0
  ringLength  : Nat := 0
  stateBase   : Nat := 0
  stateLength : Nat := 0
  writeCount  : Nat := 0
  windowNext  : Nat := 0
  alive       : Nat := 0
  lastAlive   : Nat := 0
  scale       : Nat := 0
  nextSeq     : Nat := 0
  blockSamples : Nat := 0
  lastStamp   : Nat := 0
  lastEra     : Nat := 0
  dcrc        : Word := 0
  faulty      : Bool := false
  gaps        : List Nat := []
  stamps      : List (Nat × Nat) := []
  taken       : Nat := 0
  scanOn      : Bool := false
  scanTune    : Option (List Int) := none
  resampleNext : Nat := 0
  deriving DecidableEq, Repr, Inhabited

/-- A MESSAGE feed on its way to a die (R178): context slot, absolute number of its first row, rows, TB_SAFE stamp, the data address
at which its last packet ends. -/
structure MsgFeed where
  slot  : Nat
  first : Nat
  rows  : Nat
  at_   : Nat
  endAt : Nat
  deriving DecidableEq, Repr, Inhabited

/-- A sliver that a core has run (R110): step, index, core, its signature and the expected one. -/
structure Ran where
  step   : Nat
  sliver : Nat
  core   : Nat
  sig    : Nat
  expect : Nat
  deriving DecidableEq, Repr, Inhabited

/-- A cluster's work distributor (R110, R114): the frame it serves, the step, its units and the units of a sliver, the signature seed and
fold of the step's program, slivers issued, in all and outstanding, the edge since which slivers are outstanding, the slivers run, the
cores that were healthy when the frame began, on whose number its plan rests (R297), those of them that still take slivers, and slivers that a
core fenced by command left to the others (R123). -/
structure Work where
  frame : FrameId
  step  : Nat
  units : Nat
  grain : Nat
  seed  : Nat
  fold  : Nat
  next  : Nat
  total : Nat
  out   : Nat
  since : Nat
  ran   : List Ran
  cores : List Nat
  live  : List Nat
  again : List Nat := []
  deriving DecidableEq, Repr, Inhabited

/-- A WRITE window of R146: the source node and the range of cellar data addresses; the window of an upload closes with its last
byte. -/
structure Window where
  src  : Nat
  lo   : Nat
  hi   : Nat
  part : Nat
  once : Bool := false
  deriving DecidableEq, Repr, Inhabited

/-- A hardware-detected error being handled on a die (R124): its instant D on TB_SAFE, the errors, the units to fence with
their causes, the frames struck, and whether the companion has read the cause. -/
structure FenceSeq where
  d      : Nat
  errs   : List FabErr
  units  : List (FenceUnit × Nat)
  struck : List FrameId
  read   : Bool
  deriving DecidableEq, Repr, Inhabited

/-- The run-time fence record of AXW_LAST_FENCE (R133). -/
structure LastFence where
  cluster : Nat
  core    : Nat
  cause   : Nat
  valid   : Bool
  count   : Nat
  deriving DecidableEq, Repr, Inhabited

/-- A command packet sent to a die and not yet acknowledged (R150): SEQ, kind, what it says, the way it last went and when, and when
it first went (R151). -/
structure CmdOut where
  seq  : Nat
  kind : Nat
  args : List Nat
  east : Bool
  sent : Nat
  first : Nat
  deriving DecidableEq, Repr, Inhabited

/-- One AX die. `st` is STATE of AXW_DIE_STATUS: 0 RESET, 1 SELFTEST, 2 TRAINING, 3 ANNOUNCED, 4 RUN, 5 FAILED,
6 ABSENT, 7 NAP. Fence bits are 32-bit masks by cluster, split into self-test and run-time fences (R130); `oldCores` and
`oldClusters` are those of the self-test before the last D reset or NAP, by which R485 tells new fences from old ones; `reached` is the
edge of its last acknowledgement, `testAt` and `trainAt` those at which its self-test and then its training begin (R425), and `cut` that since which both ways to it are broken (R151). -/
structure Die where
  st         : Nat := 0
  hello      : Bool := false
  released   : Nat := 0
  testAt     : Nat := 0
  trainAt    : Nat := 0
  inReset    : Bool := true
  dReset     : Option Nat := none
  dPending   : Option Hdr := none
  lostSince  : Bool := false
  stCores    : Nat := 0
  stClusters : Nat := 0
  dieFail    : Nat := 0
  fenceSt    : Tbl Nat := []
  fenceRt    : Tbl Nat := []
  clFenceSt  : List Nat := []
  clFenceRt  : List Nat := []
  oldCores   : Tbl Nat := []
  oldClusters : List Nat := []
  srSeen     : List Nat := []
  rsSeen     : List Nat := []
  last       : LastFence := ⟨0, 0, 0, false, 0⟩
  owner      : Tbl Nat := []
  almT       : Bool := false
  almF       : Bool := true
  almAt      : Nat := 0
  seq        : Option FenceSeq := none
  corrected  : Nat := 0
  uncorrected : Nat := 0
  poison     : List Nat := []
  scrubDone  : Bool := false
  cellar     : List Host.Cell := []
  store      : Tbl (List Host.Cell) := []
  ctx        : Tbl Ctx := []
  pegs       : Tbl Peg := []
  cores      : Tbl Core := []
  live       : Tbl Nat := []
  shadow     : Tbl Nat := []
  rdCarry    : Nat := 0
  wrCarry    : Nat := 0
  shInfo     : Nat := 0
  shAt       : Nat := 0
  snapArm    : Option (Nat × Nat) := none
  tbOffset   : Int := 0
  tbTarget   : Int := 0
  tbMeas     : Int := 0
  tbAt       : Nat := 0
  tbSource   : Nat := 0
  tbSet      : Bool := false
  unsure     : Bool := false
  unsureCnt  : Nat := 0
  windows    : List Window := []
  hop        : Option (Bool × Nat) := none
  mismatch   : Bool := false
  executed   : List (Nat × Nat × List Nat) := []
  reached    : Nat := 0
  cut        : Option Nat := none
  feeds      : List MsgFeed := []
  cmds       : List CmdOut := []
  launches   : List (FrameId × Nat) := []
  work       : Tbl Work := []
  fenceCmds  : List (Hdr × Nat × Nat × Bool) := []
  microcode  : Bool := false
  programs   : List (Nat × Nat × Nat) := []
  linkView   : Nat := 31
  now        : Nat := 0
  peak       : Option Nat := none
  deriving DecidableEq, Repr, Inhabited

/-! ### The ring (05) -/

/-- A packet of R136 to R138. -/
structure Packet where
  vc     : Nat
  west   : Bool
  turned : Bool
  dst    : Nat
  src    : Nat
  type   : Nat
  len    : Nat
  seq    : Nat
  addr   : Nat
  data   : List Byte
  deriving DecidableEq, Repr, Inhabited

/-- A block sent and not yet acknowledged (R140): BSEQ, how often it has been sent, the edge of the last time, its bytes. -/
structure SentBlock where
  bseq  : Nat
  sends : Nat
  at_   : Nat
  bytes : List Byte
  deriving DecidableEq, Repr, Inhabited

/-- A port of a node: the sending side (next BSEQ, the last 64 blocks sent, credits by virtual channel, packets waiting, forwarded
ones with the side of the port they came in by, the turns of R143: the last of CTRL and BULK, the channels whose last packet was
forwarded) and the receiving side (expected BSEQ, the packet being assembled, credits owed, the edge of the last block that passed
its BCRC), the stamps of the time exchange and the link delay computed from them (R153); `starved` the edge up to which CREDIT_WAIT has
counted while a ready packet waits for credit (R476). -/
structure Port where
  nextBseq : Nat := 0
  sent     : List SentBlock := []
  credits  : Tbl Nat := []
  waiting  : List (Packet × Option Bool) := []
  lastVc   : Nat := 1
  lastFwd  : List Nat := []
  expect   : Nat := 0
  partial_  : Option (Packet × List Byte) := none
  owed     : Tbl Nat := []
  lastRecv : Nat := 0
  txStamp  : Int := 0
  rxStamp  : Int := 0
  rxTime   : Int := 0
  delay    : Int := 0
  starved  : Option Nat := none
  cnt      : Tbl Nat := []
  cntShadow : Tbl Nat := []
  deriving DecidableEq, Repr, Inhabited

/-- The ring as a whole (R134, R141, R148, R152, R162): link bits, causes, discovery with the edges at which DISCOVER was sent and the
tokens under way (direction, the node next reached, hop count), and what has been delivered to the nodes. -/
structure Ring where
  discovery : Nat := 0
  up        : Nat := 0
  present   : Nat := 0
  mismatch  : Nat := 0
  stateSeq  : Nat := 0
  cause     : Tbl Nat := []
  retries   : Tbl Nat := []
  bcrc      : Tbl Nat := []
  ports     : Tbl Port := []
  seqNo     : Tbl Nat := []
  seen      : List (Nat × Nat) := []
  inbox     : List (Nat × Packet) := []
  east      : Option Nat := none
  west      : Option Nat := none
  tokens    : List (Bool × Nat × Nat) := []
  lostEv    : Tbl Nat := []
  deriving DecidableEq, Repr, Inhabited

/-! ### Partitions (06, 07, 08) -/

/-- A result ring (R289), with its queue; `used` bytes lie between head and tail. -/
structure ResRing where
  base : Nat
  size : Nat
  cq   : Nat
  tail : Nat
  head : Nat
  used : Nat
  deriving DecidableEq, Repr, Inhabited

/-- What the companion keeps for a region: placement, clusters, spill, Tmin, tuning state (R245), the next slot's instant (R190), the
escalation window newest first (R264), reloads (R128), the last real record published for the value slots (R416). -/
structure RegionRt where
  chosen   : Nat := 0
  usable   : List Bool := []
  clusters : List Nat := []
  spill    : Nat := 0
  tmin     : Nat := 0
  tune     : Nat := 3
  passEnd  : Option Nat := none
  slotNo   : Nat := 0
  nextSlot : Nat := 0
  extra    : Bool := false
  window   : List Bool := []
  reload   : Option Nat := none
  moveNext : Bool := false
  pUsable  : Bool := true
  pClusters : List Nat := []
  pReload  : Bool := false
  pMoveNext : Bool := false
  deriving DecidableEq, Repr, Inhabited

/-- What the companion keeps of a stream that it feeds (R175, R177, R178): absolute number and SEQ of the next block or row, and its
copy of the ring and index bytes that it has sent, by offset in the ring. -/
structure Feed where
  next  : Nat := 0
  seq   : Nat := 0
  image : List Host.Cell := []
  deriving DecidableEq, Repr, Inhabited

/-- What the frame scheduler keeps for a plan: the next sequence number, launch 0 on its base, converted launches with
their TB_SAFE instants (R394), and N0 with its frame by stream (R182). -/
structure PlanRt where
  nextSeq   : Nat := 0
  l0        : Nat := 0
  launched  : Nat := 0
  converted : List (Nat × Nat × Nat) := []
  anchors   : List (Nat × Nat × Int) := []
  deriving DecidableEq, Repr, Inhabited

/-- A frame's output on its way into the staging areas of DERIVED streams, and its commit (R179): the die and the tensors it left, whether
they have been staged; once published, whether rows are appended as data or as a gap, and how many by output. -/
structure Stage where
  id     : FrameId
  die    : Nat
  outs   : List Tensor
  sent   : Bool
  commit : Option (Bool × List Nat)
  deriving DecidableEq, Repr, Inhabited

/-- A load in progress (R228). -/
structure Loading where
  layout : Layout
  digest : List Byte
  hdr    : Option Hdr
  seat   : Nat
  deriving DecidableEq, Repr, Inhabited

/-- One partition (R35, R200, R239, R271). `st` is STATE of LAY_STATE: 0 EMPTY, 1 LOADED, 2 RUNNING, 3 STOPPED,
4 FENCED, 5 LOADING; `runs` counts its STARTs; `cellBase` is the byte at which its
cellar range begins on each die. -/
structure Part where
  st         : Nat := 0
  seat       : Nat := 0
  autoloaded : Bool := false
  runs       : Nat := 0
  lastStatus : Nat := 0
  lastRecord : Nat := 0
  digest     : List Byte := []
  layout     : Option Layout := none
  loading    : Option Loading := none
  unloading  : Option Hdr := none
  stopping   : List Hdr := []
  regions    : Tbl RegionRt := []
  plans      : Tbl PlanRt := []
  slots      : Tbl (List (Nat × Nat)) := []
  feeds      : Tbl Feed := []
  stages     : List Stage := []
  cellBase   : List Nat := []
  ring       : Option ResRing := none
  qfull      : Nat := 0
  other      : Nat := 0
  displaced  : Nat := 0
  drops      : Nat := 0
  delayed    : Nat := 0
  skipped    : Nat := 0
  short      : Nat := 0
  stale      : Nat := 0
  believed   : Nat := 0
  doubted    : Nat := 0
  unproven   : Nat := 0
  late       : Nat := 0
  escalated  : Bool := false
  autowait   : Bool := false
  deriving DecidableEq, Repr, Inhabited

/-- An uploaded constant (R217, R295): seat, partition number, digest, body, dies that hold it and where on each die. -/
structure Upload where
  seat   : Seat
  part   : Nat
  digest : List Byte
  body   : List Byte
  dies   : Nat
  at_    : List Nat
  deriving DecidableEq, Repr, Inhabited

/-- A stored layout in the external flash (R238, R295). -/
structure Stored where
  part   : Nat
  seat   : Nat
  stream : List Byte
  deriving DecidableEq, Repr, Inhabited

/-- The judge, the evidence store and the SAFE latch (R252 to R271), the fence history and the error log (R485 to R487). -/
structure Evd where
  head       : Nat := 0
  store      : Tbl EvStored := []
  apert      : Tbl Nat := []
  queue      : List FrameId := []
  mismatch   : Bool := false
  stFail     : Bool := false
  overflows  : Nat := 0
  lateArr    : Nat := 0
  safe       : Bool := false
  cause      : Nat := 0
  safePart   : Nat := 0
  safeRegion : Nat := 0
  safeStamp  : Nat := 0
  vregs      : Tbl Nat := []
  vpc        : Nat := 0
  vsteps     : Nat := 0
  fenceHead  : Nat := 0
  fences     : Tbl LogEntry := []
  logHead    : Nat := 0
  log        : Tbl LogEntry := []
  logApert   : Tbl Nat := []
  suppressed : Nat := 0
  perSecond  : Tbl (Nat × Nat) := []
  deriving DecidableEq, Repr, Inhabited

/-! ### Seats (09) -/

/-- A command taken by the arbiter whose data is still being read (R278, R287), as its entry's bytes. -/
structure Fetching where
  entry : List Byte
  since : Nat
  deriving DecidableEq, Repr, Inhabited

/-- A queue pair (R281, R286, R304). `busy` commands are outstanding, of which the first `discard` were so at a disabling and post
no completion. -/
structure Queue where
  sqBase  : Nat := 0
  cqBase  : Nat := 0
  sqSize  : Nat := 0
  cqSize  : Nat := 0
  enable  : Bool := false
  intEn   : Bool := false
  vector  : Nat := 0
  status  : Nat := 0
  enabled : Bool := false
  dbErr   : Bool := false
  sqHead  : Nat := 0
  sqTail  : Nat := 0
  cqHead  : Nat := 0
  cqTail  : Nat := 0
  phase   : Bool := true
  busy    : Nat := 0
  discard : Nat := 0
  fetching : Option Fetching := none
  deriving DecidableEq, Repr, Inhabited

/-- The one function of a PCIe port (R276): MSI-X enabled, all its vectors masked, the address and data words of its table, 4 for each
vector; the BARs' address words, the Command register, D3hot, Device Control; the DMA writes counted in AER (R278). The
reset values are those of PCI Express (log 98). -/
structure PcieFn where
  msixOn   : Bool := false
  msixMask : Bool := false
  table    : Tbl Nat := []
  bars     : Tbl Nat := []
  cmd      : Nat := 0
  d3       : Bool := false
  devCtl   : Nat := 0x2810
  aer      : Nat := 0
  deriving DecidableEq, Repr, Inhabited

/-- One PCIe seat: its generation and drops (R305), BARs and reset (R277, R300), PERST#_n, MSI-X vectors unmasked and
messages pending (R291), queues, the queue served last (R287), its function's configuration (R276), its host rejects DMA writes (R278). -/
structure SeatSt where
  gen        : Nat := 0
  resetDrops : Nat := 0
  eventDrops : Nat := 0
  inReset    : Bool := false
  perst      : Bool := true
  cfgReady   : Bool := false
  unmasked   : List Nat := []
  pendingMsg : List Nat := []
  queues     : Tbl Queue := []
  lastQ      : Nat := 63
  fn         : PcieFn := {}
  rejects    : Bool := false
  deriving DecidableEq, Repr, Inhabited

/-- A command whose data is on its way to cellars, and INFO2 of its completion: each die with the data address that its last byte there ends
at (R288); of an upload, the constant as it will be held and as it was held before (R301). -/
structure Await where
  hdr   : Hdr
  info2 : Nat
  left  : List (Nat × Nat)
  undo  : Option (Upload × Option Upload)
  deriving DecidableEq, Repr, Inhabited

/-- The seats together: A, B, the arbiter's last seat (R287), seat S's outstanding command and discards (R280), entries of seats S and N with
their data that the arbiter has not taken, each with its header (R287), commands whose data has not arrived (R288), uploaded constants,
stored layouts and the stores and erases in progress in the order of their acceptance, an erase with no layout (R295, R298, R301). -/
structure Seats where
  a         : SeatSt := {}
  b         : SeatSt := {}
  lastSeat  : Nat := 2
  sBusy     : Bool := false
  sDiscards : Nat := 0
  sWait     : Option (Hdr × List Byte × List Byte) := none
  nWait     : List (Hdr × List Byte × List Byte) := []
  awaiting  : List Await := []
  uploads   : List Upload := []
  stored    : List Stored := []
  storing   : List (Hdr × Option Stored) := []
  served    : Bool := false
  deriving DecidableEq, Repr, Inhabited

/-! ### The companion's units (10 to 15) -/

/-- An interrupt source (R331, R345). -/
structure Src where
  enable   : Bool
  pend     : Bool
  level    : Bool
  prio     : Nat
  isLevel  : Bool
  target   : Nat
  routeAny : Bool
  fwdSeat  : Nat
  fwdVec   : Nat
  deriving DecidableEq, Repr, Inhabited

/-- The interrupt controller (R328 to R346): a presented source carries the TIME edge of its selection (R335), `late` a
withdrawn source still to be returned once, `held` the target that each source presented and neither claimed nor withdrawn since stays with
(R340). Targets: 0 main core, 1 checker-as-core. -/
structure Icu where
  srcs      : Tbl Src := []
  stack0    : List (Nat × Nat) := []
  stack1    : List (Nat × Nat) := []
  pres0     : Option (Nat × Nat) := none
  pres1     : Option (Nat × Nat) := none
  late0     : Option (Nat × Nat) := none
  late1     : Option (Nat × Nat) := none
  held      : List (Nat × Bool) := []
  wake      : Tbl (Nat × Bool) := []
  bad       : Nat := 0
  typeErr   : Nat := 0
  eoiErr    : Nat := 0
  fwdDrops  : Nat := 0
  lastClaim0 : Word := 0
  lastClaim1 : Word := 0
  deriving DecidableEq, Repr, Inhabited

/-- A watchdog unit (R347 to R355, R362); `holder` 0 free, 1 firmware, 2 seat A, 3 seat B, 4 partition; instants in TIME clock edges;
`stopped` what ELAPSED read when it counted last. -/
structure WdgUnit where
  holder   : Nat
  part     : Nat
  mode     : Bool
  width    : Nat
  enable   : Bool
  opn      : Nat
  close    : Nat
  cycle    : Nat
  armed    : Bool
  warned   : Bool
  pulse    : Option Nat
  since    : Nat
  openZero : Bool
  expiries : Nat
  early    : Nat
  badKey   : Nat
  pendMode : Option (Bool × Nat)
  stopped  : Nat
  expAt    : Option Nat
  deriving DecidableEq, Repr, Inhabited

/-- A task slot of the monitor (R356 to R359, R363). -/
structure Task where
  valid    : Bool
  group    : Nat
  source   : Nat
  min      : Nat
  max      : Nat
  order    : Nat
  count    : Nat
  orderErr : Bool
  region   : Nat
  part     : Nat
  deriving DecidableEq, Repr, Inhabited

/-- A group's cycle and record (R356, R360, R363); `early` the check-ins accepted at the end of the cycle in progress or after it. -/
structure Group where
  running   : Bool
  start     : Nat
  lastOrder : Nat
  next      : Nat
  num       : Nat
  pass      : Bool
  valid     : Bool
  stamp     : Nat
  missing   : List Nat
  excess    : List Nat
  order     : List Nat
  early     : List Nat
  deriving DecidableEq, Repr, Inhabited

/-- The watchdogs and the task monitor; `hold0` is the hold of R355. -/
structure Wdg where
  units   : Tbl WdgUnit := []
  tasks   : Tbl Task := []
  groups  : Tbl Group := []
  foreign : Nat := 0
  hold0   : Bool := false
  deriving DecidableEq, Repr, Inhabited

/-- A CRC unit (R366 to R371): the configured POLY, the one in use since START, the running register. -/
structure CrcUnit where
  cfg     : Nat
  aliveEn : Bool
  poly    : Nat
  run     : BitVec 64
  held    : Word
  alive   : BitVec 8
  count   : Word
  deriving DecidableEq, Repr, Inhabited

/-- A disciplined time base and its servo (R376 to R392, R399). Times in ns, `frac` in 2^-32 ns; pending steps are
their instants on TB_SAFE and amounts; `stepAt`, `stepLo`, `stepHi` say when the last step was applied and which times of
the base it skipped or brought within 20 µs (R395). -/
structure Base where
  count     : Nat := 0
  frac      : Nat := 0
  set       : Bool := false
  freq      : Int := 0
  integ     : Int := 0
  run       : Nat := 0
  refused   : Int := 0
  jump      : Bool := false
  shift     : Bool := false
  pathChg   : Bool := false
  jumps     : Nat := 0
  steps     : Nat := 0
  pathChgs  : Nat := 0
  discarded : Nat := 0
  last      : Int := 0
  history   : List Int := []
  path      : Int := 0
  lastPath  : Int := 0
  pathFirst : Int := 0
  pathRun   : Nat := 0
  feed      : Bool := false
  source    : Nat := 0
  hold      : Bool := false
  kp        : Nat := 1000
  ki        : Nat := 100
  stepLimit : Nat := 1000
  nRefuse   : Nat := 8
  pathStep  : Nat := 200
  pathHold  : Nat := 16
  offLo     : Word := 0
  stepAmt   : Int := 0
  pending   : List (Nat × Int) := []
  stepAt    : Nat := 0
  stepLo    : Nat := 0
  stepHi    : Nat := 0
  deriving DecidableEq, Repr, Inhabited

/-- The time unit: TIME clock edges since TB_SAFE started (2.5 ns each, R377), the bases, the cross-domain monitor (R393)
and TIM_LAUNCH. -/
structure Time where
  edges     : Nat := 0
  na        : Base := {}
  nb        : Base := {}
  app       : Base := { source := 3 }
  xdBound   : Nat := 150
  xdEn      : Bool := false
  xdAlarm   : Bool := false
  xdAlarms  : Nat := 0
  xdDiff    : Int := 0
  xdWithin  : Nat := 0
  skipped   : Nat := 0
  lateIssue : Nat := 0
  deriving DecidableEq, Repr, Inhabited

/-- A queued transmit stamp (R398). -/
structure TxStamp where
  id    : Nat
  stamp : Nat
  safe  : Bool
  deriving DecidableEq, Repr, Inhabited

/-- An Ethernet port (R396 to R400, R518) with its PTP memory (R384) and seat N's rate count (R279); a queued request is
marked when it is a telegram copy (R414); `tryTen` and `trySince` say which link the port tries and since when; `syncRx` is the stamp and
correction of a two-step Sync, `syncDiff` t2 − t1 less the correction of the last Sync, `pdelayRx` t1, t2, t4 and correction of a two-step
Pdelay_Resp, corrections and that difference in 2^-16 ns; `txIds` the last transmit stamps on the port's base by STAMP_ID, `samples` the
offsets that the port engine has computed and the servo has not taken yet. -/
structure NetPort where
  up       : Bool := false
  tenGig   : Bool := false
  losses   : Nat := 0
  tryTen   : Bool := true
  addr     : Word := 0
  mask     : Word := 0
  gw       : Word := 0
  rx       : Nat := 0
  fcs      : Nat := 0
  nDrops   : Nat := 0
  tx       : Nat := 0
  txLat    : Nat := 0
  rxLat    : Nat := 0
  grace    : Nat := 0
  stamps   : List TxStamp := []
  tsDrops  : Nat := 0
  lateDrops : Nat := 0
  rangeDrops : Nat := 0
  queue    : List (TxReq × Bool) := []
  syncDiff : Option Int := none
  syncRx   : Option (Int × Int) := none
  pdelayRx : Option (Int × Int × Int × Int) := none
  txIds    : List (Nat × Int) := []
  samples  : List Int := []
  trySince : Nat := 0
  nSecond  : Nat := 0
  nCount   : Nat := 0
  deriving DecidableEq, Repr, Inhabited

/-- A telegram pairing wait (R417): when it opened and the valid copies so far. -/
structure TgWait where
  opened : Nat
  copies : List (List Byte)
  bad    : Nat
  deriving DecidableEq, Repr, Inhabited

/-- The last real record published for a bound value slot (R416): verdict, value if the element exists, the stamp AGE
counts from. -/
structure SlotRec where
  verdict : Nat
  value   : Option Int
  from_   : Nat
  deriving DecidableEq, Repr, Inhabited

/-- A value slot binding (R416, R423). -/
structure ValSlot where
  element : Nat
  region  : Nat
  part    : Nat
  output  : Nat
  rec_    : Option SlotRec
  deriving DecidableEq, Repr, Inhabited

/-- Safety outputs, seal and telegram (R401 to R423). `lastP` and `lastN` are the balls as last sampled, which a reset that
no pin event brings reads again (log 41); `okayPin` is the output that stands high, 1 OKAY_A, 2 OKAY_B, 0 neither (R401). -/
structure Sio where
  toggling   : Bool := false
  okayPin    : Nat := 0
  release    : Bool := false
  reqLow     : Bool := false
  sealP      : BitVec 8 := 0
  restricted : Bool := false
  nowP       : BitVec 8 := 0
  nowN       : BitVec 8 := 0
  lastP      : BitVec 8 := 0
  lastN      : BitVec 8 := 0
  fault      : Bool := false
  kind       : Nat := 0
  pair       : Nat := 0
  txCycle    : Nat := 10
  rxCycle    : Nat := 0
  tgEnable   : Bool := false
  slotsEn    : Nat := 0
  udpPort    : Nat := 50216
  srcId      : Word := 0
  dstId      : Word := 0
  peerNa     : Word := 0
  peerNb     : Word := 0
  alive      : Nat := 0
  missed     : Nat := 0
  timeout    : Bool := false
  valid      : Bool := false
  rxAlive    : Nat := 0
  rxFirst    : Bool := true
  accepted   : Nat := 0
  disagree   : Nat := 0
  single     : Nat := 0
  lost       : Nat := 0
  repeat_    : Nat := 0
  foreign    : Nat := 0
  timeouts   : Nat := 0
  payload    : List Byte := []
  lastUsed   : Nat := 0
  wait       : Option TgWait := none
  slots      : Tbl ValSlot := []
  deriving DecidableEq, Repr, Inhabited

/-- A block of a port that waits for those of the other ports of its context (R174, R175): its sequence number, the TB_SAFE instant of its
first FS edge, its samples. -/
structure HeldBlock where
  seq   : Nat
  at_   : Int
  rows  : List (List Int)
  deriving DecidableEq, Repr, Inhabited

/-- A TDM port of the capture block (R171 to R175, R198). -/
structure CapPort where
  enable   : Bool := false
  master   : Bool := false
  lastSlot : Nat := 0
  blockQ   : Nat := 0
  rate     : Nat := 0
  running  : Bool := false
  fsLost   : Bool := false
  overflow : Bool := false
  nextSeq  : Nat := 0
  blocks   : Nat := 0
  dropped  : Nat := 0
  faults   : Nat := 0
  held     : Option HeldBlock := none
  deriving DecidableEq, Repr, Inhabited

/-- An EVT input's store (R184): stamps oldest first with their polarity, and LOST. -/
structure EvtIn where
  edges : List (Nat × Bool)
  lost  : Nat
  deriving DecidableEq, Repr, Inhabited

/-- The capture block (R198). -/
structure Cap where
  ports    : Tbl CapPort := []
  edgeSel  : Tbl Nat := []
  evts     : Tbl EvtIn := []
  outEn    : Bool := false
  outBase  : Nat := 0
  outWidth : Nat := 100
  inEdge   : Bool := false
  inStamp  : Nat := 0
  inNew    : Bool := false
  ppsOut   : Bool := false
  outFell  : Nat := 0
  deriving DecidableEq, Repr, Inhabited

/-- An image kind (R440 to R455). `stage` as STAGE; a slot's chunks by number; `partial_` the chunk being assembled with the
seat that sends it; counter copies none when invalid (R436); `facA` says that slot A still
holds the delivered image; `present` the dies that were present before a trial of kind 2 (R449). -/
structure Kind where
  stage      : Nat := 0
  active     : Bool := false
  trials     : Nat := 0
  trialPend  : Bool := false
  reverted   : Bool := false
  bootFail   : Bool := false
  lastStatus : Nat := 0
  nextChunk  : Nat := 0
  slotA      : Tbl (List Byte) := []
  slotB      : Tbl (List Byte) := []
  partial_   : List Byte := []
  partSeat   : Option Seat := none
  committing : Option Hdr := none
  verifying  : Option Hdr := none
  ctr0       : Option Nat := some 0
  ctr1       : Option Nat := some 0
  version    : Nat := 0
  bodyDigest : List Byte := []
  window     : Nat := 0
  trialAt    : Nat := 0
  facA       : Bool := true
  present    : Nat := 0
  deriving DecidableEq, Repr, Inhabited

/-- Update, identity and attestation (R432 to R455), with the stored safety settings of R412 as commands. -/
structure Upd where
  kinds     : Tbl Kind := []
  current   : Nat := 0
  restart   : Bool := false
  seatSOnly : Bool := false
  locked    : Bool := false
  closed    : Bool := false
  aesSlot   : List Byte := []
  shakeSlot : List Byte := []
  boots     : Nat := 0
  signing   : Option (Hdr × List Byte) := none
  settings  : List (Nat × Instr) := []
  deriving DecidableEq, Repr, Inhabited

/-- A debug journal entry (R321). -/
structure JEntry where
  reg : DbgReg
  val : Word
  deriving DecidableEq, Repr, Inhabited

/-- A cache of a core (R306): invalidated, or holding what its core's run left there, a free content by its number (log 8). -/
inductive Cache
  | empty
  | left (seed : Nat)
  deriving DecidableEq, Repr, Inhabited

/-- One companion core (R306, R320): whether it has run since reset, x1 to x31, CSRs, among them the PMP entries, pc, the words of the triggers
and the selected one, user mode, the instruction and the data cache. A register that `x` or `csr` does not list holds 0 at reset and, once the
core has run, a value of its program (log 8). -/
structure CpuRegs where
  ran    : Bool := false
  x      : Tbl Word := []
  csr    : Tbl Word := []
  trig   : Tbl Word := []
  tsel   : Nat := 0
  pc     : Word := 0
  user   : Bool := false
  icache : Cache := .empty
  dcache : Cache := .empty
  deriving DecidableEq, Repr, Inhabited

/-- A user task slot (R325, R327): its budget in us, the CRC units and the services that its declaration grants it, as masks. -/
structure UserTask where
  state    : Nat := 0
  overruns : Nat := 0
  cause    : Nat := 0
  preempt  : Bool := false
  budget   : Nat := 0
  units    : Nat := 0
  services : Nat := 0
  deriving DecidableEq, Repr, Inhabited

/-- A debug request that the input agreement stage has not let through (R315, R316). -/
inductive DbgReq | halt | resume | step
  deriving DecidableEq, Repr, Inhabited

/-- The lockstep pair, its debug state and memories (R306 to R327). `mode` 0 LOCKSTEP, 1 SPLIT, 2 LOST; `differ` holds, for
an input group that disagrees, one more than the edge since when; `sram` the words of the companion SRAM that the debugger knows since
the cores last ran (log 8); `gate` the writes of the main core that the write gate of R308 holds: the edge at which each is let through, its
BAR0 offset and value; `tap` how the two halves of the comparator last answered a tap test (log 103); `dbgReq` a debug request that waits for
its input group to agree (R316). -/
structure Pair where
  mode      : Nat := 0
  halted    : Bool := false
  armed     : Bool := false
  mism      : Nat := 0
  pathF     : Nat := 0
  kind      : Nat := 0
  group     : Nat := 0
  half      : Nat := 0
  bit       : Nat := 0
  stamp     : Nat := 0
  tapBit    : Nat := 0
  disagree  : Nat := 0
  stuck     : Nat := 0
  inCount   : Nat := 0
  agreed    : Tbl Word := []
  differ    : Tbl Nat := []
  journal   : List JEntry := []
  overflow  : Bool := false
  sba       : Bool := false
  memCorr   : Nat := 0
  memUnc    : Nat := 0
  cacheP    : Nat := 0
  splitAt   : Word := 0x10280000
  tasks     : Tbl UserTask := []
  main      : CpuRegs := {}
  checker   : CpuRegs := {}
  sram      : Tbl Word := []
  lastRead  : Word := 0
  asleep    : Bool := false
  asleepC   : Bool := false
  gate      : List (Nat × Nat × Word) := []
  tap       : TapResult := ⟨true, true⟩
  dbgReq    : Option DbgReq := none
  deriving DecidableEq, Repr, Inhabited

/-- Power and attic (R456 to R473, R507). `state` 0 RUN, 1 DOZE, 2 NAP, 3 ATTIC; `napping` a NAP entry waiting for its last
frame, with the command that asked; `waking` an exit from NAP; `wakeLow` the edge until which WAKE_n is low; `avs` the target of the
VDD_AX regulator in mV (R502). -/
structure Pwr where
  state    : Nat := 0
  req      : Nat := 0
  outcome  : Nat := 0
  napping  : Option Hdr := none
  wakePend : Bool := false
  waking   : Bool := false
  wakeHdr  : Option Hdr := none
  lastRst  : Nat := 0
  dResets  : Nat := 0
  hwy      : Nat := 0
  wakes    : Nat := 0
  tick     : Nat := 10
  now      : Nat := 0
  peak     : Option Nat := none
  wakeLow  : Nat := 0
  recCause : Nat := 0
  recSrc   : Nat := 0
  ticks    : Nat := 0
  atticAt  : Nat := 0
  timer    : Nat := 0
  ram      : List Host.Cell := []
  patch    : Tbl Word := []
  railsOff : Bool := false
  avs      : Nat := 550
  deriving DecidableEq, Repr, Inhabited

/-- Snapshots (R479 to R484). `pending` is the extended instant of the pending request; `waitFor` the units that it still
waits for: bits 0 to 3 the dies, bit 4 the companion's ports. -/
structure Snap where
  at_      : Word := 0
  id       : Nat := 0
  pending  : Option Nat := none
  done     : Bool := false
  late     : Bool := false
  latched  : Nat := 0
  waitFor  : Nat := 0
  era      : Nat := 0
  reason   : Nat := 0
  refusals : Nat := 0
  stamp    : Nat := 0
  periodic : Bool := true
  deriving DecidableEq, Repr, Inhabited

/-- What the block drives outward in a step, in order: writes to a seat's host memory, answers of seats N and S, MSI-X
messages, Ethernet frames, link blocks, register read values and pin edges. -/
inductive Out
  | hostWrite (seat : Seat) (addr : Nat) (bytes : List Byte)
  | hostRead (seat : Seat) (addr len : Nat)
  | answer (h : Hdr) (completion data : List Byte)
  | msix (seat : Seat) (vector : Nat)
  | ether (port : Nat) (frame : List Byte)
  | datagram (port : Nat) (srcIp dstIp : Word) (udpPort dscp : Nat) (payload : List Byte)
  | block (node : Nat) (east : Bool) (bytes : List Byte)
  | readValue (v : Word)
  | debugValue (v : Word)
  | okay (a b : Bool)
  | wdPulse (low : Bool)
  | ppsOut (high : Bool)
  | railsOff (low : Bool)
  | avs (mV : Nat)
  deriving DecidableEq, Repr, Inhabited

/-- Where bring-up stands: device state before SAFE and MAINTENANCE are applied (R425, R462). -/
inductive BootPhase | boot | ready | up | off
  deriving DecidableEq, Repr, Inhabited

/-- The whole block. `pending` is the queue of commands; `free` the counter free values are drawn with; `out` what the last
commands drove outward, newest first; `latch` the R7 latches by view and address of the upper word. -/
structure State where
  pending : List Instr
  free    : Nat
  out     : List Out
  boot    : BootPhase
  releaseX : Option Nat
  latch   : List (View × Nat × Word)
  time    : Time
  icu     : Icu
  wdg     : Wdg
  crc     : Tbl CrcUnit
  net     : Tbl NetPort
  sio     : Sio
  cap     : Cap
  dies    : Tbl Die
  ring    : Ring
  parts   : Tbl Part
  frames  : List Frame
  evd     : Evd
  seats   : Seats
  upd     : Upd
  pair    : Pair
  pwr     : Pwr
  snap    : Snap
  deriving DecidableEq, Repr, Inhabited

/-- Why the block stops with a fault. No command of the spec ends so; the constructor is there because the host's
interface asks for a fault type. -/
inductive Fault
  /-- Raised by no command; safe, since no step answers it. -/
  | none
  deriving DecidableEq, Repr

/-- Why a command has no meaning in the model. -/
inductive Refusal
  /-- Raised by exec's arm of a command not given its meaning yet; safe, the machine stops. -/
  | notModelled (mnemonic : String)
  deriving DecidableEq, Repr

/-- The block right after a reset of kind P, before bring-up: every field at the spec's Reset value, the queue empty, and
the fields the spec gives no value at the values of notes/assumptions/3.md. -/
def State.reset : State where
  pending := []
  free := 0
  out := []
  boot := .boot
  releaseX := none
  latch := []
  time := {}
  icu := {}
  wdg := {}
  crc := []
  net := []
  sio := {}
  cap := {}
  dies := []
  ring := {}
  parts := []
  frames := []
  evd := {}
  seats := {}
  upd := {}
  pair := {}
  pwr := {}
  snap := {}

end Sys2Proof.Machine
end

