-- ==== Sys2Proof/Machine/Ops.lean ====
section
/-! DEFINITION. Machine/Ops.lean: the named operations that every family of commands shares: sparse tables, bytes and
memories, time, free values, outputs, MSI-X messages, completion queues. -/

namespace Sys2Proof.Machine

/-- What a meaning answers. -/
abbrev Res := Host.Outcome State Fault Refusal

/-! ### Sparse tables and memories -/

/-- The entry of `k`, or the default. -/
def tblGet {α : Type} (d : α) : Tbl α → Nat → α
  | [], _ => d
  | (k, v) :: r, n => if k = n then v else tblGet d r n

/-- `t` without an entry for `n`. -/
def tblErase {α : Type} (t : Tbl α) (n : Nat) : Tbl α := t.filter fun e => !(e.1 == n)

/-- `t` with entry `n`, kept in rising order. -/
def tblPut {α : Type} : Tbl α → Nat → α → Tbl α
  | [], n, x => [(n, x)]
  | (k, v) :: r, n, x =>
    if n < k then (n, x) :: (k, v) :: r else if n = k then (n, x) :: r else (k, v) :: tblPut r n x

/-- `t` with `n` at `x`; an entry equal to the default is not listed. -/
def tblSet {α : Type} [DecidableEq α] (d : α) (t : Tbl α) (n : Nat) (x : α) : Tbl α :=
  if x = d then tblErase t n else tblPut t n x

/-- `t` with `f` applied to the entry of `n`. -/
def tblMod {α : Type} [DecidableEq α] (d : α) (t : Tbl α) (n : Nat) (f : α → α) : Tbl α :=
  tblSet d t n (f (tblGet d t n))

/-- Keys strictly rise and every one is above `lo`. -/
def tblRising {α : Type} : Option Nat → Tbl α → Bool
  | _, [] => true
  | lo, (k, _) :: r => (match lo with | none => true | some l => decide (l < k)) && tblRising (some k) r

/-- The canonical form of a sparse table: keys strictly rise and no entry equals the default. -/
def tblWf {α : Type} [DecidableEq α] (d : α) (t : Tbl α) : Bool := tblRising none t && t.all fun e => !(e.2 == d)

/-- The canonical form of a memory: a byte that nothing has written reads 0 and is not listed (log 4). -/
def Memory.wf (m : List Host.Cell) : Bool := tblWf (0 : Byte) m

/-- The byte at an address. -/
def memGet (m : List Host.Cell) (a : Nat) : Byte := tblGet 0 m a

/-- One byte written. -/
def memSet (m : List Host.Cell) (a : Nat) (b : Byte) : List Host.Cell := tblSet 0 m a b

/-- Bytes written from an address upward. -/
def memWrite (m : List Host.Cell) (a : Nat) : List Byte → List Host.Cell
  | [] => m
  | b :: r => memWrite (memSet m a b) (a + 1) r

/-- `n` bytes read from an address upward. -/
def memRead (m : List Host.Cell) (a : Nat) : Nat → List Byte
  | 0 => []
  | n + 1 => memGet m a :: memRead m (a + 1) n

/-! ### Bytes (R4, R5) -/

/-- `n` as `k` bytes, least significant first. -/
def leBytes : Nat → Nat → List Byte
  | 0, _ => []
  | k + 1, n => BitVec.ofNat 8 n :: leBytes k (n / 256)

/-- `n` as `k` bytes, most significant first. -/
def beBytes (k n : Nat) : List Byte := (leBytes k n).reverse

/-- The number that bytes spell, least significant first. -/
def ofLe : List Byte → Nat
  | [] => 0
  | b :: r => b.toNat + 256 * ofLe r

/-- The number that bytes spell, most significant first. -/
def ofBe (l : List Byte) : Nat := ofLe l.reverse

/-- `k` bytes at offset `o`. -/
def sub (l : List Byte) (o k : Nat) : List Byte := (l.drop o).take k

/-- The little-endian field of `k` bytes at offset `o`. -/
def rd (l : List Byte) (o k : Nat) : Nat := ofLe (sub l o k)

/-- Whether every byte of the `k` at offset `o` is 0. -/
def zeros (l : List Byte) (o k : Nat) : Bool := (sub l o k).all (· == 0)

/-- `l` cut or filled with zeros to `n` bytes. -/
def padTo (n : Nat) (l : List Byte) : List Byte := l.take n ++ List.replicate (n - l.length) 0

/-- `n` zero bytes. -/
def zeroBytes (n : Nat) : List Byte := List.replicate n 0

/-- Field [hi:lo] of a word. -/
def fld (w hi lo : Nat) : Nat := w / 2 ^ lo % 2 ^ (hi + 1 - lo)

/-- Bit `i` of a number. -/
def bitOf (w i : Nat) : Bool := w / 2 ^ i % 2 == 1

/-- A 32-bit word from a number. -/
def w32 (n : Nat) : Word := BitVec.ofNat 32 n

/-- A two's complement number of `k` bits as an integer. -/
def sgn (k n : Nat) : Int := if n % 2 ^ k < 2 ^ (k - 1) then (n % 2 ^ k : Nat) else ((n % 2 ^ k : Nat) : Int) - (2 ^ k : Nat)

/-- An integer in two's complement of `k` bits. -/
def unsgn (k : Nat) (x : Int) : Nat := (x % (2 ^ k : Nat)).toNat

/-- Drops every element equal to `x`. -/
def without {α : Type} [DecidableEq α] (x : α) (l : List α) : List α := l.filter fun y => !(y == x)

/-- `x` added in front unless it is there. -/
def withElem {α : Type} [DecidableEq α] (x : α) (l : List α) : List α := if x ∈ l then l else x :: l

/-- The number whose bit `i` says whether `p i`, for `i` below `n`. -/
def maskOf (n : Nat) (p : Nat → Bool) : Nat := ((List.range n).map fun i => bit (p i) * 2 ^ i).sum

/-! ### Time (R376 to R378), free values and outputs -/

/-- TB_SAFE's long count in ns; a TIME clock edge is 2.5 ns. -/
def tbSafe (s : State) : Nat := s.time.edges * 5 / 2 % 2 ^ 64

/-- The 32-bit nanosecond count of TB_SAFE. -/
def nowNs (s : State) : Nat := tbSafe s % 2 ^ 32

/-- The era of TB_SAFE: bits 33 and 32 of its long count (R380). -/
def nowEra (s : State) : Nat := tbSafe s / 2 ^ 32 % 4

/-- TIME clock edges as whole microseconds. -/
def edgesUs (e : Nat) : Nat := e / 400

/-- Nanoseconds as TIME clock edges, rounded up. -/
def nsEdges (ns : Nat) : Nat := ceilDiv (ns * 2) 5

/-- One free value has been drawn. -/
def drawn (s : State) : State := { s with free := s.free + 1 }

/-- The free choice of this moment. -/
def chooses (s : State) : Bool := Config.freeBool s.free

/-- One output added. -/
def emit (o : Out) (s : State) : State := { s with out := o :: s.out }

/-! ### Updates of one entry -/

/-- AX die `d`. -/
def die (s : State) (d : Nat) : Die := tblGet {} s.dies d

/-- `f` applied to die `d`. -/
def modDie (d : Nat) (f : Die → Die) (s : State) : State := { s with dies := tblMod {} s.dies d f }

/-- Partition `n`. -/
def part (s : State) (n : Nat) : Part := tblGet {} s.parts n

/-- `f` applied to partition `n`. -/
def modPart (n : Nat) (f : Part → Part) (s : State) : State := { s with parts := tblMod {} s.parts n f }

/-- What the companion keeps for region `r` of partition `n`. -/
def regionRt (s : State) (n r : Nat) : RegionRt := tblGet {} (part s n).regions r

/-- `f` applied to what is kept for a region. -/
def modRegion (n r : Nat) (f : RegionRt → RegionRt) (s : State) : State :=
  modPart n (fun p => { p with regions := tblMod {} p.regions r f }) s

/-- The region's records in the loaded layout. -/
def regionRec (s : State) (n r : Nat) : Option RegionRec := (part s n).layout.bind fun l => l.regions[r]?

/-- Context slot `c` of die `d`. -/
def ctx (s : State) (d c : Nat) : Ctx := tblGet {} (die s d).ctx c

/-- `f` applied to a context slot. -/
def modCtx (d c : Nat) (f : Ctx → Ctx) (s : State) : State :=
  modDie d (fun x => { x with ctx := tblMod {} x.ctx c f }) s

/-- Core `i` (die-wide index of R112) of die `d`. -/
def coreOf (s : State) (d i : Nat) : Core := tblGet {} (die s d).cores i

/-- `f` applied to a core. -/
def modCore (d i : Nat) (f : Core → Core) (s : State) : State :=
  modDie d (fun x => { x with cores := tblMod {} x.cores i f }) s

/-- The seat of PE0 or PE1. -/
def seatOf (s : State) : Seat → SeatSt
  | .a => s.seats.a
  | .b => s.seats.b
  | _ => {}

/-- `f` applied to a PCIe seat; seats N and S have no such state. -/
def modSeat (x : Seat) (f : SeatSt → SeatSt) (s : State) : State :=
  match x with
  | .a => { s with seats := { s.seats with a := f s.seats.a } }
  | .b => { s with seats := { s.seats with b := f s.seats.b } }
  | _ => s

/-- Queue pair `q` of a seat. -/
def queueOf (s : State) (x : Seat) (q : Nat) : Queue := tblGet {} (seatOf s x).queues q

/-- `f` applied to a queue pair. -/
def modQueue (x : Seat) (q : Nat) (f : Queue → Queue) (s : State) : State :=
  modSeat x (fun t => { t with queues := tblMod {} t.queues q f }) s

/-- The number of a PCIe seat in records: 0 A, 1 B; 3 for a source that owns nothing. -/
def seatNo : Seat → Nat
  | .a => 0
  | .b => 1
  | .n => 2
  | .s => 3

/-- The PCIe seat of a number. -/
def seatOfNo (n : Nat) : Option Seat := if n = 0 then some .a else if n = 1 then some .b else none

/-- The seat that owns a partition that is not EMPTY (R35, R295): 0 A, 1 B, 3 none. -/
def ownerNo (s : State) (n : Nat) : Nat := if (part s n).st = 0 then 3 else (part s n).seat

/-- A live frame by name. -/
def frameOf (s : State) (f : FrameId) : Option Frame := s.frames.find? fun x => x.id == f

/-- `g` applied to a live frame. -/
def modFrame (f : FrameId) (g : Frame → Frame) (s : State) : State :=
  { s with frames := s.frames.map fun x => if x.id = f then g x else x }

/-- A live frame has ended. -/
def dropFrame (f : FrameId) (s : State) : State := { s with frames := s.frames.filter fun x => !(x.id == f) }

/-! ### MSI-X messages and completion queues (R284 to R291) -/

/-- The port sends MSI-X messages: enabled, and not in reset (R276, R343). -/
def msixEnabled (s : State) (x : Seat) : Bool := (seatOf s x).fn.msixOn && !(seatOf s x).inReset

/-- A message of a vector: sent, or merged into the pending one while the vector is masked in the MSI-X table or with its whole function
(R291). -/
def msix (x : Seat) (v : Nat) (s : State) : State :=
  if !msixEnabled s x then s
  else if v ∈ (seatOf s x).unmasked ∧ (seatOf s x).fn.msixMask = false then emit (.msix x v) s
  else modSeat x (fun t => { t with pendingMsg := withElem v t.pendingMsg }) s

/-- Entries of a CQ that the host has not consumed (R285). -/
def cqUsed (q : Queue) : Nat := if q.cqSize = 0 then 0 else (q.cqTail + q.cqSize - q.cqHead) % q.cqSize

/-- Free entries of CQ `q` that no started command has reserved; one entry stays empty (R286, R287; log 20). -/
def cqFree (q : Queue) : Nat := q.cqSize - 1 - cqUsed q - q.busy

/-- A DMA write to host memory and what follows it: a write that the host rejects is counted in AER, and nothing follows (R278; log 99). -/
def hostPut (x : Seat) (addr : Nat) (b : List Byte) (f : State → State) (s : State) : State :=
  if (seatOf s x).rejects then modSeat x (fun t => { t with fn := { t.fn with aer := wrapAt 32 (t.fn.aer + 1) } }) s
  else f (emit (.hostWrite x addr b) s)

/-- An entry written whole at the CQ's tail with the current phase, and its message when INT_EN is set (R286, R291). -/
def cqPost (x : Seat) (q : Nat) (entry : List Byte) (s : State) : State :=
  let u := queueOf s x q
  let e := entry.take 31 ++ [BitVec.ofNat 8 (bit u.phase)]
  let wraps := u.cqTail + 1 == u.cqSize
  hostPut x (u.cqBase + 32 * u.cqTail) e (fun s =>
    let s := modQueue x q (fun u => { u with
      cqTail := if wraps then 0 else u.cqTail + 1, phase := if wraps then !u.phase else u.phase }) s
    if u.intEn then msix x u.vector s else s) s

/-- Whether a KIND 1 or 2 entry may be written to the CQ (R290). -/
def cqOpen (s : State) (x : Seat) (q : Nat) : Bool :=
  !(seatOf s x).inReset && (queueOf s x q).enabled && (queueOf s x q).enable && decide (0 < cqFree (queueOf s x q))

/-- The 32 bytes of a completion entry; the phase byte is filled at the CQ (R284). -/
def cqEntry (id b2 kind head status prt info0 info1 info2 : Nat) (s : State) : List Byte :=
  leBytes 2 id ++ leBytes 1 b2 ++ leBytes 1 kind ++ leBytes 2 head ++ leBytes 1 status ++ leBytes 1 prt ++
  leBytes 4 info0 ++ leBytes 4 info1 ++ leBytes 8 info2 ++ leBytes 4 (nowNs s) ++ leBytes 1 (nowEra s) ++ zeroBytes 3

/-! ### Releasing dies -/

/-- Die `d` is released from reset (R425 steps 6 and 7, R459 step 3, R465 step 1). -/
def releaseDie (d : Nat) (s : State) : State :=
  modDie d (fun x => { x with st := 0, inReset := false, hello := false, released := s.time.edges, microcode := false }) s

/-- A fold over the four dies. -/
def eachDie (f : Nat → State → State) (s : State) : State := f 3 (f 2 (f 1 (f 0 s)))

/-- An exit from NAP begins: every die in NAP is powered and released at one instant (R465). -/
def beginNapExit (h : Option Hdr) (s : State) : State :=
  let s := { s with pwr := { s.pwr with waking := true, wakeHdr := h, wakePend := false }, releaseX := some s.time.edges }
  eachDie (fun d s => if (die s d).st = 7 then releaseDie d s else s) s

end Sys2Proof.Machine
end

