-- ==== Sys2Proof/Machine/Flags.lean ====
section
/-! DEFINITION. Machine/Flags.lean: status codes and the flag and counter fields that commands update. -/

namespace Sys2Proof.Machine

/-! ### Status codes (R18) -/

def stOk : Nat := 0
def eRights : Nat := 1
def eState : Nat := 2
def eFormat : Nat := 3
def eCrc : Nat := 4
def eOvercommit : Nat := 5
def eAbsent : Nat := 6
def eZero : Nat := 7
def eBusy : Nat := 8
def eTimeout : Nat := 9
def eSignature : Nat := 10
def eRollback : Nat := 11
def eSeal : Nat := 12

/-- The status of a command to which several codes apply: the lowest (R19). Each pair says whether its code applies. -/
def lowest : List (Bool × Nat) → Nat
  | [] => 0
  | (b, c) :: r =>
    let x := lowest r
    if b && !(c == 0) && (x == 0 || decide (c < x)) then c else x

/-! ### Counters -/

/-- A count of 8 bits that holds at 255. -/
def up8 (n : Nat) : Nat := holdAt 255 (n + 1)

/-- A count of 16 bits that holds at 65,535. -/
def up16 (n : Nat) : Nat := holdAt 65535 (n + 1)

/-- A count of 32 bits that holds at 0xFFFF_FFFF. -/
def up32 (n : Nat) : Nat := holdAt 0xFFFFFFFF (n + 1)

/-- A 32-bit counter of R474 moved on by `k`; it wraps. -/
def wrap32 (n k : Nat) : Nat := wrapAt 32 (n + k)

/-- Adds `k` to a 32-bit counter in a bank (R474). -/
def countUp (t : Tbl Nat) (i k : Nat) : Tbl Nat := tblMod 0 t i fun n => wrap32 n k

/-- The live counter at bank offset `o` of die `d` moved on by `k`. -/
def dieCount (d o k : Nat) (s : State) : State := modDie d (fun x => { x with live := countUp x.live o k }) s

/-- Two opposite rails carry the clear code only as low and high (R26). -/
def alarmCode (x : Die) : Bool := !(!x.almT && x.almF)

/-- Whether the safe-output logic acts on a die's alarm pair: not in reset, not ABSENT, not FAILED, not in NAP (R27). -/
def alarmHeard (x : Die) : Bool := !x.inReset && !(x.st == 6) && !(x.st == 5) && !(x.st == 7)

end Sys2Proof.Machine
end

