-- ==== Sys2Proof/Machine/Crc.lean ====
section
/-! DEFINITION. Machine/Crc.lean: the five CRCs of R364 and the check-value units (R366 to R374). -/

namespace Sys2Proof.Machine

/-- The parameters of a CRC (R364). -/
structure CrcKind where
  width : Nat
  poly  : BitVec 64
  init  : BitVec 64
  refl  : Bool
  xorOut : BitVec 64
  deriving DecidableEq, Repr

/-- R364, by POLY. -/
def crcKind (p : Nat) : CrcKind :=
  match p with
  | 0 => ⟨8, 0x1D, 0xFF, false, 0xFF⟩
  | 1 => ⟨16, 0x1021, 0xFFFF, false, 0⟩
  | 2 => ⟨32, 0x04C11DB7, 0xFFFFFFFF, true, 0xFFFFFFFF⟩
  | 3 => ⟨32, 0x1EDC6F41, 0xFFFFFFFF, true, 0xFFFFFFFF⟩
  | _ => ⟨64, 0x42F0E1EBA9EA3693, 0, false, 0⟩

/-- The low `w` bits of a register. -/
def crcMask (w : Nat) : BitVec 64 := BitVec.ofNat 64 (2 ^ w - 1)

/-- One data bit enters the register at its top. -/
def crcBit (k : CrcKind) (r : BitVec 64) (b : Bool) : BitVec 64 :=
  let top := r.getLsbD (k.width - 1)
  let r := (r <<< 1) &&& crcMask k.width
  if top != b then r ^^^ k.poly else r

/-- The bits of a byte in the order in which the CRC takes them (R364). -/
def crcBits (refl : Bool) (b : Byte) : List Bool :=
  let l := [b.getLsbD 0, b.getLsbD 1, b.getLsbD 2, b.getLsbD 3, b.getLsbD 4, b.getLsbD 5, b.getLsbD 6, b.getLsbD 7]
  if refl then l else l.reverse

/-- One byte enters the register. -/
def crcByte (k : CrcKind) (r : BitVec 64) (b : Byte) : BitVec 64 := (crcBits k.refl b).foldl (crcBit k) r

/-- The low `w` bits reversed. -/
def crcReflect (w : Nat) (r : BitVec 64) : BitVec 64 :=
  BitVec.ofNat 64 (maskOf w fun i => r.getLsbD (w - 1 - i))

/-- The result of a running register: reflection, then the output XOR (R364, R369). -/
def crcResult (k : CrcKind) (r : BitVec 64) : BitVec 64 := (if k.refl then crcReflect k.width r else r) ^^^ k.xorOut

/-- The CRC of some bytes. -/
def crcOf (p : Nat) (l : List Byte) : BitVec 64 := crcResult (crcKind p) (l.foldl (crcByte (crcKind p)) (crcKind p).init)

/-- CRC-32C (R365). -/
def crc32c (l : List Byte) : Word := (crcOf 3 l).setWidth 32

/-- CRC-32/IEEE 802.3. -/
def crc32 (l : List Byte) : Word := (crcOf 2 l).setWidth 32

/-- A unit at its Reset values (R374). -/
def crcUnitReset : CrcUnit := ⟨3, false, 3, 0xFFFFFFFF, 0, 0, 0⟩

/-- Unit `u`. -/
def crcUnit (s : State) (u : Nat) : CrcUnit := tblGet crcUnitReset s.crc u

/-- `f` applied to unit `u`. -/
def modCrc (u : Nat) (f : CrcUnit → CrcUnit) (s : State) : State := { s with crc := tblMod crcUnitReset s.crc u f }

/-- One byte fed to a unit (R366). -/
def crcFeed (x : CrcUnit) (b : Byte) : CrcUnit := { x with run := crcByte (crcKind x.poly) x.run b, count := x.count + 1 }

/-- The low `n` bytes of a word fed in order (R366). -/
def crcFeedWord (n : Nat) (v : Word) (x : CrcUnit) : CrcUnit := (leBytes n v.toNat).foldl crcFeed x

/-- START (R368, R370). -/
def crcStartUnit (x : CrcUnit) : CrcUnit :=
  let x := { x with poly := x.cfg, run := (crcKind x.cfg).init, count := 0 }
  if x.aliveEn then { crcFeed x x.alive with alive := x.alive + 1 } else x

/-- A write of CRC_STATE_LO: held for a 64-bit CRC, committed at once otherwise (R371). DEDUCED: a state that is committed is one of the CRC of
CRC_CFG, since a restore writes CRC_CFG before it and no START; without a state written POLY waits for START (R368; log 53). -/
def crcStateLo (v : Word) (x : CrcUnit) : CrcUnit :=
  if (crcKind x.cfg).width = 64 then { x with held := v }
  else { x with poly := x.cfg, run := v.setWidth 64 &&& crcMask (crcKind x.cfg).width, held := v }

/-- A write of CRC_STATE_HI: commits both words of a 64-bit CRC, ignored otherwise (R371; log 53). -/
def crcStateHi (v : Word) (x : CrcUnit) : CrcUnit :=
  if (crcKind x.cfg).width = 64 then { x with poly := x.cfg, run := v ++ x.held } else x

/-- A write of CRC_CFG: POLY 5 to 7 is ignored (R374). -/
def crcCfg (v : Nat) (x : CrcUnit) : CrcUnit :=
  { x with cfg := if fld v 2 0 ≤ 4 then fld v 2 0 else x.cfg, aliveEn := bitOf v 3 }

/-- CRC_DATA8 (R366). -/
def execCrcData8 (u : Fin 8) (v : Word) (s : State) : Res := .next (modCrc u (crcFeedWord 1 v) s)

/-- CRC_DATA16 (R366). -/
def execCrcData16 (u : Fin 8) (v : Word) (s : State) : Res := .next (modCrc u (crcFeedWord 2 v) s)

/-- CRC_DATA32 (R366). -/
def execCrcData32 (u : Fin 8) (v : Word) (s : State) : Res := .next (modCrc u (crcFeedWord 4 v) s)

/-- CRC_CTRL.START (R368, R370). -/
def execCrcStart (u : Fin 8) (s : State) : Res := .next (modCrc u crcStartUnit s)

/-- CRC_STATE_LO (R371). -/
def execCrcStateLoWrite (u : Fin 8) (v : Word) (s : State) : Res := .next (modCrc u (crcStateLo v) s)

/-- CRC_STATE_HI (R371). -/
def execCrcStateHiWrite (u : Fin 8) (v : Word) (s : State) : Res := .next (modCrc u (crcStateHi v) s)

end Sys2Proof.Machine
end

