-- ==== Sys2Proof/Machine/Keccak.lean ====
section
/-! DEFINITION. Machine/Keccak.lean: SHAKE256, which the spec names for its digests (PRESUMED: FIPS 202; log 25). -/

namespace Sys2Proof.Machine

/-- One step of the round-constant register. -/
def keccakLfsr (r : Nat) : Nat := if 128 ≤ r then (2 * r) % 256 ^^^ 0x71 else 2 * r

/-- `n` steps of it. -/
def keccakLfsrs : Nat → Nat → Nat
  | 0, r => r
  | n + 1, r => keccakLfsrs n (keccakLfsr r)

/-- The round constant of round `i`. -/
def keccakRc (i : Nat) : BitVec 64 :=
  (List.range 7).foldl (fun w j =>
    if keccakLfsrs (7 * i + j) 1 % 2 = 1 then w ||| BitVec.ofNat 64 (2 ^ (2 ^ j - 1)) else w) 0

/-- Lane (x, y) of the state. -/
def lane (a : List (BitVec 64)) (x y : Nat) : BitVec 64 := a.getD (x % 5 + 5 * (y % 5)) 0

/-- Theta. -/
def keccakTheta (a : List (BitVec 64)) : List (BitVec 64) :=
  let c := (List.range 5).map fun x => lane a x 0 ^^^ lane a x 1 ^^^ lane a x 2 ^^^ lane a x 3 ^^^ lane a x 4
  (List.range 25).map fun i =>
    a.getD i 0 ^^^ c.getD ((i + 4) % 5) 0 ^^^ (c.getD ((i + 1) % 5) 0).rotateLeft 1

/-- Rho's offsets, by position x + 5 y. -/
def rhoOffsets : List Nat :=
  [0, 1, 62, 28, 27, 36, 44, 6, 55, 20, 3, 10, 43, 25, 39, 41, 45, 15, 21, 8, 18, 2, 61, 56, 14]

/-- Rho and pi: lane (x, y) takes lane (x + 3 y, x). -/
def keccakRhoPi (a : List (BitVec 64)) : List (BitVec 64) :=
  (List.range 25).map fun i =>
    let x := i % 5
    let y := i / 5
    let j := (x + 3 * y) % 5 + 5 * x
    (a.getD j 0).rotateLeft (rhoOffsets.getD j 0)

/-- Chi and iota. -/
def keccakChi (rc : BitVec 64) (a : List (BitVec 64)) : List (BitVec 64) :=
  (List.range 25).map fun i =>
    let v := lane a i (i / 5) ^^^ ((lane a (i % 5 + 1) (i / 5)).not &&& lane a (i % 5 + 2) (i / 5))
    if i = 0 then v ^^^ rc else v

/-- Keccak-f[1600]. -/
def keccakF (a : List (BitVec 64)) : List (BitVec 64) :=
  (List.range 24).foldl (fun a i => keccakChi (keccakRc i) (keccakRhoPi (keccakTheta a))) a

/-- A block of 136 bytes absorbed. -/
def keccakAbsorb (a : List (BitVec 64)) (b : List Byte) : List (BitVec 64) :=
  keccakF ((List.range 25).map fun i => a.getD i 0 ^^^ BitVec.ofNat 64 (rd b (8 * i) 8))

/-- The blocks of a padded message absorbed; `n` bounds how many. -/
def keccakBlocks : Nat → List (BitVec 64) → List Byte → List (BitVec 64)
  | 0, a, _ => a
  | n + 1, a, l => if l.isEmpty then a else keccakBlocks n (keccakAbsorb a (l.take 136)) (l.drop 136)

/-- SHAKE256's padding. -/
def shakePad (l : List Byte) : List Byte :=
  let k := 135 - l.length % 136
  if k = 0 then l ++ [0x9F] else l ++ [0x1F] ++ zeroBytes (k - 1) ++ [0x80]

/-- The first `n` bytes of SHAKE256, `n` at most 136. -/
def shake256 (n : Nat) (l : List Byte) : List Byte :=
  let a := keccakBlocks (l.length / 136 + 1) (List.replicate 25 0) (shakePad l)
  ((a.map fun w => leBytes 8 w.toNat).flatten).take n

end Sys2Proof.Machine
end

