-- ==== Sys2Proof/Machine/Arith.lean ====
section
/-! DEFINITION. Machine/Arith.lean: element formats, scale words, exact sums and requantisation (R37 to R63), and the helpers
of the operator contract (R68 to R72). -/

namespace Sys2Proof.Machine

/-! ### Formats (R37, R39, R164) -/

/-- Width in bits (R37). -/
def Fmt.bits : Fmt → Nat
  | .t2 => 2
  | .s4 => 4
  | .u4 => 4
  | .s6 => 6
  | .s8 => 8
  | .u8 => 8
  | .s16 => 16
  | .u16 => 16
  | .s24 => 24
  | .s32 => 32
  | .s48 => 48

/-- Unsigned formats. -/
def Fmt.unsigned : Fmt → Bool
  | .u4 => true
  | .u8 => true
  | .u16 => true
  | _ => false

/-- Smallest value (R37). -/
def Fmt.lo (f : Fmt) : Int := if f = .t2 then -1 else if Fmt.unsigned f then 0 else -((2 : Int) ^ (Fmt.bits f - 1))

/-- Largest value (R37). -/
def Fmt.hi (f : Fmt) : Int :=
  if f = .t2 then 1 else if Fmt.unsigned f then (2 : Int) ^ Fmt.bits f - 1 else (2 : Int) ^ (Fmt.bits f - 1) - 1

/-- The format codes of R164. -/
def Fmt.ofCode (n : Nat) : Option Fmt :=
  match n with
  | 1 => some .t2
  | 2 => some .s4
  | 3 => some .u4
  | 4 => some .s6
  | 5 => some .s8
  | 6 => some .u8
  | 7 => some .s16
  | 8 => some .u16
  | 9 => some .s24
  | 10 => some .s32
  | 11 => some .s48
  | _ => none

/-- The code of a format (R164). -/
def Fmt.code : Fmt → Nat
  | .t2 => 1
  | .s4 => 2
  | .u4 => 3
  | .s6 => 4
  | .s8 => 5
  | .u8 => 6
  | .s16 => 7
  | .u16 => 8
  | .s24 => 9
  | .s32 => 10
  | .s48 => 11

/-- Elements of a 32-bit word, outside the cellar (R39); S48 takes two words an element. -/
def Fmt.perWord : Fmt → Nat
  | .t2 => 16
  | .s4 => 8
  | .u4 => 8
  | .s6 => 5
  | .s8 => 4
  | .u8 => 4
  | .s16 => 2
  | .u16 => 2
  | _ => 1

/-! ### Scale words (R44, R45) -/

/-- M of a scale word. -/
def scaleM (w : BitVec 16) : Nat := fld w.toNat 15 8

/-- E of a scale word. -/
def scaleE (w : BitVec 16) : Int := sgn 7 (fld w.toNat 7 1)

/-- A scale word; its reserved bit is written as 0. -/
def scaleWord (m : Nat) (e : Int) : BitVec 16 := BitVec.ofNat 16 (m % 256 * 256 + unsgn 7 e * 2)

/-! ### Counting and drawing -/

/-- The seed of pinned draws (R60): the layout's seed, the frame's sequence number, the core's die-wide index. -/
structure Pin where
  seed : Nat
  seq  : Nat
  core : Nat
  deriving DecidableEq, Repr

/-- What an evaluation moves on: the counter of free draws, the saturation count, the source of STOCH draws with how many pinned
ones the core has made for this frame (R60), what disturbs the values of the operator by output position, and whether the residue checker has
seen a difference (R108). -/
structure Wk where
  free  : Nat
  sats  : Nat
  pin   : Option Pin := none
  draws : Nat := 0
  ups   : List (Nat × EngineValue × Int) := []
  seen  : Bool := false
  deriving DecidableEq, Repr

/-- One clamp counted. -/
def Wk.clamp (k : Wk) : Wk := { k with sats := k.sats + 1 }

/-- `f` over a list, from left to right. -/
def mapWk {α β : Type} (f : α → Wk → β × Wk) : List α → Wk → List β × Wk
  | [], k => ([], k)
  | x :: r, k =>
    let y := f x k
    let z := mapWk f r y.2
    (y.1 :: z.1, z.2)

/-- The nearest integer to `x / 2^n`, ties to even (R53). -/
def rneShift (x : Int) (n : Nat) : Int :=
  let q := x / (2 : Int) ^ n
  let r := x % (2 : Int) ^ n
  if 2 * r < (2 : Int) ^ n then q else if (2 : Int) ^ n < 2 * r then q + 1 else q + q % 2

/-- The nearest integer to `a / b` for positive `b`, ties to even (R69). -/
def rneDiv (a b : Int) : Int :=
  let q := a / b
  let r := a % b
  if 2 * r < b then q else if b < 2 * r then q + 1 else q + q % 2

/-- The integer square root (R69), by bisection on `n` bits. -/
def isqrtBits (q : Nat) : Nat → Nat → Nat
  | 0, r => r
  | n + 1, r => let t := r + 2 ^ n; isqrtBits q n (if t * t ≤ q then t else r)

/-- The largest `r` with `r * r ≤ q`, for `q` below 2^100. -/
def isqrt (q : Nat) : Nat := isqrtBits q 50 0

/-- Clamped to a range; each clamp is counted (R53, R59). -/
def satTo (lo hi x : Int) (k : Wk) : Int × Wk := if x < lo then (lo, k.clamp) else if hi < x then (hi, k.clamp) else (x, k)

/-- sat48 (R53). -/
def sat48 (x : Int) (k : Wk) : Int × Wk := satTo (Fmt.lo .s48) (Fmt.hi .s48) x k

/-- A clamp to S24. -/
def satS24 (x : Int) (k : Wk) : Int × Wk := satTo (Fmt.lo .s24) (Fmt.hi .s24) x k

/-- A draw of `n` bits and what is left to draw from (R56, R60): of the die's random number generator, or of the generator that the
pinned seed starts; neither generator is part of the contract (R60, R103). -/
def drawBits (n : Nat) (k : Wk) : Nat × Wk :=
  match k.pin with
  | none => (Config.freeNat k.free % 2 ^ n, { k with free := k.free + 1 })
  | some p => (Config.pinnedDraw p.seed p.seq p.core k.draws % 2 ^ n, { k with draws := k.draws + 1 })

/-- A rounding mode's result for `x / 2^n` (R56); a tuning frame's mode is RNE (R63). -/
def roundMode (m : Round) (x : Int) (n : Nat) (k : Wk) : Int × Wk :=
  if n = 0 then (x, k) else
  match m with
  | .rne => (rneShift x n, k)
  | .rtz => (Int.tdiv x ((2 : Int) ^ n), k)
  | .stoch => let r := drawBits n k; ((x + (r.1 : Int)) / (2 : Int) ^ n, r.2)

/-- `t` at exponent `e`, carried to exponent `ew` (R52, R68). -/
def carryTo (t e ew : Int) (k : Wk) : Int × Wk :=
  let d := e - ew
  if 0 ≤ d then sat48 (t * (2 : Int) ^ d.toNat) k else (rneShift t (-d).toNat, k)

/-- lift (R68). -/
def lift (x : Int) (m : Nat) (e ew : Int) (k : Wk) : Int × Wk := if m = 0 then (0, k) else carryTo (x * m) e ew k

/-- lift of an element under its scale word. -/
def liftW (x : Int) (w : BitVec 16) (ew : Int) (k : Wk) : Int × Wk := lift x (scaleM w) (scaleE w) ew k

/-- rescale (R69); with Mo 0 it is not defined and not used. -/
def rescale (x : Int) (wx wo : BitVec 16) : Int :=
  let d := scaleE wx - scaleE wo
  if 0 ≤ d then rneDiv (x * scaleM wx * (2 : Int) ^ d.toNat) (scaleM wo)
  else rneDiv (x * scaleM wx) (scaleM wo * (2 : Int) ^ (-d).toNat)

/-- The accumulation of R52: from 0, one contribution after another, each sum clamped to S48. -/
def sumSat (l : List Int) (k : Wk) : Int × Wk := l.foldl (fun a u => sat48 (a.1 + u) a.2) (0, k)

/-- The residue code of R108. -/
def residue127 (x : Int) : Nat := (x % 127).toNat

/-- The checker compares a value with its predicted residue: one that is off by `delta` is a residue fault unless `delta` is a multiple of
127 (R108). -/
def Wk.check (delta : Int) (k : Wk) : Wk := { k with seen := k.seen || !(residue127 delta == 0) }

/-! ### Tensors (R43, R65, R197) -/

/-- Product of extents. -/
def prod (l : List Nat) : Nat := l.foldl (· * ·) 1

/-- Row-major position of an index. -/
def flatOf (shape idx : List Nat) : Nat := (shape.zip idx).foldl (fun n e => n * e.1 + e.2) 0

/-- The index of a row-major position. -/
def unflat (shape : List Nat) (n : Nat) : List Nat :=
  (shape.foldr (fun e (a : List Nat × Nat) => (a.2 % max 1 e :: a.1, a.2 / max 1 e)) ([], n)).1

/-- Block length along the axis; 0 stands for the whole axis (R43). -/
def blockLen (shape : List Nat) (axis block : Nat) : Nat := if block = 0 then max 1 (shape.getD axis 1) else block

/-- The number of the block that holds a position, in the row-major order of R197. -/
def blockAt (shape : List Nat) (axis block n : Nat) : Nat :=
  let b := blockLen shape axis block
  let i := unflat shape n
  flatOf (shape.set axis (ceilDiv (shape.getD axis 1) b)) (i.set axis (i.getD axis 0 / b))

/-- How many blocks a tensor has. -/
def blockCount (shape : List Nat) (axis block : Nat) : Nat :=
  prod (shape.set axis (ceilDiv (shape.getD axis 1) (blockLen shape axis block)))

/-- Block number of a tensor's position. -/
def Tensor.blk (t : Tensor) (n : Nat) : Nat := blockAt t.shape t.axis t.block n

/-- Scale word of a tensor's position; the reserved bit is ignored (R48). -/
def Tensor.word (t : Tensor) (n : Nat) : BitVec 16 := t.scales.getD (blockAt t.shape t.axis t.block n) 0 &&& 0xFFFE

/-- The T2 code 0b10, which as a two's complement number is -2 (R38). -/
def t2Bad (f : Fmt) (x : Int) : Bool := f == .t2 && x == -2

/-- Element of a position; one of a block with M = 0 counts as 0 (R46), and so does the T2 code 0b10 (R38). -/
def Tensor.el (t : Tensor) (n : Nat) : Int :=
  let x := t.elems.getD n 0
  if scaleM (Tensor.word t n) = 0 || t2Bad t.fmt x then 0 else x

/-- An extent. -/
def Tensor.ext (t : Tensor) (a : Nat) : Nat := t.shape.getD a 1

/-- Number of elements. -/
def Tensor.count (t : Tensor) : Nat := prod t.shape

/-- A tensor with no elements: the outermost extent 0 (R75). -/
def emptyTensor (fmt : Fmt) (shape : List Nat) (axis block : Nat) : Tensor := ⟨fmt, shape.set 0 0, axis, block, [], []⟩

/-! ### Requantisation (R55 to R59, R70) -/

/-- Elements rounded and clamped; in the overflowing case of R58 each nonzero one saturates by its sign. -/
def narrow (o : OutSpec) (tooWide : Bool) (n : Nat) (m : Round) (a : Int) (k : Wk) : Int × Wk :=
  let r := roundMode m (a * o.q) n k
  if tooWide then
    if r.1 = 0 then r else (if r.1 < 0 then Fmt.lo o.fmt else Fmt.hi o.fmt, r.2.clamp)
  else satTo (Fmt.lo o.fmt) (Fmt.hi o.fmt) r.1 r.2

/-- `x / 2^n` rounded away from zero. -/
def roundAway (x : Int) (n : Nat) : Int := if x < 0 then x / (2 : Int) ^ n else -((-x) / (2 : Int) ^ n)

/-- The step of a dynamic block (R58): the smallest that fits, else `emax`. -/
def stepOf (o : OutSpec) (l : List Int) : Nat :=
  ((List.range (o.emax + 1)).find? fun e =>
    l.all fun a => let y := roundAway (a * o.q) (o.s + e); decide (Fmt.lo o.fmt ≤ y) && decide (y ≤ Fmt.hi o.fmt)).getD o.emax

/-- One output block: its scale word and elements (R47, R55 to R59). -/
def narrowBlock (o : OutSpec) (m : Round) (l : List Int) (k : Wk) : (BitVec 16 × List Int) × Wk :=
  let e := if o.dyn then stepOf o l else 0
  let tooWide := o.dyn && decide (63 < o.eo + e)
  let r := mapWk (narrow o tooWide (o.s + e) m) l k
  if r.1.all (· == 0) then ((0, r.1), r.2)
  else ((scaleWord o.mo (if tooWide then 63 else o.eo + e), r.1), r.2)

/-- The positions of each block, in order. -/
def blockPositions (shape : List Nat) (axis block : Nat) : List (List Nat) :=
  let l := (List.range (prod shape)).map fun n => (blockAt shape axis block n, n)
  (List.range (blockCount shape axis block)).map fun b => (l.filter fun e => e.1 == b).map (·.2)

/-- A tensor put together from its blocks. -/
def assemble (fmt : Fmt) (shape : List Nat) (axis block : Nat) (bs : List (BitVec 16 × List Int)) : Tensor :=
  let ps := (blockPositions shape axis block).zip bs
  let cells := (ps.map fun e => e.1.zip e.2.2).flatten
  ⟨fmt, shape, axis, block, bs.map (·.1), (List.range (prod shape)).map fun n =>
    ((cells.find? fun c => c.1 == n).map (·.2)).getD 0⟩

/-- What strikes one value of an output position (R108). -/
def upsetAt (k : Wk) (n : Nat) (v : EngineValue) : Int := ((k.ups.filter fun u => u.1 == n && u.2.1 == v).map (·.2.2)).sum

/-- An accumulator as it leaves for the requantisation: disturbed, and compared with its residue (R106, R108). -/
def accLeaves (accs : List Int) (n : Nat) (k : Wk) : Int × Wk :=
  let d := upsetAt k n .acc
  (accs.getD n 0 + d, Wk.check d k)

/-- A requantised operator's output from its wide values, as they leave the engine (R70, R106, R108); a tuning frame rounds to
nearest-even (R63). -/
def requantised (tun : Bool) (o : OutSpec) (shape : List Nat) (accs : List Int) (k : Wk) : Tensor × Wk :=
  if prod shape = 0 then (emptyTensor o.fmt shape o.axis o.block, k)
  else
    let r := mapWk (fun ps k =>
        let a := mapWk (accLeaves accs) ps k
        narrowBlock o (if tun then .rne else o.round) a.1 a.2) (blockPositions shape o.axis o.block) k
    (assemble o.fmt shape o.axis o.block r.1, r.2)

/-! ### Carried operators (R71) -/

/-- The real value of an element, in units of 2^-64. -/
def realOf (x : Int) (w : BitVec 16) : Int := x * scaleM w * (2 : Int) ^ (scaleE w + 64).toNat

/-- The coarser of two scale words; of equal steps the one with the larger exponent (R71). -/
def coarser (a b : BitVec 16) : BitVec 16 :=
  if realOf 1 a < realOf 1 b || (realOf 1 a == realOf 1 b && decide (scaleE a < scaleE b)) then b else a

/-- One carried output block from its elements with their words (R71). -/
def carryBlock (l : List (Int × BitVec 16)) : BitVec 16 × List Int :=
  let ws := (l.map (·.2)).filter fun w => !(scaleM w == 0)
  match ws with
  | [] => (0, l.map fun _ => 0)
  | w :: r =>
    if ws.length = l.length && r.all (· == w) then (w, l.map (·.1))
    else
      let c := r.foldl coarser w
      (c, l.map fun e => if scaleM e.2 = 0 then 0 else if e.2 = c then e.1 else rescale e.1 e.2 c)

/-- A carried output from its elements in row-major order (R71, R75). -/
def carried (fmt : Fmt) (shape : List Nat) (axis block : Nat) (l : List (Int × BitVec 16)) : Tensor :=
  if prod shape = 0 then emptyTensor fmt shape axis block
  else assemble fmt shape axis block
    ((blockPositions shape axis block).map fun ps => carryBlock (ps.map fun n => l.getD n (0, 0)))

/-- An element with its word. -/
def Tensor.pair (t : Tensor) (n : Nat) : Int × BitVec 16 := (Tensor.el t n, Tensor.word t n)

end Sys2Proof.Machine
end

