-- ==== Sys2Proof/Machine/Pack.lean ====
section
/-! DEFINITION. Machine/Pack.lean: how elements and scale words stand in shelves, store rooms, results and the cellar
(R38 to R42, R46, R47, R49). -/

namespace Sys2Proof.Machine

/-! ### Rows (R39 to R42) -/

/-- 32-bit words of a row of `n` elements, in containers (R39, R41). -/
def rowWords (f : Fmt) (n : Nat) : Nat := if f = .s48 then 2 * n else ceilDiv n (Fmt.perWord f)

/-- Bits that one element takes in a word or container. -/
def slotBits (f : Fmt) : Nat := if f = .s24 then 32 else if f = .s48 then 64 else Fmt.bits f

/-- An element's bits in its slot; upper container bits copy the sign (R39, R42), and the T2 code 0b10 is never written (R38). -/
def slotVal (f : Fmt) (x : Int) : Nat :=
  if f = .t2 then (if x = 1 then 1 else if x = -1 then 3 else 0) else unsgn (slotBits f) x

/-- Elements of one word (of two for S48), the first lowest (R39); bits not used are 0. -/
def packWord (f : Fmt) : List Int → Nat
  | [] => 0
  | x :: r => slotVal f x + 2 ^ slotBits f * packWord f r

/-- A row's elements as bytes; positions past its end are 0 (R41). -/
def packRow (f : Fmt) : Nat → List Int → List Byte
  | 0, _ => []
  | n + 1, l =>
    if l.isEmpty then []
    else leBytes (if f = .s48 then 8 else 4) (packWord f (l.take (Fmt.perWord f))) ++ packRow f n (l.drop (Fmt.perWord f))

/-- An S24 row of the cellar: four elements in three words, filled to a group (R40, R41). -/
def packGroups (l : List Int) : List Byte := padTo (roundUp (3 * l.length) 12) (l.flatMap fun x => leBytes 3 (unsgn 24 x))

/-- A row as the cellar holds it, or in containers. -/
def rowBytes (cellar : Bool) (f : Fmt) (l : List Int) : List Byte :=
  if cellar && f == .s24 then packGroups l else packRow f (rowWords f l.length) l

/-- Bytes of a row of `n` elements. -/
def rowSize (cellar : Bool) (f : Fmt) (n : Nat) : Nat := if cellar && f == .s24 then roundUp (3 * n) 12 else 4 * rowWords f n

/-- Element `i` of a row that begins at a byte; the T2 code 0b10 reads as -2 (R38), bits not used are ignored (R42). -/
def elemAt (cellar : Bool) (b : List Byte) (f : Fmt) (at_ i : Nat) : Int :=
  let v :=
    if cellar && f == .s24 then rd b (at_ + 3 * i) 3
    else if f = .s48 then rd b (at_ + 8 * i) 8
    else rd b (at_ + 4 * (i / Fmt.perWord f)) 4 / 2 ^ (slotBits f * (i % Fmt.perWord f))
  if Fmt.unsigned f then (v % 2 ^ Fmt.bits f : Nat) else sgn (Fmt.bits f) v

/-- The innermost extent. -/
def innerExt (shape : List Nat) : Nat := shape.getLastD 0

/-- Bytes of a tensor's element area. -/
def areaSize (cellar : Bool) (f : Fmt) (shape : List Nat) : Nat := prod shape.dropLast * rowSize cellar f (innerExt shape)

/-! ### Whole tensors in a memory (R41, R46, R47, R49) -/

/-- Scale words as bytes, two to a 32-bit word, the reserved bit 0 (R44, R49). -/
def scaleBytes (l : List (BitVec 16)) : List Byte := (l.map fun w => leBytes 2 (w &&& 0xFFFE).toNat).flatten

/-- `k` scale words from an address. -/
def scalesIn (m : List Host.Cell) (a k : Nat) : List (BitVec 16) :=
  (List.range k).map fun i => BitVec.ofNat 16 (rd (memRead m (a + 2 * i) 2) 0 2)

/-- The elements of a tensor whose area begins at an address; those of a block with M = 0 are not read (R46). -/
def elemsIn (cellar : Bool) (m : List Host.Cell) (a : Nat) (f : Fmt) (shape : List Nat) (axis block : Nat) (ws : List (BitVec 16)) :
    List Int :=
  let n := innerExt shape
  let b := memRead m a (areaSize cellar f shape)
  (List.range (prod shape)).map fun i =>
    if scaleM (ws.getD (blockAt shape axis block i) 0) = 0 then 0
    else elemAt cellar b f (i / max 1 n * rowSize cellar f n) (i % max 1 n)

/-- A tensor of a core's shelf. -/
def shelfTensor (m : List Host.Cell) (r : TRef) : Tensor :=
  let ws := scalesIn m r.scalesAt (if prod r.shape = 0 then 0 else blockCount r.shape r.axis r.block)
  ⟨r.fmt, r.shape, r.axis, r.block, ws, elemsIn false m r.elemsAt r.fmt r.shape r.axis r.block ws⟩

/-- New bytes, but for the bits of `keep`, which stay as they were. -/
def mergeBytes : List Byte → List Byte → List Byte → List Byte
  | x :: xs, k :: ks, o :: os => (x ||| (k &&& o)) :: mergeBytes xs ks os
  | _, _, _ => []

/-- A tensor's elements written at an address, row by row; the positions of blocks with M = 0 are not written (R46, R47). -/
def writeElems (cellar : Bool) (m : List Host.Cell) (a : Nat) (t : Tensor) : List Host.Cell :=
  let n := innerExt t.shape
  let skip (i : Nat) : Bool := scaleM (Tensor.word t i) == 0
  (List.range (prod t.shape.dropLast)).foldl (fun m r =>
    let at_ := a + r * rowSize cellar t.fmt n
    let ps := (List.range n).map fun j => r * n + j
    let new := rowBytes cellar t.fmt (ps.map (Tensor.el t))
    let keep := rowBytes cellar t.fmt (ps.map fun i => if skip i then -1 else 0)
    memWrite m at_ (mergeBytes new keep (memRead m at_ new.length))) m

/-- A tensor written into a memory: its scale words, its elements (R46, R47, R49). -/
def writeTensor (cellar : Bool) (m : List Host.Cell) (d : Dest) (t : Tensor) : List Host.Cell :=
  if prod t.shape = 0 then m else writeElems cellar (memWrite m d.scalesAt (scaleBytes t.scales)) d.elemsAt t

/-! ### Tensors as bytes of which some are not stored (R46) -/

/-- A row's bytes; none at a byte that holds only positions of blocks with M = 0, which is not written. A byte that holds others as well
holds 0 at those positions. -/
def rowCells (cellar : Bool) (t : Tensor) (r : Nat) : List (Option Byte) :=
  let n := innerExt t.shape
  let ps := (List.range n).map fun j => r * n + j
  let dead (i : Nat) : Bool := scaleM (Tensor.word t i) == 0
  let bytes (f : Nat → Int) : List Byte := rowBytes cellar t.fmt (ps.map f)
  (bytes (Tensor.el t)).zipWith (fun (b : Byte) (m : Byte × Byte) => if m.1 = 0 || !(m.2 == 0) then some b else none)
    ((bytes fun i => if dead i then -1 else 0).zip (bytes fun i => if dead i then 0 else -1))

/-- A tensor's element area. -/
def areaCells (cellar : Bool) (t : Tensor) : List (Option Byte) := (List.range (prod t.shape.dropLast)).flatMap (rowCells cellar t)

/-- Written bytes put over old ones. -/
def overCells (l : List (Option Byte)) (old : List Byte) : List Byte := l.zipWith (fun o b => o.getD b) old

/-- Some bytes written into a memory; those that are none stay as they are. -/
def cellsWrite (m : List Host.Cell) (a : Nat) (l : List (Option Byte)) : List Host.Cell := memWrite m a (overCells l (memRead m a l.length))

/-- How many of some items at the front satisfy `p`. -/
def frontLen {α : Type} (p : α → Bool) (l : List α) : Nat := (l.takeWhile p).length

/-- The runs of bytes that are written, with their offsets; `n` bounds how many. -/
def cellRuns : Nat → Nat → List (Option Byte) → List (Nat × List Byte)
  | 0, _, _ => []
  | n + 1, o, l =>
    let k := frontLen Option.isNone l
    let j := frontLen Option.isSome (l.drop k)
    if j = 0 then [] else (o + k, ((l.drop k).take j).map (·.getD 0)) :: cellRuns n (o + k + j) (l.drop (k + j))

/-- The 64-byte units that hold a byte to be written, up to 8 of them in a row as one piece; a piece ends with its last such byte. A WRITE
begins on a unit (R137): a byte between two that are written is sent as 0 (log 60). -/
def unitRuns : Nat → Nat → List (Option Byte) → List (Nat × List Byte)
  | 0, _, _ => []
  | n + 1, o, l =>
    if l.isEmpty then []
    else
      let live (i : Nat) : Bool := ((l.drop (64 * i)).take 64).any Option.isSome
      let k := frontLen live (List.range 8)
      if k = 0 then unitRuns n (o + 64) (l.drop 64)
      else
        let b := ((l.take (64 * k)).reverse.dropWhile Option.isNone).reverse
        (o, b.map (·.getD 0)) :: unitRuns n (o + 64 * k) (l.drop (64 * k))

/-- S48 partial sums of a split reduction written at an address, with no scale words: their scale is (1, Ered) (R109, R115). -/
def writeSums (m : List Host.Cell) (a : Nat) (l : List Int) : List Host.Cell :=
  memWrite m a (l.flatMap fun x => leBytes 8 (unsgn 64 x))

/-- `k` partial sums read back. -/
def readSums (m : List Host.Cell) (a k : Nat) : List Int :=
  (List.range k).map fun i => sgn 48 (rd (memRead m (a + 8 * i) 8) 0 8)

end Sys2Proof.Machine
end

