-- ==== Sys2Proof/Machine/Operators.lean ====
section
/-! DEFINITION. Machine/Operators.lean: the 28 operators of contract level 1 (R74 to R100). -/

namespace Sys2Proof.Machine

/-- What an operator leaves: its output tensors, the SCAN state it wrote, the next RESAMPLE output of a stream, whether a
window was short, what the output lane of each output of a reduction holds (R106), and the counts. -/
structure OpRes where
  outs  : List Tensor
  scan  : Option (Nat × List Int) := none
  next  : Option (Nat × Nat) := none
  short : Option Nat := none
  lanes : List Lane := []
  wk    : Wk
  deriving DecidableEq, Repr

/-- A result of one tensor. -/
def oneOut (r : Tensor × Wk) : OpRes := { outs := [r.1], wk := r.2 }

/-- What an operator reads of a stream (R93, R94, R182): format, channels, capture block length, scale word, and its frame's window;
`rows` marks a MESSAGE stream, whose rows vary in number (R66). -/
structure StreamIn where
  fmt    : Fmt
  chans  : Nat
  block  : Nat
  scale  : BitVec 16
  w      : Nat
  newest : Int
  rows   : Bool := false
  deriving DecidableEq, Repr, Inhabited

/-! ### Reductions (R52, R77 to R79) -/

/-- A contribution checked as it is carried to Ered (R108): the sum's residue, formed from those of the operands, the product *t*, the right
shift with its remainder or the clamp, and *u*. `clean` is the block sum that the operands' residues predict. -/
def contribution (k : Wk) (p i : Nat) (s clean : Int) (m : Nat) (e ered : Int) : Int × Wk :=
  let dt := upsetAt k p (.scaled i)
  let du := upsetAt k p (.contribution i)
  let u := carryTo (s * m + dt) e ered (Wk.check du (Wk.check dt (Wk.check (s - clean) k)))
  (u.1 + du, u.2)

/-- The block sum of block pair `i` of output `p`, the terms of one key, with the residue that stands beside it, and its contribution at
Ered (R51, R52, R108); a pair with M = 0 is skipped. -/
def pairSum (w x : Tensor) (ered : Int) (p : Nat) (e : Nat × List (Nat × Nat)) (k : Wk) : Option (Int × Nat × Int) × Wk :=
  match e.2 with
  | [] => (none, k)
  | t :: _ =>
    let ww := Tensor.word w t.1
    let xw := Tensor.word x t.2
    if scaleM ww = 0 || scaleM xw = 0 then (none, k)
    else
      let clean := (e.2.map fun t => Tensor.el w t.1 * Tensor.el x t.2).sum
      let hit (n : Nat) (t : Nat × Nat) : Int :=
        (Tensor.el w t.1 + upsetAt k p (.weight e.1 n)) * (Tensor.el x t.2 + upsetAt k p (.activation e.1 n)) + upsetAt k p (.product e.1 n)
      let s := if k.ups.isEmpty then clean
        else (((List.range e.2.length).zip e.2).map fun t => hit t.1 t.2).sum + upsetAt k p (.blockSum e.1)
      let u := contribution k p e.1 s clean (scaleM ww * scaleM xw) (scaleE ww + scaleE xw) ered
      (some (s, residue127 clean, u.1), u.2)

/-- The block pairs of a reduction over the products of some positions of the operands: positions that share both scale words'
blocks form one pair (R50). -/
def blockPairs (w x : Tensor) (terms : List (Nat × Nat)) : List (List (Nat × Nat)) :=
  let keyed := terms.map fun t => ((Tensor.blk w t.1, Tensor.blk x t.2), t)
  (keyed.map (·.1)).eraseDups.map fun b => (keyed.filter fun t => t.1 == b).map (·.2)

/-- The reduction of output `p` over some numbered block pairs in order, to which a bias adds one further contribution (R52, R77); answers
the output's lane: the last block sum and the accumulator, each with its residue (R106, R108). -/
def reduction (w x : Tensor) (bias : Option (Int × BitVec 16)) (ered : Int) (p : Nat) (ps : List (Nat × List (Nat × Nat))) (k : Wk) :
    Lane × Wk :=
  let us := mapWk (pairSum w x ered p) ps k
  let l := us.1.filterMap id
  let b : List Int × Wk := match bias with
    | none => ([], us.2)
    | some b => let u := liftW b.1 b.2 ered us.2; ([u.1], u.2)
  let a := sumSat (l.map (·.2.2) ++ b.1) b.2
  let last := l.getLast?.getD (0, 0, 0)
  (⟨last.1, last.2.1, a.1, residue127 a.1⟩, a.2)

/-- Numbered from 0. -/
def numbered {α : Type} (l : List α) : List (Nat × α) := (List.range l.length).zip l

/-- A reducing operator: its operands, Ered, output form and extents, and of each output position the terms and the bias. -/
structure Red where
  w     : Tensor
  x     : Tensor
  ered  : Int
  out   : OutSpec
  shape : List Nat
  empty : Bool
  terms : Nat → List (Nat × Nat)
  bias  : Nat → Option (Int × BitVec 16)

/-- A whole reducing operator (R70, R75). -/
def opRed (tun : Bool) (r : Red) (k : Wk) : OpRes :=
  if r.empty || prod r.shape = 0 then oneOut (emptyTensor r.out.fmt r.shape r.out.axis r.out.block, k)
  else
    let a := mapWk (fun p k => reduction r.w r.x (r.bias p) r.ered p (numbered (blockPairs r.w r.x (r.terms p))) k)
      (List.range (prod r.shape)) k
    let t := requantised tun r.out r.shape (a.1.map (·.acc)) a.2
    { outs := [t.1], lanes := a.1, wk := t.2 }

/-- A sliver's share of a split reduction (R114, R115): the block pairs `lo` to below `hi` of each output; the share with the last
pair adds the bias. -/
def redPart (r : Red) (lo hi : Nat) (k : Wk) : List Lane × Wk :=
  if r.empty then ([], k)
  else mapWk (fun p k =>
    let ps := numbered (blockPairs r.w r.x (r.terms p))
    reduction r.w r.x (if (lo = 0 ∨ lo < ps.length) ∧ ps.length ≤ hi then r.bias p else none) r.ered p ((ps.take hi).drop lo) k)
    (List.range (prod r.shape)) k

/-- One sliver's partial sums put in ascending place by sliver index. -/
def insertPart (x : Nat × List Int) : List (Nat × List Int) → List (Nat × List Int)
  | [] => [x]
  | y :: r => if x.1 < y.1 then x :: y :: r else y :: insertPart x r

/-- Partial sums combined in ascending sliver index, with sat48, and narrowed (R115). -/
def opCombine (tun : Bool) (shape : List Nat) (parts : List (Nat × List Int)) (o : OutSpec) (k : Wk) : OpRes :=
  let l := parts.foldl (fun l x => insertPart x l) []
  let a := mapWk (fun p k => sumSat (l.map fun x => x.2.getD p 0) k) (List.range (prod shape)) k
  let t := requantised tun o shape a.1 a.2
  { outs := [t.1], lanes := a.1.map fun v => ⟨0, 0, v, residue127 v⟩, wk := t.2 }

/-- The bias of an output channel. -/
def biasAt (b : Option Tensor) (n : Nat) : Option (Int × BitVec 16) := b.map fun t => Tensor.pair t n

/-- MATMUL (R77). -/
def matmulRed (w x : Tensor) (bias : Option Tensor) (ered : Int) (o : OutSpec) : Red :=
  let n := Tensor.ext w 0
  let kk := Tensor.ext w 1
  { w := w, x := x, ered := ered, out := o, shape := x.shape.dropLast ++ [n]
    empty := Tensor.count w == 0 || Tensor.count x == 0
    terms := fun p => (List.range kk).map fun j => (p % n * kk + j, p / n * kk + j)
    bias := fun p => biasAt bias (p % n) }

/-- The output length along a spatial axis (R78). -/
def outLen (a : Axis) (t : Nat) : Nat :=
  let have_ := t + a.padB + a.padA
  let need := a.dil * (a.kernel - 1) + 1
  if have_ < need then 0 else (have_ - need) / max 1 a.stride + 1

/-- All index lists below some bounds. -/
def indices : List Nat → List (List Nat)
  | [] => [[]]
  | n :: r => (List.range n).flatMap fun i => (indices r).map fun l => i :: l

/-- The input position of a tap along an axis, none where it is padding (R78). -/
def tapPos (a : Axis) (ext t j : Nat) : Option Nat :=
  let p := t * a.stride + j * a.dil
  if a.padB ≤ p ∧ p - a.padB < ext then some (p - a.padB) else none

/-- The input positions of a tap over all spatial axes. -/
def tapPoss : List Axis → List Nat → List Nat → List Nat → Option (List Nat)
  | a :: as, e :: es, t :: ts, j :: js =>
    match tapPos a e t j, tapPoss as es ts js with
    | some p, some r => some (p :: r)
    | _, _ => none
  | _, _, _, _ => some []

/-- A convolution over one or two spatial axes: the input is [batch, spatial.., channels], the weight [out, in, taps..], or
[out, taps..] for a depthwise one (R78, R79). -/
def convRed (depth : Bool) (w x : Tensor) (bias : Option Tensor) (axs : List Axis) (groups : Nat) (ered : Int) (o : OutSpec) : Red :=
  let sp := (x.shape.drop 1).take axs.length
  let chans := Tensor.ext x (axs.length + 1)
  let outs := Tensor.ext w 0
  let shape := Tensor.ext x 0 :: (axs.zip sp).map (fun e => outLen e.1 e.2) ++ [outs]
  let g := if depth then chans else max 1 groups
  let per := if depth then 1 else chans / g
  let taps := indices (axs.map (·.kernel))
  { w := w, x := x, ered := ered, out := o, shape := shape
    empty := Tensor.count w == 0 || Tensor.count x == 0
    terms := fun p =>
      let i := unflat shape p
      let oc := i.getLastD 0
      let grp := oc * g / outs
      let ts := (i.drop 1).take axs.length
      taps.flatMap fun js =>
        match tapPoss axs sp ts js with
        | none => []
        | some ps => (List.range per).map fun c =>
            (flatOf w.shape (if depth then oc :: js else oc :: c :: js),
             flatOf x.shape (i.headD 0 :: ps ++ [grp * per + c]))
    bias := fun p => biasAt bias ((unflat shape p).getLastD 0) }

/-! ### POOL (R80) -/

/-- The element of largest (or smallest) real value; the first of equals. -/
def bestOf (max_ : Bool) : List (Int × BitVec 16) → Int × BitVec 16
  | [] => (0, 0)
  | [e] => e
  | e :: r =>
    let b := bestOf max_ r
    if max_ then (if realOf e.1 e.2 < realOf b.1 b.2 then b else e)
    else if realOf b.1 b.2 < realOf e.1 e.2 then b else e

/-- POOL over the spatial axes of [batch, spatial.., channels]. A pool has no dilation. -/
def opPool (tun : Bool) (kind : PoolKind) (x : Tensor) (axs : List Axis) (ered : Int) (o : OutSpec) (k : Wk) : Tensor × Wk :=
  let axs := axs.map fun a => { a with dil := 1 }
  let sp := (x.shape.drop 1).take axs.length
  let shape := Tensor.ext x 0 :: (axs.zip sp).map (fun e => outLen e.1 e.2) ++ [Tensor.ext x (axs.length + 1)]
  let inside (p : Nat) : List Nat :=
    let i := unflat shape p
    (indices (axs.map (·.kernel))).filterMap fun js =>
      (tapPoss axs sp ((i.drop 1).take axs.length) js).map fun ps => flatOf x.shape (i.headD 0 :: ps ++ [i.getLastD 0])
  match kind with
  | .avg =>
    if Tensor.count x = 0 || prod shape = 0 then (emptyTensor o.fmt shape o.axis o.block, k)
    else
      let r := mapWk (fun p k =>
        let l := inside p
        let us := mapWk (fun n k => liftW (Tensor.el x n) (Tensor.word x n) ered k) l k
        let s := sumSat us.1 us.2
        (rneDiv s.1 (max 1 l.length : Nat), s.2)) (List.range (prod shape)) k
      requantised tun o shape r.1 r.2
  | .max =>
    if Tensor.count x = 0 then (emptyTensor x.fmt shape x.axis x.block, k)
    else (carried x.fmt shape x.axis x.block ((List.range (prod shape)).map fun p => bestOf true ((inside p).map (Tensor.pair x))), k)
  | .min =>
    if Tensor.count x = 0 then (emptyTensor x.fmt shape x.axis x.block, k)
    else (carried x.fmt shape x.axis x.block ((List.range (prod shape)).map fun p => bestOf false ((inside p).map (Tensor.pair x))), k)

/-! ### Element-wise operators (R67, R81 to R84, R100) -/

/-- The extents of an element-wise result: 1 repeats, and of differing outermost extents the smaller counts (R67, R81). -/
def castShape (a b : List Nat) : List Nat :=
  (a.zip b).map fun e => if e.1 = 1 then e.2 else if e.2 = 1 then e.1 else min e.1 e.2

/-- The position in an operand of a result's index. -/
def castPos (t : Tensor) (i : List Nat) : Nat :=
  flatOf t.shape ((t.shape.zip i).map fun e => if e.1 = 1 then 0 else e.2)

/-- A result formed element by element from lifted operands. -/
def eltwise (tun : Bool) (shape : List Nat) (empty : Bool) (o : OutSpec) (f : List Nat → Wk → Int × Wk) (k : Wk) : Tensor × Wk :=
  if empty || prod shape = 0 then (emptyTensor o.fmt shape o.axis o.block, k)
  else
    let r := mapWk (fun p k => f (unflat shape p) k) (List.range (prod shape)) k
    requantised tun o shape r.1 r.2

/-- An operand's element lifted to Ered. -/
def liftAt (t : Tensor) (i : List Nat) (ered : Int) (k : Wk) : Int × Wk :=
  liftW (Tensor.el t (castPos t i)) (Tensor.word t (castPos t i)) ered k

/-- ADD, SUB, MAX and MIN of two lifted values (R81). -/
def eltOp (op : EltOp) (a b : Int) (k : Wk) : Int × Wk :=
  match op with
  | .add => sat48 (a + b) k
  | .sub => sat48 (a - b) k
  | .max => (max a b, k)
  | .min => (min a b, k)

/-- ADD, SUB, MAX, MIN (R81). -/
def opElt (tun : Bool) (op : EltOp) (x y : Tensor) (ered : Int) (o : OutSpec) (k : Wk) : Tensor × Wk :=
  eltwise tun (castShape x.shape y.shape) (Tensor.count x == 0 || Tensor.count y == 0) o (fun i k =>
    let a := liftAt x i ered k
    let b := liftAt y i ered a.2
    eltOp op a.1 b.1 b.2) k

/-- MUL (R82). -/
def opMul (tun : Bool) (x y : Tensor) (ered : Int) (o : OutSpec) (k : Wk) : Tensor × Wk :=
  eltwise tun (castShape x.shape y.shape) (Tensor.count x == 0 || Tensor.count y == 0) o (fun i k =>
    let a := Tensor.pair x (castPos x i)
    let b := Tensor.pair y (castPos y i)
    lift (a.1 * b.1 * scaleM a.2 * scaleM b.2) 1 (scaleE a.2 + scaleE b.2) ered k) k

/-- SELECT (R81): the first operand where the condition is nonzero. -/
def opSelect (tun : Bool) (c x y : Tensor) (ered : Int) (o : OutSpec) (k : Wk) : Tensor × Wk :=
  eltwise tun (castShape c.shape (castShape x.shape y.shape))
    (Tensor.count c == 0 || Tensor.count x == 0 || Tensor.count y == 0) o (fun i k =>
    let a := liftAt x i ered k
    let b := liftAt y i ered a.2
    (if Tensor.el c (castPos c i) = 0 then b.1 else a.1, b.2)) k

/-- The elements of a tensor mapped one by one at the positions of `shape`, scale words kept; a block with M = 0 stays so
(R46, R71), and one whose elements all come to 0 is written as R47 says. `f` is given the index of the result. -/
def mapElems (x : Tensor) (fmt : Fmt) (shape : List Nat) (f : List Nat → Int → Wk → Int × Wk) (k : Wk) : Tensor × Wk :=
  if Tensor.count x = 0 || prod shape = 0 then (emptyTensor fmt shape x.axis x.block, k)
  else
    let from_ (p : Nat) : Nat := castPos x (unflat shape p)
    let r := mapWk (fun p k => if scaleM (Tensor.word x (from_ p)) = 0 then (0, k) else f (unflat shape p) (Tensor.el x (from_ p)) k)
      (List.range (prod shape)) k
    let ws := (blockPositions shape x.axis x.block).map fun ps =>
      let w := Tensor.word x (from_ (ps.headD 0))
      if scaleM w = 0 || ps.all fun p => r.1.getD p 0 == 0 then 0 else w
    (⟨fmt, shape, x.axis, x.block, ws, r.1⟩, r.2)

/-- SHIFT (R83): a constant count, or an S8 count for each element, of which an outermost extent that differs cuts the result (R67). -/
def opShift (tun : Bool) (x : Tensor) (count : Int) (per : Option Tensor) (m : Round) (k : Wk) : Tensor × Wk :=
  let shape := match per with
    | none => x.shape
    | some c => castShape x.shape c.shape
  if per.any fun c => Tensor.count c == 0 then (emptyTensor x.fmt shape x.axis x.block, k)
  else mapElems x x.fmt shape (fun i v k =>
    let c := clampInt (-47) 47 (match per with
      | none => count
      | some t => Tensor.el t (castPos t i))
    if 0 ≤ c then satTo (Fmt.lo x.fmt) (Fmt.hi x.fmt) (v * (2 : Int) ^ c.toNat) k
    else roundMode (if tun then .rne else m) v (-c).toNat k) k

/-- CAST (R100). -/
def opCast (x : Tensor) (fmt : Fmt) (k : Wk) : Tensor × Wk :=
  mapElems x fmt x.shape (fun _ v k => satTo (Fmt.lo fmt) (Fmt.hi fmt) v k) k

/-- The interpolation of LUT and SOFTMAX (R84, R86). -/
def interpolate (t : Nat → Int) (f p : Nat) : Int :=
  let i := p / 2 ^ f
  let r := p % 2 ^ f
  if i = 255 then t 255 * (2 : Int) ^ f else t i * (2 : Int) ^ f + (t (i + 1) - t i) * r

/-- LUT (R84). -/
def opLut (tun : Bool) (x : Tensor) (ez z0 : Int) (f : Nat) (table : List Int) (o : OutSpec) (k : Wk) : Tensor × Wk :=
  eltwise tun x.shape (Tensor.count x == 0) o (fun i k =>
    let z := liftAt x i ez k
    let p := (clampInt 0 (255 * (2 : Int) ^ f) (z.1 - z0)).toNat
    (interpolate (fun j => table.getD j 0) f p, z.2)) k

/-- REQUANT (R100). -/
def opRequant (tun : Bool) (x : Tensor) (ered : Int) (o : OutSpec) (k : Wk) : Tensor × Wk :=
  eltwise tun x.shape (Tensor.count x == 0) o (fun i k => liftAt x i ered k) k

/-! ### NORM and SOFTMAX (R85, R86) -/

/-- The runs along an axis: the positions of each, in order. -/
def runsOf (shape : List Nat) (axis : Nat) : List (List Nat) := blockPositions shape axis 0

/-- Values given by runs, put back in row-major order. -/
def unruns (n : Nat) (runs : List (List Nat)) (vals : List (List Int)) : List Int :=
  let cells := ((runs.zip vals).map fun e => e.1.zip e.2).flatten
  (List.range n).map fun i => ((cells.find? fun c => c.1 == i).map (·.2)).getD 0

/-- One run of NORM (R85). -/
def normRun (x : Tensor) (layer : Bool) (ez : Int) (eps : Nat) (gain off : Tensor) (ps : List Nat) (k : Wk) : List Int × Wk :=
  let gs := Tensor.word gain 0
  let z := mapWk (fun n k => let l := liftW (Tensor.el x n) (Tensor.word x n) ez k; satS24 l.1 l.2) ps k
  let mu := if layer then rneDiv z.1.sum (max 1 ps.length : Nat) else 0
  let c := z.1.map (· - mu)
  let v : Int := (c.map fun a => a * a).sum
  let r : Int := isqrt ((rneDiv v (max 1 ps.length : Nat)).toNat + eps)
  mapWk (fun (e : Nat × Int) k =>
    let y := if r = 0 then (0, k) else satS24 (rneDiv (e.2 * 2 ^ 15) r) k
    let b := liftW (Tensor.el off e.1) (Tensor.word off 0) (scaleE gs - 15) y.2
    sat48 (y.1 * Tensor.el gain e.1 * scaleM gs + b.1) b.2) ((List.range c.length).zip c) z.2

/-- NORM (R85). -/
def opNorm (tun : Bool) (x : Tensor) (axis : Nat) (layer : Bool) (ez : Int) (eps : Nat) (gain off : Tensor) (o : OutSpec) (k : Wk) :
    Tensor × Wk :=
  if Tensor.count x = 0 then (emptyTensor o.fmt x.shape o.axis o.block, k)
  else
    let runs := runsOf x.shape axis
    let r := mapWk (normRun x layer ez eps gain off) runs k
    requantised tun o x.shape (unruns (Tensor.count x) runs r.1) r.2

/-- One run of SOFTMAX (R86). -/
def softmaxRun (x : Tensor) (ez : Int) (f : Nat) (table : List Nat) (ps : List Nat) (k : Wk) : List Int × Wk :=
  let z := mapWk (fun n k => let l := liftW (Tensor.el x n) (Tensor.word x n) ez k; satS24 l.1 l.2) ps k
  let m := z.1.foldl max (z.1.headD 0)
  let e := z.1.map fun v => interpolate (fun j => table.getD j 0) f (min (m - v).toNat (255 * 2 ^ f))
  (e.map fun a => rneDiv (a * 2 ^ 30) e.sum, z.2)

/-- SOFTMAX (R86). -/
def opSoftmax (tun : Bool) (x : Tensor) (axis : Nat) (ez : Int) (f : Nat) (table : List Nat) (o : OutSpec) (k : Wk) : Tensor × Wk :=
  if Tensor.count x = 0 then (emptyTensor o.fmt x.shape o.axis o.block, k)
  else
    let runs := runsOf x.shape axis
    let r := mapWk (softmaxRun x ez f table) runs k
    requantised tun o x.shape (unruns (Tensor.count x) runs r.1) r.2

/-! ### SCAN (R87) -/

/-- One step of one channel (R87). -/
def scanStep (tun : Bool) (x : Tensor) (eh : Int) (a b : List Int) (bs : BitVec 16) (m : Round) (t c : Nat) (h : Int) (k : Wk) :
    Int × Wk :=
  let n := t * Tensor.ext x 1 + c
  let r := roundMode (if tun then .rne else m) (a.getD c 0 * h) 15 k
  let u := lift (b.getD c 0 * Tensor.el x n) (scaleM bs * scaleM (Tensor.word x n)) (scaleE bs + scaleE (Tensor.word x n)) eh r.2
  satS24 (r.1 + u.1) u.2

/-- The time steps from `t` on; states after each step, in order. -/
def scanRun (step : Nat → Nat → Int → Wk → Int × Wk) (chans : Nat) : Nat → Nat → List Int → Wk → List (List Int) × Wk
  | 0, _, _, k => ([], k)
  | n + 1, t, h, k =>
    let r := mapWk (fun c k => step t c (h.getD c 0) k) (List.range chans) k
    let q := scanRun step chans n (t + 1) r.1 r.2
    (r.1 :: q.1, q.2)

/-- SCAN over a tensor of shape [T, C] from a state (R87). -/
def opScan (tun : Bool) (x : Tensor) (stream : Nat) (h : List Int) (eh : Int) (a b : List Int) (bs : BitVec 16) (m : Round)
    (o : OutSpec) (k : Wk) : OpRes :=
  if Tensor.count x = 0 then oneOut (emptyTensor o.fmt x.shape o.axis o.block, k)
  else
    let r := scanRun (scanStep tun x eh a b bs m) (Tensor.ext x 1) (Tensor.ext x 0) 0 h k
    let t := requantised tun o x.shape r.1.flatten r.2
    { outs := [t.1], scan := some (stream, r.1.getLastD h), wk := t.2 }

/-! ### FFT (R90 to R92) -/

/-- Pi in units of 2^-120, rounded down. -/
def piFix : Nat := 4175892906503776358826876457663557747

/-- The terms of a Taylor series: the first term, then each times `y` / ((i+1)(i+2)) with alternating sign. -/
def taylor (y : Nat) : Nat → Nat → Nat → Int
  | 0, _, _ => 0
  | n + 1, i, t => (t : Int) - taylor y n (i + 2) (t * y / 2 ^ 120 / ((i + 1) * (i + 2)))

/-- cos and sin of `2 pi k / n`, in units of 2^-120; `k` is below a quarter of `n`. -/
def cosSin (k n : Nat) : Int × Int :=
  let a := 2 * piFix * k / n
  let y := a * a / 2 ^ 120
  (taylor y 24 0 (2 ^ 120), taylor y 24 1 a)

/-- A twiddle part: rne(2^15 x), clamped (R91). -/
def twPart (x : Int) : Int := clampInt (-32767) 32767 (rneShift x 105)

/-- W^k for a span `n` (R91): exp(-2 pi i k / n), its conjugate for the inverse transform; W^0 is exactly 2^15. -/
def twiddle (inverse : Bool) (k n : Nat) : Int × Int :=
  let k := k % max 1 n
  if k = 0 then (2 ^ 15, 0)
  else
    let q := 4 * k / n
    let c := cosSin (4 * k % n) (4 * n)
    let cs : Int × Int :=
      if q = 0 then c else if q = 1 then (-c.2, c.1) else if q = 2 then (-c.1, -c.2) else (c.2, -c.1)
    (twPart cs.1, twPart (if inverse then cs.2 else -cs.2))

/-- Complex sum. -/
def cadd (a b : Int × Int) : Int × Int := (a.1 + b.1, a.2 + b.2)

/-- Complex product. -/
def cmul (a b : Int × Int) : Int × Int := (a.1 * b.1 - a.2 * b.2, a.1 * b.2 + a.2 * b.1)

/-- Times -j, or j for the inverse transform. -/
def turn (inverse : Bool) (a : Int × Int) : Int × Int := if inverse then (-a.2, a.1) else (a.2, -a.1)

/-- Complex negation. -/
def cneg (a : Int × Int) : Int × Int := (-a.1, -a.2)

/-- A sub-transform in progress: the first bin it gives, their spacing, its data. -/
structure SubFft where
  bin  : Nat
  step : Nat
  data : List (Int × Int)
  deriving DecidableEq, Repr

/-- One radix-4 decimation-in-frequency stage of a sub-transform, at a scale of 2^15 (R91). -/
def radix4 (inverse : Bool) (f : SubFft) : List SubFft :=
  let n := f.data.length
  let m := n / 4
  let out (q : Nat) : SubFft := ⟨f.bin + q * f.step, 4 * f.step, (List.range m).map fun k =>
    let a (i : Nat) : Int × Int := f.data.getD (k + i * m) (0, 0)
    let b :=
      if q = 0 then cadd (cadd (a 0) (a 1)) (cadd (a 2) (a 3))
      else if q = 1 then cadd (cadd (a 0) (turn inverse (a 1))) (cneg (cadd (a 2) (turn inverse (a 3))))
      else if q = 2 then cadd (cadd (a 0) (cneg (a 1))) (cadd (a 2) (cneg (a 3)))
      else cadd (cadd (a 0) (cneg (turn inverse (a 1)))) (cadd (cneg (a 2)) (turn inverse (a 3)))
    cmul b (twiddle inverse (q * k) n)⟩
  [out 0, out 1, out 2, out 3]

/-- One radix-2 stage of a sub-transform, at a scale of 2^15 (R91). -/
def radix2 (inverse : Bool) (f : SubFft) : List SubFft :=
  let n := f.data.length
  let m := n / 2
  let out (q : Nat) : SubFft := ⟨f.bin + q * f.step, 2 * f.step, (List.range m).map fun k =>
    let a (i : Nat) : Int × Int := f.data.getD (k + i * m) (0, 0)
    cmul (if q = 0 then cadd (a 0) (a 1) else cadd (a 0) (cneg (a 1))) (twiddle inverse (q * k) n)⟩
  [out 0, out 1]

/-- The requantisation that ends a stage: the whole transform is one block (R92). -/
def fftNarrow (m : Nat) (eb : Int) (emax : Nat) (r : Round) (fs : List SubFft) (k : Wk) : (Int × BitVec 16 × List SubFft) × Wk :=
  let o : OutSpec := ⟨.s24, 1, 15, r, true, m, eb, emax, 0, 0⟩
  let vals := (fs.map fun f => (f.data.map fun c => [c.1, c.2]).flatten).flatten
  let b := narrowBlock o r vals k
  let e := min 63 (eb + stepOf o vals)
  let n := (fs.headD ⟨0, 1, []⟩).data.length
  ((e, b.1.1, (List.range fs.length).map fun i =>
    let f := fs.getD i ⟨0, 1, []⟩
    { f with data := (List.range n).map fun j => (b.1.2.getD (2 * (i * n + j)) 0, b.1.2.getD (2 * (i * n + j) + 1) 0) }), b.2)

/-- The stages of a transform (R91, R92); `n` bounds how many. -/
def fftStages (inverse : Bool) (m emax : Nat) (r : Round) : Nat → Int → BitVec 16 → List SubFft → Wk → (BitVec 16 × List SubFft) × Wk
  | 0, _, w, fs, k => ((w, fs), k)
  | n + 1, eb, w, fs, k =>
    let len := (fs.headD ⟨0, 1, []⟩).data.length
    if len ≤ 1 then ((w, fs), k)
    else
      let q := fftNarrow m eb emax r (fs.flatMap (if 4 ≤ len then radix4 inverse else radix2 inverse)) k
      fftStages inverse m emax r n q.1.1 q.1.2.1 q.1.2.2 q.2

/-- One transform: its scale word and its 2N interleaved parts in natural order. -/
def fftRun (cplx inverse : Bool) (emax : Nat) (r : Round) (l : List (Int × BitVec 16)) (k : Wk) : (BitVec 16 × List Int) × Wk :=
  let b := carryBlock l
  let data : List (Int × Int) :=
    if cplx then (List.range (b.2.length / 2)).map fun i => (b.2.getD (2 * i) 0, b.2.getD (2 * i + 1) 0)
    else b.2.map fun x => (x, 0)
  if scaleM b.1 = 0 then ((0, List.replicate (2 * data.length) 0), k)
  else
    let q := fftStages inverse (scaleM b.1) emax r 16 (scaleE b.1) b.1 [⟨0, 1, data⟩] k
    let bins := q.1.2.map fun f => (f.bin, f.data.headD (0, 0))
    ((q.1.1, (List.range data.length).flatMap fun i =>
      let c := ((bins.find? fun e => e.1 == i).map (·.2)).getD (0, 0)
      [c.1, c.2]), q.2)

/-- The runs of a complex tensor along an axis, re and im of each point together: they interleave along the innermost axis (R90). -/
def complexRuns (shape : List Nat) (axis : Nat) : List (List Nat) :=
  let l := shape.length - 1
  if axis = l then runsOf shape axis
  else
    let half := shape.set l (shape.getD l 0 / 2)
    (runsOf half axis).map fun ps => ps.flatMap fun p =>
      let i := unflat half p
      let at_ := flatOf shape (i.set l (2 * i.getD l 0))
      [at_, at_ + 1]

/-- FFT along an axis (R90): complex S24 output, re and im along the innermost axis, every element of a transform under its one
scale word. DESIGN CHOICE: along an axis that is not the innermost, the 2N elements of a transform lie in two runs of that axis, re and im,
and R43 cuts blocks along one axis; the tensor then has two blocks for a transform, which carry the same word (log 82). -/
def opFft (tun : Bool) (x : Tensor) (axis : Nat) (cplx inverse : Bool) (emax : Nat) (r : Round) (k : Wk) : Tensor × Wk :=
  let l := x.shape.length - 1
  let shape := if cplx then x.shape else x.shape.set l (2 * Tensor.ext x l)
  if Tensor.count x = 0 then (emptyTensor .s24 shape axis 0, k)
  else
    let q := mapWk (fun ps k => fftRun cplx inverse emax (if tun then .rne else r) (ps.map (Tensor.pair x)) k)
      (if cplx then complexRuns x.shape axis else runsOf x.shape axis) k
    let cells := ((complexRuns shape axis).zip q.1).flatMap fun e => (e.1.zip e.2.2).map fun c => (c.1, c.2, e.2.1)
    let cell (n : Nat) : Int × BitVec 16 := ((cells.find? fun c => c.1 == n).map (·.2)).getD (0, 0)
    (⟨.s24, shape, axis, 0, (blockPositions shape axis 0).map fun ps => (cell (ps.headD 0)).2,
      (List.range (prod shape)).map fun n => (cell n).1⟩, q.2)

/-! ### WINDOW and RESAMPLE over a stream (R93, R94)

`samp a ch` is sample `a` of channel `ch` of the stream with its scale word, and whether the ring holds it for the frame. -/

/-- The `w` absolute numbers of a window, oldest first. -/
def windowSpan (w : Nat) (newest : Int) : List Int := (List.range w).map fun (i : Nat) => newest - (w : Int) + 1 + (i : Int)

/-- WINDOW (R94): shape [C, W], whole-window blocks. DESIGN CHOICE: a position that is missing counts with the stream's scale word
(log 60); the rows of a MESSAGE stream, which vary in number, are the outermost extent, [n, C], one block each (R66; log 69). -/
def opWindow (c : StreamIn) (stream : Nat) (samp : Int → Nat → Int × BitVec 16 × Bool) (k : Wk) : OpRes :=
  let span := windowSpan c.w c.newest
  let one (a : Int) (ch : Nat) : Int × BitVec 16 :=
    let v := samp a ch
    if v.2.2 then (v.1, v.2.1) else (0, c.scale)
  if c.rows then
    { outs := [carried c.fmt [c.w, c.chans] 1 0 (span.flatMap fun a => (List.range c.chans).map fun ch => one a ch)], wk := k }
  else
    { outs := [carried c.fmt [c.chans, c.w] 1 0 ((List.range c.chans).flatMap fun ch => span.map fun a => one a ch)]
      short := if span.any fun a => (List.range c.chans).any fun ch => !(samp a ch).2.2 then some stream else none
      wk := k }

/-- The taps as a tensor of one block. -/
def tapTensor (taps : List Int) (ts : BitVec 16) : Tensor := ⟨.s16, [taps.length], 0, 0, [ts], taps⟩

/-- RESAMPLE of a tensor along its innermost axis (R93). -/
def resampleRed (x : Tensor) (d : Nat) (taps : List Int) (ts : BitVec 16) (ered : Int) (o : OutSpec) : Red :=
  let ax := x.shape.length - 1
  let n := Tensor.ext x ax
  let len := ceilDiv n d
  { w := x, x := tapTensor taps ts, ered := ered, out := o, shape := x.shape.set ax len, empty := Tensor.count x == 0
    terms := fun p =>
      let at_ := p % len * d
      (List.range taps.length).filterMap fun j => if j ≤ at_ ∧ at_ - j < n then some (p / len * n + (at_ - j), j) else none
    bias := fun _ => none }

/-- The output numbers `m` for which `m × d` falls in a window (R93). -/
def resampleOuts (c : StreamIn) (d : Nat) : List Nat :=
  let first := c.newest - (c.w : Int) + 1
  (List.range (c.newest.toNat / max 1 d + 1)).filter fun (m : Nat) => decide (first ≤ ((m * d : Nat) : Int)) && decide (((m * d : Nat) : Int) ≤ c.newest)

/-- The samples `lo` to below `lo + n` of a stream as a tensor [C, n]. DESIGN CHOICE: each capture block, of `c.block` samples, is one
scale block; `lo` begins one (log 60). -/
def sampleTensor (c : StreamIn) (samp : Int → Nat → Int × BitVec 16 × Bool) (lo n : Nat) : Tensor :=
  carried c.fmt [c.chans, n] 1 c.block ((List.range c.chans).flatMap fun ch => (List.range n).map fun (i : Nat) =>
    let v := samp ((lo + i : Nat) : Int) ch
    if v.2.2 then (v.1, v.2.1) else (0, c.scale))

/-- RESAMPLE from a stream (R93): every `m` for which `m × d` falls in the frame's window, one row a channel; positions before the
stream's first sample are 0. -/
def resampleStream (c : StreamIn) (samp : Int → Nat → Int × BitVec 16 × Bool) (d : Nat) (taps : List Int) (ts : BitVec 16)
    (ered : Int) (o : OutSpec) : Red :=
  let ms := resampleOuts c d
  let lo := (ms.headD 0 * d + 1 - taps.length) / max 1 c.block * max 1 c.block
  let n := c.newest.toNat + 1 - lo
  { w := sampleTensor c samp lo n, x := tapTensor taps ts, ered := ered, out := o, shape := [c.chans, ms.length]
    empty := ms.isEmpty
    terms := fun p =>
      let at_ := ms.getD (p % max 1 ms.length) 0 * d
      (List.range taps.length).filterMap fun j => if j ≤ at_ then some (p / max 1 ms.length * n + (at_ - j - lo), j) else none
    bias := fun _ => none }

/-! ### Data movement (R95 to R98), TOPK and REDUCE (R99) -/

/-- CONCAT (R95, R76), with the scale axis and block that the layout declares for the output. -/
def opConcat (xs : List Tensor) (axis oaxis oblock : Nat) : Tensor :=
  let t := xs.headD default
  let shape := t.shape.set axis ((xs.map fun u => Tensor.ext u axis).sum)
  match xs.filter fun t => !(Tensor.count t == 0) with
  | [] => emptyTensor t.fmt shape oaxis oblock
  | t :: r =>
    let l := t :: r
    let shape := t.shape.set axis ((l.map fun u => Tensor.ext u axis).sum)
    let pick := (l.map fun u => (List.range (Tensor.ext u axis)).map fun i => (u, i)).flatten
    carried t.fmt shape oaxis oblock ((List.range (prod shape)).map fun p =>
      let i := unflat shape p
      let e := pick.getD (i.getD axis 0) (t, 0)
      Tensor.pair e.1 (flatOf e.1.shape (i.set axis e.2)))

/-- The positions `from_`, `from_ + step` and so on, below `to`. -/
def cutRange (from_ upTo step : Nat) : List Nat :=
  (List.range (ceilDiv (upTo - from_) (max 1 step))).map fun i => from_ + i * max 1 step

/-- Some positions kept along each axis. -/
def takePositions (x : Tensor) (keep : List (List Nat)) (oaxis oblock : Nat) : Tensor :=
  let shape := keep.map (·.length)
  if Tensor.count x = 0 then emptyTensor x.fmt shape oaxis oblock
  else carried x.fmt shape oaxis oblock ((List.range (prod shape)).map fun p =>
    Tensor.pair x (flatOf x.shape ((keep.zip (unflat shape p)).map fun e => e.1.getD e.2 0)))

/-- SPLIT (R95). -/
def opSplit (x : Tensor) (axis : Nat) (sizes : List Nat) (oaxis oblock : Nat) : List Tensor :=
  (List.range sizes.length).map fun i =>
    let from_ := (sizes.take i).sum
    takePositions x ((List.range x.shape.length).map fun a =>
      if a = axis then cutRange from_ (from_ + sizes.getD i 0) 1 else List.range (Tensor.ext x a)) oaxis oblock

/-- The positions that SLICE keeps along each axis: each cut gives axis, start, end and step (R95). -/
def sliceKeep (x : Tensor) (cuts : List (Nat × Nat × Nat × Nat)) : List (List Nat) :=
  (List.range x.shape.length).map fun a =>
    match cuts.find? fun c => c.1 == a with
    | some c => cutRange c.2.1 (min c.2.2.1 (Tensor.ext x a)) c.2.2.2
    | none => List.range (Tensor.ext x a)

/-- SLICE (R95). -/
def opSlice (x : Tensor) (cuts : List (Nat × Nat × Nat × Nat)) (oaxis oblock : Nat) : Tensor :=
  takePositions x (sliceKeep x cuts) oaxis oblock

/-- The row of a table that an index takes, clamped to the table with a count (R96). -/
def gatherRow (t : Tensor) (i : Int) (k : Wk) : Int × Wk := satTo 0 ((Tensor.ext t 0 : Int) - 1) i k

/-- GATHER (R96). -/
def opGather (t idx : Tensor) (oaxis oblock : Nat) (k : Wk) : Tensor × Wk :=
  let n := Tensor.count idx
  let shape := n :: t.shape.drop 1
  if Tensor.count t = 0 || n = 0 then (emptyTensor t.fmt shape oaxis oblock, k)
  else
    let r := mapWk (fun j k => gatherRow t (Tensor.el idx j) k) (List.range n) k
    let row := prod (t.shape.drop 1)
    (carried t.fmt shape oaxis oblock ((List.range (prod shape)).map fun p =>
      Tensor.pair t ((r.1.getD (p / max 1 row) 0).toNat * row + p % max 1 row)), r.2)

/-- TRANSPOSE (R97). -/
def opTranspose (x : Tensor) (perm : List Nat) : Tensor :=
  let shape := perm.map fun a => Tensor.ext x a
  let back (i : List Nat) : List Nat := (List.range x.shape.length).map fun a => i.getD (perm.idxOf a) 0
  carried x.fmt shape (perm.idxOf x.axis) x.block ((List.range (prod shape)).map fun p =>
    Tensor.pair x (flatOf x.shape (back (unflat shape p))))

/-- An insertion in descending order of real value, after its equals (R98). -/
def insertBest (e : Nat × Int × BitVec 16) : List (Nat × Int × BitVec 16) → List (Nat × Int × BitVec 16)
  | [] => [e]
  | f :: r => if realOf f.2.1 f.2.2 < realOf e.2.1 e.2.2 then e :: f :: r else f :: insertBest e r

/-- An index as TOPK writes it. One above 65,535 in U16 indices has no result that the spec states: it is a free value (log 83). -/
def topkIndex (f : Fmt) (i : Nat) : Int := if f = .u16 ∧ 65535 < i then ((Config.topkIndex i).toNat : Int) else i

/-- TOPK: values and indices (R98). -/
def opTopk (x : Tensor) (axis k : Nat) (idxFmt : Fmt) : List Tensor :=
  let n := min k (Tensor.ext x axis)
  let shape := x.shape.set axis n
  if Tensor.count x = 0 then [emptyTensor x.fmt shape axis 0, emptyTensor idxFmt shape axis 0]
  else
    let best := (runsOf x.shape axis).map fun ps =>
      (((List.range ps.length).map fun i => (i, Tensor.pair x (ps.getD i 0))).foldl (fun l e => insertBest e l) []).take n
    [assemble x.fmt shape axis 0 (best.map fun l => carryBlock (l.map (·.2))),
     assemble idxFmt shape axis 0 (best.map fun l => (0x0100, l.map fun e => topkIndex idxFmt e.1))]

/-- REDUCE (R99): each reduced axis keeps extent 1. -/
def opReduce (tun : Bool) (kind : RedKind) (x : Tensor) (axes : List Nat) (ered : Int) (o : OutSpec) (k : Wk) : Tensor × Wk :=
  let shape := (List.range x.shape.length).map fun a => if a ∈ axes then 1 else Tensor.ext x a
  if Tensor.count x = 0 then (emptyTensor o.fmt shape o.axis o.block, k)
  else
    let home (n : Nat) : Nat := flatOf shape ((shape.zip (unflat x.shape n)).map fun e => if e.1 = 1 then 0 else e.2)
    let all := (List.range (Tensor.count x)).map fun n => (home n, n)
    let r := mapWk (fun p k =>
      let l := (all.filter fun e => e.1 == p).map (·.2)
      let us := mapWk (fun n k => liftW (Tensor.el x n) (Tensor.word x n) ered k) l k
      match kind with
      | .sum => sumSat us.1 us.2
      | .mean => let s := sumSat us.1 us.2; (rneDiv s.1 (max 1 l.length : Nat), s.2)
      | .max => (us.1.foldl max (us.1.headD 0), us.2)
      | .min => (us.1.foldl min (us.1.headD 0), us.2)) (List.range (prod shape)) k
    requantised tun o shape r.1 r.2

/-! ### T2 codes read (R38) -/

/-- The positions of an operand that an element-wise operator uses for a result of some extents: where the outermost extents differ, those
within the smaller one (R67). -/
def castReads (t : Tensor) (shape : List Nat) : List Nat :=
  if prod shape = 0 then [] else (List.range (Tensor.count t)).filter fun n => decide ((unflat t.shape n).headD 0 < shape.headD 1)

/-- The T2 operands of an operator with the positions it reads; none where the result holds no elements (R75). DESIGN CHOICE: an operator
reads each element of an operand once (log 61). -/
def t2Reads (op : Operator Tensor) : List (Tensor × List Nat) :=
  let all (t : Tensor) : Tensor × List Nat := (t, List.range (Tensor.count t))
  let red (r : Red) : List (Tensor × List Nat) := if r.empty || prod r.shape = 0 then [] else [all r.w]
  match op with
  | .matmul w x b e o => red (matmulRed w x b e o)
  | .conv1d w x b a g e o => red (convRed false w x b [a] g e o)
  | .conv2d w x b ah aw g e o => red (convRed false w x b [ah, aw] g e o)
  | .dwconv w x b axs _ e o => red (convRed true w x b axs 1 e o)
  | .mul x y _ _ => [(x, castReads x (castShape x.shape y.shape))]
  | .requant x _ _ => [all x]
  | .cast x _ => [all x]
  | .concat xs _ _ _ => xs.map all
  | .split x _ _ _ _ => [all x]
  | .slice x cuts _ _ =>
    let keep := sliceKeep x cuts
    let shape := keep.map (·.length)
    [(x, (List.range (prod shape)).map fun p => flatOf x.shape ((keep.zip (unflat shape p)).map fun e => e.1.getD e.2 0))]
  | .gather t idx _ _ =>
    let row := prod (t.shape.drop 1)
    [(t, (List.range (Tensor.count idx)).flatMap fun j =>
      let r := (clampInt 0 ((Tensor.ext t 0 : Int) - 1) (Tensor.el idx j)).toNat
      (List.range row).map fun i => r * row + i)]
  | .transpose x _ => [all x]
  | .select c x y _ _ => [(c, castReads c (castShape c.shape (castShape x.shape y.shape)))]
  | _ => []

/-- T2 codes 0b10 that an operator reads; the elements of a block with M = 0 are not read (R38, R46). -/
def t2Count (op : Operator Tensor) : Nat :=
  ((t2Reads op).map fun e => (e.2.filter fun n => t2Bad e.1.fmt (e.1.elems.getD n 0) && !(scaleM (Tensor.word e.1 n) == 0)).length).sum

/-- The samples of a stream that an operator reads: stream, absolute numbers (R93, R94). -/
def streamReads (inp : Nat → StreamIn) (op : Operator Tensor) : Option (Nat × List Int) :=
  match op with
  | .window st => some (st, windowSpan (inp st).w (inp st).newest)
  | .resample none st d taps _ _ _ =>
    (resampleOuts (inp st) d).head?.map fun m =>
      let lo : Int := (m * d : Nat) + 1 - (taps.length : Int)
      (st, (List.range ((inp st).newest + 1 - lo).toNat).map fun (i : Nat) => lo + (i : Int))
  | _ => none

/-! ### The table of R74 -/

/-- The operator code of R74. -/
def opCode {T : Type} (op : Operator T) : Nat :=
  match op with
  | .matmul .. => 0x01
  | .conv1d .. => 0x02
  | .conv2d .. => 0x03
  | .dwconv .. => 0x04
  | .pool .. => 0x05
  | .elt .add .. => 0x06
  | .elt .sub .. => 0x07
  | .mul .. => 0x08
  | .elt .max .. => 0x09
  | .elt .min .. => 0x0A
  | .shift .. => 0x0B
  | .lut .. => 0x0C
  | .norm .. => 0x0D
  | .softmax .. => 0x0E
  | .scan .. => 0x0F
  | .fft .. => 0x10
  | .resample .. => 0x11
  | .window .. => 0x12
  | .requant .. => 0x13
  | .cast .. => 0x14
  | .concat .. => 0x15
  | .split .. => 0x16
  | .slice .. => 0x17
  | .gather .. => 0x18
  | .transpose .. => 0x19
  | .topk .. => 0x1A
  | .reduce .. => 0x1B
  | .select .. => 0x1C

/-- An operator with its operands found by `f`. -/
def mapOperands {T U : Type} (f : T → U) (op : Operator T) : Operator U :=
  match op with
  | .matmul w x b e o => .matmul (f w) (f x) (b.map f) e o
  | .conv1d w x b a g e o => .conv1d (f w) (f x) (b.map f) a g e o
  | .conv2d w x b h a g e o => .conv2d (f w) (f x) (b.map f) h a g e o
  | .dwconv w x b a m e o => .dwconv (f w) (f x) (b.map f) a m e o
  | .pool k x a e o => .pool k (f x) a e o
  | .elt k x y e o => .elt k (f x) (f y) e o
  | .mul x y e o => .mul (f x) (f y) e o
  | .shift x c p r => .shift (f x) c (p.map f) r
  | .lut x ez z0 n t et o => .lut (f x) ez z0 n t et o
  | .norm x a l ez eps g b o => .norm (f x) a l ez eps (f g) (f b) o
  | .softmax x a ez n t o => .softmax (f x) a ez n t o
  | .scan x st eh a b bs r o => .scan (f x) st eh a b bs r o
  | .fft x a c i m r => .fft (f x) a c i m r
  | .resample x st d t ts e o => .resample (x.map f) st d t ts e o
  | .window st => .window st
  | .requant x e o => .requant (f x) e o
  | .cast x g => .cast (f x) g
  | .concat xs a oa ob => .concat (xs.map f) a oa ob
  | .split x a sz oa ob => .split (f x) a sz oa ob
  | .slice x c oa ob => .slice (f x) c oa ob
  | .gather t i oa ob => .gather (f t) (f i) oa ob
  | .transpose x p => .transpose (f x) p
  | .topk x a k g => .topk (f x) a k g
  | .reduce k x a e o => .reduce k (f x) a e o
  | .select c x y e o => .select (f c) (f x) (f y) e o

/-- Some operand satisfies `p`. -/
def anyOperand {T : Type} (p : T → Bool) (op : Operator T) : Bool :=
  match op with
  | .matmul w x b _ _ => p w || p x || b.any p
  | .conv1d w x b _ _ _ _ => p w || p x || b.any p
  | .conv2d w x b _ _ _ _ _ => p w || p x || b.any p
  | .dwconv w x b _ _ _ _ => p w || p x || b.any p
  | .pool _ x _ _ _ => p x
  | .elt _ x y _ _ => p x || p y
  | .mul x y _ _ => p x || p y
  | .shift x _ q _ => p x || q.any p
  | .lut x _ _ _ _ _ _ => p x
  | .norm x _ _ _ _ g b _ => p x || p g || p b
  | .softmax x _ _ _ _ _ => p x
  | .scan x _ _ _ _ _ _ _ => p x
  | .fft x _ _ _ _ _ => p x
  | .resample x _ _ _ _ _ _ => x.any p
  | .window _ => false
  | .requant x _ _ => p x
  | .cast x _ => p x
  | .concat xs _ _ _ => xs.any p
  | .split x _ _ _ _ => p x
  | .slice x _ _ _ => p x
  | .gather t i _ _ => p t || p i
  | .transpose x _ => p x
  | .topk x _ _ _ => p x
  | .reduce _ x _ _ _ => p x
  | .select c x y _ _ => p c || p x || p y

/-- The reduction that an operator is, where its work can be split among slivers (R114). -/
def redOf (inp : Nat → StreamIn) (samp : Nat → Int → Nat → Int × BitVec 16 × Bool) (op : Operator Tensor) : Option Red :=
  match op with
  | .matmul w x b e o => some (matmulRed w x b e o)
  | .conv1d w x b a g e o => some (convRed false w x b [a] g e o)
  | .conv2d w x b ah aw g e o => some (convRed false w x b [ah, aw] g e o)
  | .dwconv w x b axs _ e o => some (convRed true w x b axs 1 e o)
  | .resample (some x) _ d t ts e o => some (resampleRed x d t ts e o)
  | .resample none st d t ts e o => some (resampleStream (inp st) (samp st) d t ts e o)
  | _ => none

/-- One operator. `inp` says what it reads of a stream, `samp` its samples, `state` the SCAN state that the frame goes on from. -/
def evalOp (tun : Bool) (inp : Nat → StreamIn) (samp : Nat → Int → Nat → Int × BitVec 16 × Bool) (state : Nat → List Int)
    (op : Operator Tensor) (k : Wk) : OpRes :=
  match op with
  | .matmul w x b e o => opRed tun (matmulRed w x b e o) k
  | .conv1d w x b a g e o => opRed tun (convRed false w x b [a] g e o) k
  | .conv2d w x b ah aw g e o => opRed tun (convRed false w x b [ah, aw] g e o) k
  | .dwconv w x b axs _ e o => opRed tun (convRed true w x b axs 1 e o) k
  | .pool p x axs e o => oneOut (opPool tun p x axs e o k)
  | .elt p x y e o => oneOut (opElt tun p x y e o k)
  | .mul x y e o => oneOut (opMul tun x y e o k)
  | .shift x c p r => oneOut (opShift tun x c p r k)
  | .lut x ez z0 f t _ o => oneOut (opLut tun x ez z0 f t o k)
  | .norm x ax l ez eps g f o => oneOut (opNorm tun x ax l ez eps g f o k)
  | .softmax x ax ez f t o => oneOut (opSoftmax tun x ax ez f t o k)
  | .scan x st eh a b bs r o => opScan tun x st (state st) eh a b bs r o k
  | .fft x a c i m r => oneOut (opFft tun x a c i m r k)
  | .resample (some x) _ d t ts e o => opRed tun (resampleRed x d t ts e o) k
  | .resample none st d t ts e o =>
    let r := opRed tun (resampleStream (inp st) (samp st) d t ts e o) k
    let span := windowSpan (inp st).w (inp st).newest
    { r with
      next := (resampleOuts (inp st) d).getLast?.map fun m => (st, m + 1)
      short := if span.any fun a => (List.range (inp st).chans).any fun ch => !(samp st a ch).2.2 then some st else none }
  | .window st => opWindow (inp st) st (samp st) k
  | .requant x e o => oneOut (opRequant tun x e o k)
  | .cast x f => oneOut (opCast x f k)
  | .concat xs a oa ob => { outs := [opConcat xs a oa ob], wk := k }
  | .split x a sz oa ob => { outs := opSplit x a sz oa ob, wk := k }
  | .slice x c oa ob => { outs := [opSlice x c oa ob], wk := k }
  | .gather t i oa ob => oneOut (opGather t i oa ob k)
  | .transpose x p => { outs := [opTranspose x p], wk := k }
  | .topk x a n f => { outs := opTopk x a n f, wk := k }
  | .reduce p x as e o => oneOut (opReduce tun p x as e o k)
  | .select c x y e o => oneOut (opSelect tun c x y e o k)

end Sys2Proof.Machine
end

