-- ==== Sys2Proof/Machine/Icu.lean ====
section
/-! DEFINITION. Machine/Icu.lean: the interrupt controller (R328 to R346). -/

namespace Sys2Proof.Machine

/-- Sources whose TYPE is level by R330. -/
def isLevelSource (n : Nat) : Bool :=
  (decide (32 ≤ n) && decide (n ≤ 35)) || (decide (68 ≤ n) && decide (n ≤ 70)) || (decide (88 ≤ n) && decide (n ≤ 111)) ||
  n == 120 || n == 121

/-- A source at its Reset values (R345). -/
def srcReset (n : Nat) : Src := ⟨false, false, false, 0, isLevelSource n, 0, false, 0, 0⟩

/-- Source `n`. -/
def srcOf (s : State) (n : Nat) : Src := tblGet (srcReset n) s.icu.srcs n

/-- `f` applied to source `n`. -/
def modSrc (n : Nat) (f : Src → Src) (s : State) : State :=
  { s with icu := { s.icu with srcs := tblMod (srcReset n) s.icu.srcs n f } }

/-- The running-priority stack of a target, top first (R337). -/
def icuStack (s : State) (checker : Bool) : List (Nat × Nat) := if checker then s.icu.stack1 else s.icu.stack0

/-- A target's stack replaced. -/
def setStack (checker : Bool) (l : List (Nat × Nat)) (s : State) : State :=
  if checker then { s with icu := { s.icu with stack1 := l } } else { s with icu := { s.icu with stack0 := l } }

/-- The running priority of a target: 0 with an empty stack (R337). -/
def runPri (s : State) (checker : Bool) : Nat := ((icuStack s checker).head?.map (·.2)).getD 0

/-- The source presented to a target with the edge of its selection. -/
def icuPres (s : State) (checker : Bool) : Option (Nat × Nat) := if checker then s.icu.pres1 else s.icu.pres0

/-- The presented source replaced. -/
def setPres (checker : Bool) (p : Option (Nat × Nat)) (s : State) : State :=
  if checker then { s with icu := { s.icu with pres1 := p } } else { s with icu := { s.icu with pres0 := p } }

/-- A withdrawn source still to be delivered once (R335). -/
def icuLate (s : State) (checker : Bool) : Option (Nat × Nat) := if checker then s.icu.late1 else s.icu.late0

/-- The late delivery replaced. -/
def setLate (checker : Bool) (p : Option (Nat × Nat)) (s : State) : State :=
  if checker then { s with icu := { s.icu with late1 := p } } else { s with icu := { s.icu with late0 := p } }

/-- The pair is split, so that the checker is a target (R339). -/
def splitNow (s : State) : Bool := s.pair.mode == 1

/-- A target whose core's clock runs; a core halted by the debugger is awake (R341). -/
def coreAwake (s : State) (checker : Bool) : Bool :=
  if checker then splitNow s && !s.pair.asleepC else !s.pair.asleep || s.pair.halted

/-- Enabled, pending and of nonzero priority (R334, R342). -/
def srcReady (s : State) (n : Nat) : Bool := (srcOf s n).enable && (srcOf s n).pend && !((srcOf s n).prio == 0)

/-- Member of the wake set (R342). -/
def inWakeSet (s : State) (n : Nat) : Bool := s.icu.wake.any fun e => e.2.2 && e.2.1 == n

/-- The core that TARGET names, none for the attic (R339). -/
def srcTarget (s : State) (n : Nat) : Option Bool :=
  if (srcOf s n).target = 2 then none else some ((srcOf s n).target == 1 && splitNow s)

/-- The target that a source is bound to now: its old one since it was presented and until it is claimed or withdrawn (R336, R340), an awake
core under ROUTE_ANY (R341). -/
def srcBound (s : State) (n : Nat) : Option Bool :=
  match s.icu.held.find? fun e => e.1 == n with
  | some e => some e.2
  | none => (srcTarget s n).bind fun c =>
    if coreAwake s c then some c
    else if (srcOf s n).routeAny && coreAwake s false then some false
    else if (srcOf s n).routeAny && coreAwake s true then some true
    else none

/-- Sources that a target may be given (R334). -/
def icuEligible (s : State) (checker : Bool) : List Nat :=
  (s.icu.srcs.map (·.1)).filter fun n =>
    srcReady s n && decide (runPri s checker < (srcOf s n).prio) && srcBound s n == some checker && coreAwake s checker

/-- The highest priority, and among equals the lowest number (R334). -/
def icuBest (s : State) : List Nat → Option Nat
  | [] => none
  | n :: r =>
    match icuBest s r with
    | none => some n
    | some m =>
      if (srcOf s n).prio > (srcOf s m).prio || ((srcOf s n).prio == (srcOf s m).prio && decide (n < m)) then some n else some m

/-- Selection for one target; a source that stays presented keeps its edge (R334 to R336). -/
def icuSelect (checker : Bool) (s : State) : State :=
  match icuBest s (icuEligible s checker) with
  | none => setPres checker none s
  | some n =>
    if (icuPres s checker).map (·.1) = some n then s
    else setPres checker (some (n, s.time.edges)) { s with icu := { s.icu with held := withElem (n, checker) s.icu.held } }

/-- A ready wake-set source whose target sleeps wakes it, unless ROUTE_ANY finds an awake core (R341). -/
def icuWakeOne (n : Nat) (s : State) : State :=
  match srcTarget s n with
  | none => s
  | some c =>
    if srcReady s n && inWakeSet s n && !coreAwake s c &&
        !((srcOf s n).routeAny && (coreAwake s false || coreAwake s true)) then
      if c then { s with pair := { s.pair with asleepC := false } } else { s with pair := { s.pair with asleep := false } }
    else s

/-- A ready wake-set source is present (R342, R468). -/
def wakeMember (s : State) : Bool := (s.icu.srcs.map (·.1)).any fun n => srcReady s n && inWakeSet s n

/-- After any change: cores woken, sources selected, and an exit from NAP begun when a wake-set member became pending; one that becomes so
during the entry begins the exit at its end (R465, R468). -/
def icuSettle (s : State) : State :=
  let s := (s.icu.srcs.map (·.1)).foldl (fun s n => icuWakeOne n s) { s with icu := { s.icu with held := s.icu.held.filter fun e => srcReady s e.1 } }
  let s := icuSelect false (icuSelect true (icuSelect false s))
  if s.pwr.state = 2 && !s.pwr.waking && wakeMember s then beginNapExit none s
  else if s.pwr.napping.isSome && wakeMember s then { s with pwr := { s.pwr with wakePend := true } }
  else s

/-- A presented source that `s'` has disabled, cleared, deasserted or set to priority 0 within 3 BUS cycles (6 edges) of
its selection may still be delivered once (R335). -/
def icuWithdraw (s : State) (checker : Bool) (s' : State) : State :=
  match icuPres s checker with
  | some (n, at_) =>
    if !srcReady s' n && decide (s'.time.edges - at_ ≤ 6) && (icuLate s' checker).isNone then
      (if chooses s' then setLate checker (some (n, (srcOf s n).prio)) (drawn s') else drawn s')
    else s'
  | none => s'

/-- A change of the sources' state from outside, with R335 and selection. -/
def icuChange (f : State → State) (s : State) : State :=
  icuSettle (icuWithdraw s true (icuWithdraw s false (f s)))

/-- The seat that FWD_SEAT names (R343). -/
def fwdSeat (s : State) (n : Nat) : Option Seat :=
  match (srcOf s n).fwdSeat with
  | 1 => some .a
  | 2 => some .b
  | 3 => if 160 ≤ n ∧ n ≤ 175 then seatOfNo (ownerNo s (n - 160)) else none
  | _ => none

/-- Forwarding: a message, or a drop while the seat is being reset or its port has MSI-X disabled (R343). -/
def icuForward (n : Nat) (s : State) : State :=
  match fwdSeat s n with
  | none => s
  | some x =>
    if !msixEnabled s x then { s with icu := { s.icu with fwdDrops := up8 s.icu.fwdDrops } }
    else msix x (srcOf s n).fwdVec s

/-- Events and asserts set PENDING (R331). -/
def icuRaise (n : Nat) (level : Bool) (s : State) : State :=
  icuForward n (icuChange (modSrc n fun x => { x with pend := true, level := x.level || level }) s)

/-- A deassert clears LEVEL and PENDING (R331, R335). -/
def icuDrop (n : Nat) (s : State) : State := icuChange (modSrc n fun x => { x with pend := false, level := false }) s

/-- One doorbell (R328, R329, R331). -/
def icuDoorbell (v : Word) (s : State) : State :=
  let n := fld v.toNat 9 0
  let kind := fld v.toNat 31 30
  if kind = 3 ∨ fld v.toNat 29 10 ≠ 0 ∨ (256 ≤ n ∧ n ≤ 511) then { s with icu := { s.icu with bad := up8 s.icu.bad } }
  else if (kind == 0) == (srcOf s n).isLevel then { s with icu := { s.icu with typeErr := up8 s.icu.typeErr } }
  else if kind = 2 then icuDrop n s
  else icuRaise n (kind == 1) s

/-- A hardware unit signals an event source. -/
def icuEvent (n : Nat) (s : State) : State := icuDoorbell (w32 n) s

/-- A hardware unit asserts or deasserts its level source as its condition changes. -/
def icuLevel (n : Nat) (on : Bool) (s : State) : State :=
  if (srcOf s n).level = on then s else icuDoorbell (w32 ((if on then 0x40000000 else 0x80000000) + n)) s

/-- ICU_CLAIM read: what it returns (R337). A late delivery comes first (R335). -/
def icuClaimed (s : State) (checker : Bool) : Option (Nat × Nat) :=
  match icuLate s checker with
  | some p => some p
  | none => (icuPres s checker).map fun p => (p.1, (srcOf s p.1).prio)

/-- The word a claim returns (R344). -/
def claimWord : Option (Nat × Nat) → Word
  | none => 0
  | some (n, p) => w32 (n + p * 1024 + 16384)

/-- The effect of a claim (R337). -/
def icuClaimEffect (checker : Bool) (s : State) : State :=
  match icuClaimed s checker with
  | none => s
  | some (n, p) =>
    let s := if (icuLate s checker).isSome then setLate checker none s else setPres checker none s
    let s := modSrc n (fun x => { x with pend := false }) { s with icu := { s.icu with held := s.icu.held.filter fun e => !(e.1 == n) } }
    icuSettle (setStack checker ((n, p) :: icuStack s checker) s)

/-- A core gates its clock by WFI, in DOZE, or by its own request while the pair is split, once nothing is left for it to serve; when its
program does so is free (R341, R464; log 104). -/
def coreGates (checker : Bool) (s : State) : State :=
  if (s.pwr.state = 1 ∨ splitNow s) ∧ coreAwake s checker ∧ (icuStack s checker).isEmpty ∧ (icuPres s checker).isNone ∧
      (checker || !s.pair.halted) then
    let t := drawn s
    if chooses s then
      (if checker then { t with pair := { t.pair with asleepC := true } } else { t with pair := { t.pair with asleep := true } })
    else t
  else s

/-- ICU_EOI write (R338). In DOZE a core with nothing left to serve gates its clock again (R464). -/
def icuEoiEffect (checker : Bool) (n : Nat) (s : State) : State :=
  match icuStack s checker with
  | (m, _) :: r =>
    if m = n then
      let s := setStack checker r s
      let s := modSrc n (fun x => { x with pend := x.pend || (x.isLevel && x.level) }) s
      let s := icuSettle s
      if s.pwr.state = 1 && r.isEmpty && (icuPres s checker).isNone then
        (if checker then { s with pair := { s.pair with asleepC := true } } else { s with pair := { s.pair with asleep := true } })
      else s
    else { s with icu := { s.icu with eoiErr := up8 s.icu.eoiErr } }
  | [] => { s with icu := { s.icu with eoiErr := up8 s.icu.eoiErr } }

/-- The sources of bitmap word `w` whose bit of `v` is 1; sources 256 to 511 have no bits (R345). -/
def bitmapSources (w : Nat) (v : Word) : List Nat :=
  if 8 ≤ w ∧ w ≤ 15 then [] else (List.range 32).filterMap fun b => if v.getLsbD b then some (32 * w + b) else none

/-- `f` applied to each of the sources, as one change. -/
def icuEach (l : List Nat) (f : Src → Src) (s : State) : State :=
  icuChange (fun s => l.foldl (fun s n => modSrc n f s) s) s

/-- ICU_SRC_CFG write: TARGET 3 is ignored (R339), a change of TYPE clears LEVEL and PENDING (R346). -/
def srcCfg (n : Nat) (v : Nat) (x : Src) : Src :=
  let lvl := if 512 ≤ n then bitOf v 4 else x.isLevel
  let same := lvl == x.isLevel
  { x with prio := fld v 3 0, isLevel := lvl, target := if fld v 6 5 = 3 then x.target else fld v 6 5,
           routeAny := bitOf v 7, fwdSeat := fld v 9 8, fwdVec := fld v 15 10,
           level := x.level && same, pend := x.pend && same }

/-- ICU_DOORBELL (R328 to R333). -/
def execIcuDoorbell (v : Word) (s : State) : Res := .next (icuDoorbell v s)

/-- ICU_CLAIM (R337). -/
def execIcuClaim (checker : Bool) (s : State) : Res :=
  let c := checker && splitNow s
  let w := claimWord (icuClaimed s c)
  let s := icuClaimEffect c s
  let s := { s with icu := if c then { s.icu with lastClaim1 := w } else { s.icu with lastClaim0 := w } }
  .next (emit (.readValue w) s)

/-- ICU_EOI (R338). -/
def execIcuEoi (checker : Bool) (source : BitVec 10) (s : State) : Res :=
  .next (icuEoiEffect (checker && splitNow s) source.toNat s)

/-- ICU_EN_SET (R332, R345). -/
def execIcuEnSet (w : Fin 32) (v : Word) (s : State) : Res :=
  .next (icuEach (bitmapSources w v) (fun x => { x with enable := true }) s)

/-- ICU_EN_CLR (R332, R335, R345). -/
def execIcuEnClr (w : Fin 32) (v : Word) (s : State) : Res :=
  .next (icuEach (bitmapSources w v) (fun x => { x with enable := false }) s)

/-- ICU_PEND_SET (R332, R345). -/
def execIcuPendSet (w : Fin 32) (v : Word) (s : State) : Res :=
  .next (icuEach (bitmapSources w v) (fun x => { x with pend := true }) s)

/-- ICU_PEND_CLR; a doorbell of the same BUS cycle is applied after the clear (R332). -/
def execIcuPendClr (w : Fin 32) (v : Word) (same : Option Word) (s : State) : Res :=
  let s := icuEach (bitmapSources w v) (fun x => { x with pend := false }) s
  .next (match same with | some d => icuDoorbell d s | none => s)

/-- ICU_SRC_CFG (R339, R340, R345, R346). -/
def execIcuSrcCfgWrite (n : Fin 1024) (v : Word) (s : State) : Res :=
  .next (icuChange (modSrc n (srcCfg n v.toNat)) s)

end Sys2Proof.Machine
end

