-- ==== Sys2Proof/Machine/Safe.lean ====
section
/-! DEFINITION. Machine/Safe.lean: the device state, the seal's settings, the logs, routed events, the holds of the OKAY
outputs and the SAFE latch. -/

namespace Sys2Proof.Machine

/-! ### The seal's settings (R407, R408) -/

/-- The values S7 to S0 in effect; the most restrictive ones when the reset read found a pair not valid (R408). -/
def sealNow (s : State) : BitVec 8 := if s.sio.restricted then 0x0C else s.sio.sealP

/-- K of R407. -/
def sealK (s : State) : Nat := 1 + fld (sealNow s).toNat 1 0

/-- W of R407. -/
def sealW (s : State) : Nat := 8 * 2 ^ fld (sealNow s).toNat 3 2

/-- S4: the single-copy allowance. -/
def sealSingle (s : State) : Bool := (sealNow s).getLsbD 4

/-- S5: AUTO_RESUME. -/
def sealAuto (s : State) : Bool := (sealNow s).getLsbD 5

/-- S6: seat A has safety rights. -/
def sealRights (s : State) : Bool := (sealNow s).getLsbD 6

/-- S7: OKAY at 10 kHz. -/
def sealFast (s : State) : Bool := (sealNow s).getLsbD 7

/-! ### The device state (R415, R462, R517) -/

/-- Lockstep is not assured (R323). -/
def inMaintenance (s : State) : Bool := !(s.pair.mode == 0)

/-- In NAP, entering it or leaving it: the state reads READY (R462, R465). -/
def inNap (s : State) : Bool := s.pwr.state == 2 || s.pwr.napping.isSome || s.pwr.waking

/-- Some die is ABSENT, FAILED or in a D reset (R428, R459). -/
def anyDieGone (s : State) : Bool := [0, 1, 2, 3].any fun d => (die s d).st == 5 || (die s d).st == 6 || (die s d).dReset.isSome

/-- STATE of CMP_STATE: 1 BOOT, 2 READY, 3 SERVICE, 4 DEGRADED, 5 MAINTENANCE, 6 SAFE. SAFE shows once bring-up has ended (R431), or in place
of a MAINTENANCE that a journal overflow brings before (R323); an activation restart reads BOOT (R451). -/
def deviceState (s : State) : Nat :=
  match s.boot with
  | .off => 1
  | .boot => if inMaintenance s then (if s.evd.safe then 6 else 5) else 1
  | .ready => if inMaintenance s then (if s.evd.safe then 6 else 5) else 2
  | .up =>
    if s.upd.restart then 1
    else if s.evd.safe then 6
    else if inMaintenance s then 5
    else if inNap s then 2
    else if anyDieGone s then 4 else 3

/-- What the device state would be without SAFE: SERVICE or DEGRADED. -/
def inService (s : State) : Bool := deviceState s == 3 || deviceState s == 4

/-! ### Logs (R485 to R487) -/

/-- An entry in the fence history, in slot index mod 2,048 (R485); `prt` 255 and `rgn` 65535 for none. -/
def fenceLog (d cluster core cause prt rgn evid : Nat) (s : State) : State :=
  let b := leBytes 4 (nowNs s) ++ leBytes 1 (nowEra s) ++ leBytes 1 d ++ leBytes 1 cluster ++ leBytes 1 core ++
    leBytes 1 cause ++ leBytes 1 prt ++ leBytes 2 rgn ++ leBytes 4 evid
  let e : LogEntry := ⟨b, prt, ownerNo s prt⟩
  { s with evd := { s.evd with
      fences := tblPut s.evd.fences (s.evd.fenceHead % 2048) e
      fenceHead := wrapAt 32 (s.evd.fenceHead + 1) } }

/-- An entry in the error log, in slot index mod 4,096, or a count in SUPPRESSED past 64 of a kind in one second (R486). -/
def logError (kind unit prt d0 d1 : Nat) (s : State) : State :=
  let sec := tbSafe s / 1000000000
  let p := tblGet (0, 0) s.evd.perSecond kind
  let n := if p.1 = sec then p.2 else 0
  if 64 ≤ n then { s with evd := { s.evd with suppressed := up16 s.evd.suppressed } }
  else
    let b := leBytes 4 (nowNs s) ++ leBytes 1 (nowEra s) ++ leBytes 1 kind ++ leBytes 1 unit ++ leBytes 1 prt ++
      leBytes 4 d0 ++ leBytes 4 d1
    let e : LogEntry := ⟨b, prt, ownerNo s prt⟩
    { s with evd := { s.evd with
        log := tblPut s.evd.log (s.evd.logHead % 4096) e
        logHead := wrapAt 32 (s.evd.logHead + 1)
        perSecond := tblSet (0, 0) s.evd.perSecond kind (sec, n + 1) } }

/-! ### Routed events (R223, R291) -/

/-- The vectors, each once, that the partition's ROUTE records give an event; `none` is an event of the whole partition
and matches every ROUTE of its class (R223, R269; log 21). -/
def routeVectors (l : Layout) (ev : Nat) (rgn : Option Nat) : List Nat :=
  ((l.routes.filter fun r => r.event == ev && (r.region == 0xFFFF || rgn.isNone || rgn == some r.region)).map
    (·.vector)).eraseDups

/-- An event of a partition: one KIND 2 entry in the CQ of its result ring, and a message on each vector (R290, R291). -/
def routeEvent (n ev : Nat) (rgn : Option Nat) (detail : Nat) (s : State) : State :=
  let p := part s n
  match p.layout, seatOfNo p.seat with
  | some l, some x =>
    let vs := routeVectors l ev rgn
    if vs.isEmpty then s else
    let s :=
      match p.ring with
      | none => s
      | some r =>
        if cqOpen s x r.cq then
          cqPost x r.cq (cqEntry (rgn.getD 0xFFFF) ev 2 0 0 n detail 0 0 s) s
        else modSeat x (fun t => { t with eventDrops := up16 t.eventDrops }) s
    vs.foldl (fun s v => msix x v s) s
  | _, _ => s

/-- A partition takes a new state, with event 0x05 where routed (R223). -/
def setPartState (n st : Nat) (s : State) : State :=
  if (part s n).st = st then s else routeEvent n 5 none st (modPart n (fun p => { p with st := st }) s)

/-! ### OKAY (R401 to R404) -/

/-- Some alarm pair on which R27 acts carries the alarm code. -/
def alarmOn (s : State) : Bool := [0, 1, 2, 3].any fun d => alarmHeard (die s d) && alarmCode (die s d)

/-- HOLD bit `h` of R403. -/
def holdBit (s : State) (h : Nat) : Bool :=
  match h with
  | 0 => !inService s
  | 1 => s.evd.safe
  | 2 => alarmOn s
  | 3 => s.sio.release
  | 4 => s.pair.halted
  | 5 => inMaintenance s
  | 6 => s.wdg.hold0
  | _ => false

/-- The HOLD bits as a number. -/
def holds (s : State) : Nat := maskOf 7 (holdBit s)

/-- Both outputs steady low while a hold applies (R403). -/
def okaySettle (s : State) : State :=
  if s.sio.toggling && !(holds s == 0) then
    emit (.okay false false) { s with sio := { s.sio with toggling := false, okayPin := 0 } }
  else s

/-- An edge of OKAY: the output that stands high falls first, and only then does output `pin` rise (R402). Nothing falls at the edge that
starts the toggling, and an output that stands high already has no edge. -/
def okayEdge (pin : Nat) (s : State) : State :=
  if s.sio.okayPin = pin then s
  else
    let s := if s.sio.okayPin = 0 then s else emit (.okay false false) s
    emit (.okay (pin == 1) (pin == 2)) { s with sio := { s.sio with okayPin := pin } }

/-- The OKAY period in TIME edges (R401, R407). -/
def okayPeriod (s : State) : Nat := if sealFast s then 40000 else 400000

/-- The middle of a period while OKAY toggles: OKAY_A falls and OKAY_B, its complement, rises (R401). -/
def okayHalf (s : State) : State :=
  if s.sio.toggling && s.time.edges % okayPeriod s == okayPeriod s / 2 then okayEdge 2 s else s

/-- A change that may end the alarm hold: with AUTO_RESUME clear its end sets RELEASE_PENDING (R403); the ICU sources of the
pairs follow them (R330). -/
def alarmChange (f : State → State) (s : State) : State :=
  let had := alarmOn s
  let s := f s
  let s := if had && !alarmOn s && !sealAuto s then { s with sio := { s.sio with release := true } } else s
  let s := eachDie (fun d s => icuLevel (32 + d) (alarmCode (die s d)) s) s
  okaySettle s

/-- Die `d`'s alarm pair takes the alarm code, counted as one entry (R26, R476). -/
def alarmRaise (d : Nat) (s : State) : State :=
  if alarmCode (die s d) then s
  else alarmChange (fun s => dieCount d 0x100C 1 (modDie d (fun x => { x with almT := true, almF := false, almAt := s.time.edges }) s)) s

/-! ### SAFE (R267 to R270) -/

/-- SAFE is latched; only the first cause is recorded (R267), OKAY falls, source 120 is asserted, event 0x08 is raised for
every partition that routes it (R269). -/
def latchSafe (cause prt rgn : Nat) (s : State) : State :=
  if s.evd.safe then s
  else
    let named := cause == 1 || cause == 2
    let s := { s with evd := { s.evd with
      safe := true, cause := cause, safePart := if named then prt else 0, safeRegion := if named then rgn else 0,
      safeStamp := tbSafe s } }
    let s := logError 1 cause (if named then prt else 255) (if named then rgn else 0) 0 s
    let s := okaySettle (icuLevel 120 true s)
    (List.range 16).foldl (fun s n => routeEvent n 8 none 0 s) s

end Sys2Proof.Machine
end

