-- ==== Sys2Proof/Machine/WdgOps.lean ====
section
/-! DEFINITION. Machine/WdgOps.lean: the watchdog units and the task monitor as shared operations (R347 to R363). An
operation that may end in a reset of kind W answers whether it does. -/

namespace Sys2Proof.Machine

/-- A unit at its Reset values (R362). -/
def wdgReset (n : Nat) : WdgUnit where
  holder := if n = 0 then 1 else 0
  part := 0
  mode := false
  width := 10
  enable := n == 0
  opn := 0
  close := 1000000
  cycle := 0
  armed := false
  warned := false
  pulse := none
  since := 0
  openZero := false
  expiries := 0
  early := 0
  badKey := 0
  pendMode := none
  expAt := none
  stopped := 0

/-- Unit `n`. -/
def wdgUnit (s : State) (n : Nat) : WdgUnit := tblGet (wdgReset n) s.wdg.units n

/-- `f` applied to unit `n`. -/
def modWdg (n : Nat) (f : WdgUnit → WdgUnit) (s : State) : State :=
  { s with wdg := { s.wdg with units := tblMod (wdgReset n) s.wdg.units n f } }

/-- A task slot at its Reset values (R363). -/
def taskReset : Task := ⟨false, 0, 0, 0, 0, 0, 0, false, 0, 0⟩

/-- Task slot `t`. -/
def taskOf (s : State) (t : Nat) : Task := tblGet taskReset s.wdg.tasks t

/-- `f` applied to task slot `t`. -/
def modTask (t : Nat) (f : Task → Task) (s : State) : State :=
  { s with wdg := { s.wdg with tasks := tblMod taskReset s.wdg.tasks t f } }

/-- A group before it has started. -/
def groupReset : Group := ⟨false, 0, 0, 0, 0, false, false, 0, [], [], [], []⟩

/-- The group of unit `g`. -/
def groupOf (s : State) (g : Nat) : Group := tblGet groupReset s.wdg.groups g

/-- `f` applied to a group. -/
def modGroup (g : Nat) (f : Group → Group) (s : State) : State :=
  { s with wdg := { s.wdg with groups := tblMod groupReset s.wdg.groups g f } }

/-- The slots given to a group. -/
def groupSlots (s : State) (g : Nat) : List Nat :=
  (s.wdg.tasks.filter fun e => e.2.valid && e.2.group == g).map (·.1)

/-- Task slots not given to any group (R362). -/
def slotsFree (s : State) : Nat := 64 - (s.wdg.tasks.filter fun e => e.2.valid).length

/-- Microseconds since the last service, failure or enabling (R350, R362). -/
def wdgElapsed (s : State) (n : Nat) : Nat := edgesUs (s.time.edges - (wdgUnit s n).since)

/-- A unit counts: enabled, and held, for a free unit does not count (R347). -/
def wdgCounts (u : WdgUnit) : Bool := u.enable && !(u.holder == 0)

/-- WD_PULSE is driven low while any pulse runs (R354). -/
def wdPulseLow (s : State) : Bool := s.wdg.units.any fun e => e.2.pulse.isSome

/-- A failure: counted and logged, the unit restarts with OPEN taken as 0 (R353), its mode's action is taken (R352), and
one of WDG0 holds OKAY (R355). Kinds: 1 early, 2 bad key, 3 expiry. -/
def wdgFail (n kind : Nat) (s : State) : State × Bool :=
  let u := wdgUnit s n
  let s := modWdg n (fun u => { u with
    early := if kind = 1 then up8 u.early else u.early, badKey := if kind = 2 then up8 u.badKey else u.badKey,
    expiries := if kind = 3 then up8 u.expiries else u.expiries, expAt := if kind = 3 then some s.time.edges else u.expAt,
    since := s.time.edges, openZero := true }) s
  let s := logError 8 n (if u.holder = 4 then u.part else 255) kind 0 s
  let s := if n = 0 then okaySettle { s with wdg := { s.wdg with hold0 := true } } else s
  if u.mode then
    if u.warned then (s, true)
    else (icuEvent (48 + n) (modWdg n (fun u => { u with warned := true }) s), false)
  else
    let low := wdPulseLow s
    let s := modWdg n (fun u => { u with pulse := some (s.time.edges + u.width * 400000) }) s
    (if low then s else emit (.wdPulse true) s, false)

/-- A pending change of mode and width is applied (R348). -/
def wdgPending (u : WdgUnit) : WdgUnit :=
  match u.pendMode with
  | some (m, w) => { u with mode := m, width := w, pendMode := none }
  | none => u

/-- An expiry has taken place in this PERIPH cycle (R351); a PERIPH cycle is 4 TIME edges. -/
def wdgJustExpired (s : State) (u : WdgUnit) : Bool := u.expAt.any fun t => t / 4 == s.time.edges / 4

/-- A service instant (R350, R351): absorbed by an expiry of the same PERIPH cycle, expiry itself when the count reaches CLOSE by the end of
that cycle, a failure before OPEN, else accepted. -/
def wdgServe (n : Nat) (s : State) : State × Bool :=
  let u := wdgUnit s n
  let e := wdgElapsed s n
  if wdgJustExpired s u then (s, false)
  else if (u.since + u.close * 400) / 4 ≤ s.time.edges / 4 then wdgFail n 3 s
  else if !u.openZero && decide (e < u.opn) then wdgFail n 1 s
  else (modWdg n (fun u => wdgPending { u with since := s.time.edges, openZero := false, warned := false }) s, false)

/-- The view holds the unit (R347, R349). -/
def wdgHolds (v : View) (u : WdgUnit) : Bool :=
  match v with
  | .int | .chk => u.holder == 1
  | .a => u.holder == 2
  | .b => u.holder == 3

/-- A write to WDG_SERVICE (R349 to R351, R356). -/
def wdgWrite (v : View) (n w : Nat) (s : State) : State × Bool :=
  let u := wdgUnit s n
  if !wdgHolds v u || !wdgCounts u then
    (if wdgHolds v u then s else { s with wdg := { s.wdg with foreign := up8 s.wdg.foreign } }, false)
  else
    let s' := modWdg n (fun u => { u with armed := false }) s
    if 256 ≤ w then wdgFail n 2 s'
    else if w = 0xA5 then
      if u.armed && wdgJustExpired s u then (s', false)
      else if (groupOf s n).valid && !(groupOf s n).pass && !(u.cycle == 0) then (s', false)
      else if !u.armed then wdgFail n 2 s'
      else wdgServe n s'
    else if w = 0x5A ∧ u.armed = false then (modWdg n (fun u => { u with armed := true }) s, false)
    else wdgFail n 2 s'

/-- The count has reached CLOSE (R351); in ATTIC nothing counts (R354). -/
def wdgExpire (n : Nat) (s : State) : State × Bool :=
  let u := wdgUnit s n
  if wdgCounts u && !(s.boot == .off) && decide (u.close ≤ wdgElapsed s n) then wdgFail n 3 s else (s, false)

/-- A pulse has run its WIDTH; WD_PULSE is released when the last one ends (R354). -/
def wdgPulseEnd (n : Nat) (s : State) : State :=
  match (wdgUnit s n).pulse with
  | some t =>
    if t ≤ s.time.edges then
      let s := modWdg n (fun u => { u with pulse := none }) s
      if wdPulseLow s then s else emit (.wdPulse false) s
    else s
  | none => s

/-- A unit is enabled: its first window and its group's first cycle start now (R350, R356). -/
def wdgEnable (n : Nat) (s : State) : State :=
  let s := modWdg n (fun u => { u with enable := true, since := s.time.edges, openZero := false, armed := false }) s
  let s := (groupSlots s n).foldl (fun s t => modTask t (fun t => { t with count := 0, orderErr := false }) s) s
  if (wdgUnit s n).cycle = 0 then s
  else modGroup n (fun _ => { groupReset with running := true, start := s.time.edges }) s

/-- A unit that counts no longer: ELAPSED stays as it was, and a pending change of mode and width waits for no service (R348; log 38). -/
def wdgHalted (e : Nat) (u : WdgUnit) : WdgUnit :=
  wdgPending { u with enable := false, armed := false, stopped := if wdgCounts u then e else u.stopped }

/-- A unit and its cycles stop; it stays held (R356). -/
def wdgStop (n : Nat) (s : State) : State :=
  modGroup n (fun g => { g with running := false }) (modWdg n (wdgHalted (wdgElapsed s n)) s)

/-- A unit is freed, with its group and slots (R347, R363). -/
def wdgFree (n : Nat) (s : State) : State :=
  let s := (groupSlots s n).foldl (fun s t => modTask t (fun _ => taskReset) s) s
  let s := modGroup n (fun _ => groupReset) s
  modWdg n (fun u => { wdgHalted (wdgElapsed s n) u with holder := 0, part := 0, warned := false, cycle := 0 }) s

/-- The unit that a partition holds. -/
def wdgOfPart (s : State) (p : Nat) : Option Nat :=
  (s.wdg.units.find? fun e => e.2.holder == 4 && e.2.part == p).map (·.1)

/-- The partition's unit starts with START (R356). -/
def wdgPartStart (p : Nat) (s : State) : State := (wdgOfPart s p).elim s fun n => wdgEnable n s

/-- The partition's unit stops when it leaves RUNNING (R356). -/
def wdgPartStop (p : Nat) (s : State) : State := (wdgOfPart s p).elim s fun n => wdgStop n s

/-- The partition's unit is freed at its unload (R347). -/
def wdgPartFree (p : Nat) (s : State) : State := (wdgOfPart s p).elim s fun n => wdgFree n s

/-- One check-in of a slot, in the cycle in progress (R358, R359); one at the instant that the cycle ends, or after it, waits for the next
(R356). -/
def taskCheckin (t : Nat) (s : State) : State :=
  let x := taskOf s t
  let g := groupOf s x.group
  if !g.running then s
  else if g.start + (wdgUnit s x.group).cycle * 400 ≤ s.time.edges then modGroup x.group (fun g => { g with early := g.early ++ [t] }) s
  else
    let first := x.count == 0
    let bad := !(x.order == 0) && first && decide (x.order < (groupOf s x.group).lastOrder)
    let s := modTask t (fun x => { x with count := up8 x.count, orderErr := x.orderErr || bad }) s
    if !(x.order == 0) && first && !bad then modGroup x.group (fun g => { g with lastOrder := x.order }) s else s

/-- The check-ins that the publication of a record of a region gives (R358). -/
def taskPublished (p r : Nat) (believed : Bool) (s : State) : State :=
  let l := (s.wdg.tasks.filter fun e => e.2.valid && e.2.part == p && e.2.region == r &&
    (e.2.source == 2 || (e.2.source == 1 && believed))).map (·.1)
  l.foldl (fun s t => taskCheckin t s) s

/-- The slot of a task of the partition's TASKS record that the owning seat checks in (R358, R363). -/
def taskSlot (s : State) (p task : Nat) : Option Nat :=
  (s.wdg.tasks.find? fun e => e.2.valid && e.2.part == p && e.2.source == 0 && e.2.region == task &&
    (wdgUnit s e.2.group).holder == 4).map (·.1)

/-- The end of a group's cycle (R356, R359, R360). -/
def taskCycle (g : Nat) (s : State) : State × Bool :=
  let x := groupOf s g
  let u := wdgUnit s g
  let due := x.start + u.cycle * 400
  if x.running && decide (due ≤ s.time.edges) then
    let l := groupSlots s g
    let missing := l.filter fun t => decide ((taskOf s t).count < (taskOf s t).min)
    let excess := l.filter fun t => decide ((taskOf s t).max < (taskOf s t).count)
    let order := l.filter fun t => (taskOf s t).orderErr
    let pass := missing.isEmpty && excess.isEmpty && order.isEmpty
    let s := l.foldl (fun s t => modTask t (fun t => { t with count := 0, orderErr := false }) s) s
    let s := modGroup g (fun x => { x with
      start := due, lastOrder := 0, num := x.next, next := wrapAt 16 (x.next + 1), pass := pass, valid := true,
      stamp := tbSafe s, missing := missing, excess := excess, order := order, early := [] }) s
    let s := x.early.foldl (fun s t => taskCheckin t s) s
    let s := icuEvent 56 s
    let s := if pass then s else logError 9 g (if u.holder = 4 then u.part else 255) x.next 0 s
    if pass && u.holder == 4 && u.enable then wdgServe g s else (s, false)
  else (s, false)

/-- CHECKIN of an evidence record (R250, R360). -/
def checkinField (s : State) (p : Nat) : Nat :=
  match wdgOfPart s p with
  | none => 0
  | some n => if !(groupOf s n).valid then 3 else if (groupOf s n).pass then 1 else 2

end Sys2Proof.Machine
end

