-- ==== Sys2Proof/Machine/Evid.lean ====
section
/-! DEFINITION. Machine/Evid.lean: the evidence record and its store (R250, R252), the data area (R197), and the comparison
with a partner (R247). -/

namespace Sys2Proof.Machine

/-! ### The record (R250) -/

/-- Bytes 0x00 to 0x7B of a record. -/
def evBody (r : EvRec) : List Byte :=
  leBytes 1 1 ++ leBytes 1 r.kind ++ leBytes 2 r.eflags ++ leBytes 1 r.part ++ leBytes 1 r.die ++ leBytes 2 r.region ++
  leBytes 8 r.seq ++ leBytes 4 r.sched ++ leBytes 4 r.start ++ leBytes 4 r.endS ++ leBytes 1 r.eras ++ leBytes 1 r.attempt ++
  leBytes 1 r.displaced ++ leBytes 1 r.fenceCause ++ leBytes 4 (unsgn 32 r.margin) ++ leBytes 4 r.saturations ++
  leBytes 2 r.residue ++ leBytes 2 r.t2 ++ leBytes 2 r.corrSram ++ leBytes 2 r.corrCellar ++ leBytes 2 r.uncorrSram ++
  leBytes 2 r.uncorrCellar ++ leBytes 2 r.pegFaults ++ leBytes 1 r.signature ++ leBytes 1 r.tune ++ leBytes 4 r.tuneAge ++
  leBytes 2 r.delta ++ leBytes 2 r.deltaCount ++ leBytes 2 r.tolerance ++ leBytes 1 r.checkin ++ leBytes 1 r.minHealthy ++
  leBytes 4 r.outCrc ++ leBytes 1 r.resultCheck ++ leBytes 1 r.mode ++ leBytes 2 r.shortMask ++ leBytes 2 r.staleMask ++
  zeroBytes 2 ++ padTo 16 r.tuneDigest ++ leBytes 2 r.judgeSteps ++ leBytes 1 r.verdict ++ leBytes 1 r.reason ++
  leBytes 1 r.winCount ++ leBytes 1 r.winFill ++ leBytes 1 r.k ++ leBytes 1 r.w ++ leBytes 4 r.judgedSafe ++
  leBytes 1 r.judgedEra ++ zeroBytes 15

/-- The 128 bytes of a record. -/
def evBytes (r : EvRec) : List Byte := evBody r ++ leBytes 4 (crc32c (evBody r)).toNat

/-- A record as it arrives; none when its length or ECRC is wrong (R250). The CX fields are not read. -/
def evParse (b : List Byte) : Option EvRec :=
  if b.length = 128 ∧ rd b 0x7C 4 = (crc32c (b.take 124)).toNat then
    some {
      kind := rd b 1 1, eflags := rd b 2 2, part := rd b 4 1, die := rd b 5 1, region := rd b 6 2, seq := rd b 8 8
      sched := rd b 16 4, start := rd b 20 4, endS := rd b 24 4, eras := rd b 28 1, attempt := rd b 29 1
      displaced := rd b 30 1, fenceCause := rd b 31 1, margin := sgn 32 (rd b 32 4), saturations := rd b 36 4
      residue := rd b 40 2, t2 := rd b 42 2, corrSram := rd b 44 2, corrCellar := rd b 46 2, uncorrSram := rd b 48 2
      uncorrCellar := rd b 50 2, pegFaults := rd b 52 2, signature := rd b 54 1, minHealthy := rd b 0x43 1
      outCrc := rd b 0x44 4, mode := rd b 0x49 1, shortMask := rd b 0x4A 2, staleMask := rd b 0x4C 2 }
  else none

/-- Bit `i` of EFLAGS. -/
def eflag (r : EvRec) (i : Nat) : Bool := bitOf r.eflags i

/-- EFLAGS with a bit set. -/
def setEflag (i : Nat) (on : Bool) (r : EvRec) : EvRec := if on then { r with eflags := r.eflags ||| 2 ^ i } else r

/-- A record enters the store in slot index mod 8,192 (R252); answers its index. -/
def storeEv (r : EvRec) (s : State) : Nat × State :=
  let i := s.evd.head
  (i, { s with evd := { s.evd with
    store := tblPut s.evd.store (i % 8192) ⟨evBytes r, r.part, ownerNo s r.part⟩, head := wrapAt 32 (i + 1) } })

/-! ### The data area (R39, R197) -/

/-- Bytes rounded up to 16. -/
def pad16 (l : List Byte) : List Byte := padTo (roundUp l.length 16) l

/-- Bytes of the element area. -/
def elemBytes (f : Fmt) (shape : List Nat) : Nat := areaSize false f shape

/-- BLOCK's code (R197). -/
def blockCode (b : Nat) : Nat := if b = 16 then 1 else if b = 32 then 2 else if b = 64 then 3 else if b = 128 then 4 else 0

/-- The block length of a code. -/
def blockOfCode (c : Nat) : Nat := if c = 0 then 0 else 8 * 2 ^ c

/-- One tensor of the data area (R197), of which the positions of a block with M = 0 are not written (R46). -/
def tensorCells (t : Tensor) : List (Option Byte) :=
  let hdr := leBytes 1 (Fmt.code t.fmt) ++ leBytes 1 t.shape.length ++ leBytes 1 t.axis ++ leBytes 1 (blockCode t.block) ++
    ((List.range 6).map fun i => leBytes 4 (t.shape.getD i 0)).flatten
  if prod t.shape = 0 then (hdr ++ leBytes 4 0).map some
  else
    let rows := areaCells false t
    (hdr ++ leBytes 4 (elemBytes t.fmt t.shape) ++ pad16 (scaleBytes t.scales)).map some ++ rows ++
      (zeroBytes (roundUp rows.length 16 - rows.length)).map some

/-- One tensor of the data area as a result carries it. DESIGN CHOICE: the positions of a block with M = 0, which the device does not write
(R46), stand as 0 in a result, under its CRC and digest (log 60). -/
def tensorBytes (t : Tensor) : List Byte := (tensorCells t).map (·.getD 0)

/-- The data area of some output tensors. -/
def dataArea (l : List Tensor) : List Byte := (l.map tensorBytes).flatten

/-- The shape that a header's extents and rank give. -/
def hdrShape (h : TensorHdr) : List Nat := h.extents.take h.rank

/-- Scale words of a header's tensor. -/
def hdrScales (h : TensorHdr) : Nat :=
  if prod (hdrShape h) = 0 then 0 else blockCount (hdrShape h) h.axis (blockOfCode h.block)

/-- ELEM_BYTES that a header's extents and format give. -/
def hdrElems (h : TensorHdr) : Nat :=
  if prod (hdrShape h) = 0 then 0 else ((Fmt.ofCode h.fmt).map fun f => elemBytes f (hdrShape h)).getD 0

/-- Bytes of a header's whole tensor in the form of R197. -/
def hdrLength (h : TensorHdr) : Nat := 32 + roundUp (2 * hdrScales h) 16 + roundUp (hdrElems h) 16

/-- The 32-byte tensor header at an offset. -/
def readHdr (b : List Byte) (o : Nat) : TensorHdr where
  fmt := rd b o 1
  rank := rd b (o + 1) 1
  axis := rd b (o + 2) 1
  block := rd b (o + 3) 1
  extents := (List.range 6).map fun i => rd b (o + 4 + 4 * i) 4
  elemBytes := rd b (o + 28) 4

/-- The header agrees with an output descriptor, whose outermost extent is a maximum where it varies (R66, R213). A tensor with no elements
has an outermost extent of 0 (R75). -/
def hdrFits (o : OutRec) (h : TensorHdr) : Bool :=
  let d := o.hdr
  d.fmt == h.fmt && d.rank == h.rank && d.axis == h.axis && d.block == h.block && h.elemBytes == hdrElems h &&
  d.extents.drop 1 == h.extents.drop 1 &&
  (if o.vary then decide (h.extents.headD 0 ≤ d.extents.headD 0) else h.extents.headD 0 == if prod (hdrShape d) = 0 then 0 else d.extents.headD 0)

/-- Offset and header of each tensor of a data area read against the descriptors; none where one, their number or the area's length does not
agree (R247). -/
def readArea (outs : List OutRec) (b : List Byte) (o : Nat) : Option (List (Nat × TensorHdr)) :=
  match outs with
  | [] => if o = b.length then some [] else none
  | d :: r =>
    let h := readHdr b o
    if o + 32 ≤ b.length ∧ hdrFits d h = true ∧ o + hdrLength h ≤ b.length then
      (readArea r b (o + hdrLength h)).map fun l => (o, h) :: l
    else none

/-- The largest data area that the descriptors allow (R251). -/
def maxArea (outs : List OutRec) : Nat := (outs.map fun o => hdrLength o.hdr).sum

/-- Element `i` of a row of a tensor at an offset; the T2 code 0b10, which stands as -2, counts as 0 (R38). -/
def readElem (b : List Byte) (f : Fmt) (o row n i : Nat) : Int := elemAt false b f (o + row * rowSize false f n) i

/-- A tensor read from bytes at an offset (R197). -/
def readTensor (b : List Byte) (o : Nat) (h : TensorHdr) : Tensor :=
  let f := (Fmt.ofCode h.fmt).getD .s8
  let shape := hdrShape h
  let n := innerExt shape
  let eo := o + 32 + roundUp (2 * hdrScales h) 16
  ⟨f, shape, h.axis, blockOfCode h.block, (List.range (hdrScales h)).map fun i => BitVec.ofNat 16 (rd b (o + 32 + 2 * i) 2),
    (List.range (prod shape)).map fun i => readElem b f eo (i / max 1 n) n (i % max 1 n)⟩

/-! ### The comparison with a partner (R247) -/

/-- The delta of two elements (R247). -/
def elemDelta (a b : Int × BitVec 16) : Nat :=
  let ma := scaleM a.2
  let mb := scaleM b.2
  if ma = 0 ∧ mb = 0 then 0
  else
    let c := if ma = 0 then b.2 else if mb = 0 then a.2 else coarser a.2 b.2
    let x := if ma = 0 then 0 else rescale a.1 a.2 c
    let y := if mb = 0 then 0 else rescale b.1 b.2 c
    min 65535 (x - y).natAbs

/-- Deltas of a pair of tensors. -/
def tensorDeltas (a b : Tensor) : List Nat :=
  (List.range (Tensor.count a)).map fun i => elemDelta (Tensor.pair a i) (Tensor.pair b i)

/-- DELTA, DELTA_COUNT and DELTA_OVER of two data areas. Where they cannot be compared DELTA is 65,535 (R247), and the
count, which the spec does not give, is none here: a free value (log 26). -/
def areaDelta (outs outsP : List OutRec) (tol : Nat) (a b : List Byte) : Nat × Option Nat × Bool :=
  match readArea outs a 0, readArea outsP b 0 with
  | some la, some lb =>
    if la.map (fun e => hdrShape e.2) = lb.map (fun e => hdrShape e.2) then
      let ds := ((la.zip lb).map fun e => tensorDeltas (readTensor a e.1.1 e.1.2) (readTensor b e.2.1 e.2.2)).flatten
      let d := ds.foldl max 0
      (d, some (min 65535 (ds.filter fun x => decide (tol < x)).length), decide (tol < d))
    else (65535, none, true)
  | _, _ => (65535, none, true)

end Sys2Proof.Machine
end

