-- ==== Sys2Proof/Machine/Complete.lean ====
section
/-! DEFINITION. Machine/Complete.lean: accepting a command and posting its completion (R279 to R288). -/

namespace Sys2Proof.Machine

/-- A command has been accepted: its CQ entry is reserved (R287), seat S's one command is outstanding (R280). -/
def accept (h : Hdr) (s : State) : State :=
  match h.seat with
  | .s => { s with seats := { s.seats with sBusy := true } }
  | .n => s
  | x => modQueue x h.sq (fun q => { q with busy := q.busy + 1 }) s

/-- The completion entry of a command (R284). -/
def completionOf (h : Hdr) (status info0 info1 info2 : Nat) (s : State) : List Byte :=
  cqEntry h.cid h.sq 0 (queueOf s h.seat h.sq).sqHead status h.part info0 info1 info2 s

/-- Output cut into pieces of at most 1,408 bytes, each with its offset (R279). -/
def pieces : Nat → Nat → List Byte → List (Nat × List Byte)
  | 0, _, _ => []
  | n + 1, o, l => if 1408 < l.length then (o, l.take 1408) :: pieces n (o + 1408) (l.drop 1408) else [(o, l)]

/-- One answer to seat N, a frame of its port, which goes out while the link is up (R279, R518). -/
def answerN (h : Hdr) (entry out : List Byte) (s : State) : State :=
  if (tblGet {} s.net h.sq).up then
    emit (.answer h entry out) { s with net := tblMod {} s.net h.sq fun x => { x with tx := wrapAt 16 (x.tx + 1) } }
  else s

/-- A command ends: its output goes to the data range, its completion entry after that (R283, R288). A completion of a
disabled queue is discarded (R281); a seat in reset sees none (R300). -/
def completeWith (h : Hdr) (status info0 info1 info2 : Nat) (data : List Byte) (s : State) : State :=
  let out := data.take h.len
  match h.seat with
  | .s =>
    let s := emit (.answer h (completionOf h status info0 info1 info2 s) out) s
    { s with seats := { s.seats with sBusy := false } }
  | .n =>
    let ps := pieces (out.length / 1408 + 1) 0 out
    ps.foldl (fun s p =>
      answerN h (completionOf h status (if 1 < ps.length || info0 = 0 then p.1 else info0) info1 info2 s) p.2 s) s
  | x =>
    let q := queueOf s x h.sq
    if (seatOf s x).inReset || q.busy == 0 then s
    else
      let left := q.busy - 1
      let s := modQueue x h.sq (fun q => { q with
        busy := left, discard := q.discard - 1, enabled := q.enabled && (q.enable || !(left == 0)) }) s
      let posts (s : State) : State := cqPost x h.sq (completionOf h status info0 info1 info2 s) s
      if q.enable && q.discard == 0 then (if out.isEmpty then posts s else hostPut x h.addr out posts s) else s

/-- A command ends with a status alone. -/
def complete (h : Hdr) (status : Nat) (s : State) : State := completeWith h status 0 0 0 [] s

/-! ### Commands whose data is on its way to the dies (R288) -/

/-- A command that was taken, with what its data has still to reach: it completes when that is nothing (log 77). -/
def awaits (h : Hdr) (info2 : Nat) (left : List (Nat × Nat)) (undo : Option (Upload × Option Upload)) (s : State) : State :=
  if left.isEmpty then completeWith h stOk 0 0 info2 [] s
  else { s with seats := { s.seats with awaiting := s.seats.awaiting ++ [⟨h, info2, left, undo⟩] } }

/-- What remains to reach the dies changes; the commands with nothing left complete, in the order of their acceptance. -/
def awaitChange (f : Await → List (Nat × Nat)) (s : State) : State :=
  let l := s.seats.awaiting.map fun w => { w with left := f w }
  let s := { s with seats := { s.seats with awaiting := l.filter fun w => !w.left.isEmpty } }
  (l.filter fun w => w.left.isEmpty).foldl (fun s w => completeWith w.hdr stOk 0 0 w.info2 [] s) s

/-- Bytes up to an address have reached a die: the oldest command that waits for them does so no longer. -/
def awaitArrive (d upTo : Nat) (s : State) : State :=
  match s.seats.awaiting.find? fun w => decide ((d, upTo) ∈ w.left) with
  | some v => awaitChange (fun w => if w = v then without (d, upTo) w.left else w.left) s
  | none => s

/-- Nothing more reaches a die: it is in reset, or the ring has lost what was on its way (R149). -/
def awaitGone (d : Nat) (s : State) : State := awaitChange (fun w => w.left.filter fun e => !(e.1 == d)) s

/-- A link that packets to these dies take goes DOWN: whether it carried the awaited ones is free (R149; log 77). -/
def awaitCut (l : List Nat) (s : State) : State :=
  if s.seats.awaiting.isEmpty then s
  else if chooses s then l.foldl (fun s d => awaitGone d s) (drawn s) else drawn s

/-- The contexts of a partition are gone. -/
def awaitUnloaded (n : Nat) (s : State) : State := awaitChange (fun w => if w.hdr.part = n then [] else w.left) s

/-- A command whose status is decided at acceptance: it has its effect only when the status is OK (R19). -/
def finish (h : Hdr) (status : Nat) (f : State → State) (s : State) : State :=
  if status = stOk then complete h stOk (f s) else complete h status s

/-- A command as the arbiter takes it: accepted, then run. -/
def taken (h : Hdr) (f : State → State) (s : State) : Res := .next (f (accept h s))

/-- The companion firmware runs: its duties wait while the main core is halted (R319) and in an activation restart (R451). -/
def firmwareRuns (s : State) : Bool := !s.pair.halted && !s.upd.restart

/-- A view's registers are reached: by the main core while it is not halted, by the checker-as-core while the pair is split, by neither in
ATTIC (R319, R337, R466). -/
def viewActs (s : State) (v : View) : Bool :=
  match v with
  | .int => !s.pair.halted && !s.upd.restart && !(s.boot == .off)
  | .chk => splitNow s && !s.upd.restart && !(s.boot == .off)
  | _ => true

/-- Whether the device accepts commands from a seat: not before the BARs have first left NOT_READY (R277), not while the
firmware does not run, not from a port in reset (R300). -/
def serving (s : State) (x : Seat) : Bool := s.seats.served && firmwareRuns s && !(seatOf s x).inReset

/-- A row that is a command: nothing happens where the device accepts none. -/
def command (h : Hdr) (f : State → State) (s : State) : Res := if serving s h.seat then taken h f s else .next s

/-- A command that the boot ROM also serves, to seat S, while no firmware image passes (R432). -/
def romCommand (h : Hdr) (f : State → State) (s : State) : Res :=
  if serving s h.seat || (s.upd.seatSOnly && h.seat == .s && !s.pair.halted) then taken h f s else .next s

/-- A status from the general rules for a command that names a partition (R292, R295): the other seat's partition, then an
EMPTY one. `empty` says whether an EMPTY partition is allowed. -/
def partChecks (s : State) (h : Hdr) (empty : Bool) : List (Bool × Nat) :=
  let p := part s h.part
  let none_ := p.st == 0 || p.st == 5
  [(decide (15 < h.part), eFormat),
   ((h.seat == .a || h.seat == .b) && !(ownerNo s h.part == seatNo h.seat) && !(p.st == 0) && decide (h.part ≤ 15), eRights),
   (none_ && !empty && decide (h.part ≤ 15), eState)]

/-- Seats N and S lack the right (R293). -/
def onlyAB (h : Hdr) : Bool × Nat := (h.seat == .n || h.seat == .s, eRights)

/-- Seats B and N lack the right (R293). -/
def onlyAS (h : Hdr) : Bool × Nat := (h.seat == .b || h.seat == .n, eRights)

/-- The rights of SAFETY_SET and OKAY_RELEASE (R275, R293) and the latched seal fault (R410). -/
def safetyRights (s : State) (h : Hdr) : List (Bool × Nat) :=
  [(h.seat == .b || h.seat == .n, eRights), (h.seat == .a && !sealRights s, eSeal), (s.sio.fault, eSeal)]

/-- A SAFETY_SET item is stored in eMRAM, in place of an earlier one of the same item and index (R412). -/
def storeSetting (item index : Nat) (c : Instr) (s : State) : State :=
  { s with upd := { s.upd with settings :=
      (s.upd.settings.filter fun e => !(e.1 == item * 256 + index)) ++ [(item * 256 + index, c)] } }

end Sys2Proof.Machine
end

