-- ==== Sys2Proof/Machine/Ring.lean ====
section
/-! DEFINITION. Machine/Ring.lean: the ring's links, blocks, packets, routing and time exchange (R134 to R155). -/

namespace Sys2Proof.Machine

/-! ### Links and ports (R134) -/

/-- The link at a node's east or west port. -/
def linkOf (node : Nat) (east : Bool) : Nat := if east then node % 5 else (node + 4) % 5

/-- Bit `k` of a mask of links. -/
def linkIn (mask k : Nat) : Bool := bitOf mask k

/-- The link at a port is up. -/
def portUp (s : State) (node : Nat) (east : Bool) : Bool := linkIn s.ring.up (linkOf node east)

/-- The neighbour at a port. -/
def neighbour (node : Nat) (east : Bool) : Nat := if east then (node + 1) % 5 else (node + 4) % 5

/-- The key of a port. -/
def portKey (node : Nat) (east : Bool) : Nat := 2 * node + bit (!east)

/-- A port of a node. -/
def portOf (s : State) (node : Nat) (east : Bool) : Port := tblGet {} s.ring.ports (portKey node east)

/-- `f` applied to a port. -/
def modPort (node : Nat) (east : Bool) (f : Port → Port) (s : State) : State :=
  { s with ring := { s.ring with ports := tblMod {} s.ring.ports (portKey node east) f } }

/-- A ring-port counter (R476, R478), by its offset in the group: the die's bank, or the companion's own. -/
def portCount (node : Nat) (east : Bool) (o k : Nat) (s : State) : State :=
  if node = 0 then modPort 0 east (fun p => { p with cnt := countUp p.cnt o k }) s
  else dieCount (node - 1) ((if east then 0x1100 else 0x1120) + o) k s

/-- One more in a die's error counter (R477); node 0 has none. -/
def dieError (node : Nat) (s : State) : State := if node = 0 then s else dieCount (node - 1) 0x1018 1 s

/-- Credits for a virtual channel: 32 block slots at first (R142). -/
def credits (p : Port) (vc : Nat) : Nat := tblGet 32 p.credits vc

/-! ### Directions (R135, R148) -/

/-- The links on the way east or west between two nodes. -/
def pathLinks (src dst : Nat) (east : Bool) : List Nat :=
  if east then (List.range ((dst + 5 - src) % 5)).map fun i => (src + i) % 5
  else (List.range ((src + 5 - dst) % 5)).map fun i => (src + 4 - i % 5 + 5) % 5

/-- Every link of a way is up in a view. -/
def pathUp (up src dst : Nat) (east : Bool) : Bool := (pathLinks src dst east).all (linkIn up)

/-- The links that a node knows to be up (R148). -/
def nodeView (s : State) (node : Nat) : Nat := if node = 0 then s.ring.up else (die s (node - 1)).linkView

/-- Whether a packet leaves east: the shorter way, or the other when that one is known to be broken (R135). DESIGN CHOICE: the shorter
way too where both are known to be broken (log 63). -/
def goesEast (up src dst : Nat) : Bool :=
  let short := (dst + 5 - src) % 5 == 1 || (dst + 5 - src) % 5 == 2
  if pathUp up src dst short then short else if pathUp up src dst (!short) then !short else short

/-! ### Blocks (R136, R137) -/

/-- Blocks of a packet. -/
def packetBlocks (p : Packet) : Nat := max 1 (ceilDiv p.len 64)

/-- Slot bits [75:0] of a header block (R137). -/
def headerBits (p : Packet) : Nat :=
  1 + p.vc % 4 * 4 + bit p.west * 16 + bit p.turned * 32 + p.dst % 8 * 64 + p.src % 8 * 512 + p.type % 64 * 4096 +
  p.len % 1024 * 2 ^ 18 + p.seq % 256 * 2 ^ 28 + p.addr % 2 ^ 32 * 2 ^ 36

/-- An 80-byte block: data area, slot bits [95:0], BCRC (R137). -/
def blockBytes (low : Nat) (bseq ack crvc crcnt : Nat) (data : List Byte) : List Byte :=
  let slot := low + bseq % 256 * 2 ^ 68 + ack % 256 * 2 ^ 76 + crvc % 4 * 2 ^ 84 + crcnt % 32 * 2 ^ 86
  let b := padTo 64 data ++ leBytes 12 slot
  b ++ leBytes 4 (crc32c b).toNat

/-- The packet that a header block announces (R137). -/
def headerPacket (slot : Nat) : Packet where
  vc := fld slot 3 2
  west := bitOf slot 4
  turned := bitOf slot 5
  dst := fld slot 8 6
  src := fld slot 11 9
  type := fld slot 17 12
  len := fld slot 27 18
  seq := fld slot 35 28
  addr := fld slot 67 36
  data := []

/-- The virtual channel whose credits the next block returns, with how many. DESIGN CHOICE: EVIDENCE before CTRL before BULK
(log 63). -/
def owedNext (p : Port) : Nat × Nat :=
  let vc := ([2, 1, 0].find? fun v => !(tblGet 0 p.owed v == 0)).getD 0
  (vc, min 31 (tblGet 0 p.owed vc))

/-- One block sent: BSEQ taken, ACK and returned credits filled in, kept among the last 64 for a retry (R140, R142). -/
def sendBlock (node : Nat) (east : Bool) (low : Nat) (data : List Byte) (s : State) : State :=
  let p := portOf s node east
  let o := owedNext p
  let b := blockBytes low p.nextBseq ((p.expect + 255) % 256) o.1 o.2 data
  let s := modPort node east (fun p => { p with
    nextBseq := (p.nextBseq + 1) % 256, owed := tblMod 0 p.owed o.1 (fun k => k - o.2),
    sent := (p.sent ++ [SentBlock.mk p.nextBseq 1 s.time.edges b]).drop (p.sent.length - 63) }) s
  emit (.block node east b) s

/-- All blocks of a packet in a row (R136, R143). -/
def sendPacket (node : Nat) (east : Bool) (p : Packet) (s : State) : State :=
  let s := (List.range (packetBlocks p)).foldl (fun s i =>
    sendBlock node east (if i = 0 then headerBits p else 2) (sub p.data (64 * i) 64) s) s
  let s := portCount node east 0x00 (packetBlocks p) s
  let s := portCount node east (if p.vc = 0 then 0x08 else if p.vc = 1 then 0x0C else 0x10) 1 s
  modPort node east (fun q => { q with credits := tblMod 32 q.credits p.vc (fun k => k - packetBlocks p) }) s

/-- The next packet of a channel: the oldest forwarded and the oldest local one in turn, each only with credit for all its blocks, so
that none overtakes another of its source and destination (R142 to R144). -/
def nextOf (p : Port) (vc : Nat) : Option (Packet × Option Bool) :=
  let first (fwd : Bool) : Option (Packet × Option Bool) :=
    (p.waiting.find? fun e => e.1.vc == vc && e.2.isSome == fwd).filter fun e => decide (packetBlocks e.1 ≤ credits p vc)
  let turn := !(decide (vc ∈ p.lastFwd))
  (first turn).orElse fun _ => first (!turn)

/-- The next packet of a port: EVIDENCE first, CTRL and BULK in turn (R143). -/
def choosePacket (p : Port) : Option (Packet × Option Bool) :=
  (nextOf p 2).orElse fun _ =>
    if p.lastVc = 1 then (nextOf p 0).orElse fun _ => nextOf p 1 else (nextOf p 1).orElse fun _ => nextOf p 0

/-- A ready packet of the port waits for credit (R142): the oldest forwarded or the oldest local one of a channel. -/
def creditShort (p : Port) : Bool :=
  [0, 1, 2].any fun vc => [true, false].any fun fwd =>
    (p.waiting.find? fun e => e.1.vc == vc && e.2.isSome == fwd).any fun e => decide (credits p vc < packetBlocks e.1)

/-- CREDIT_WAIT brought up to now: FABRIC cycles of 1.25 ns (R22, R476). -/
def creditCount (node : Nat) (east : Bool) (s : State) : State :=
  match (portOf s node east).starved with
  | some t => portCount node east 0x18 (2 * (s.time.edges - t)) (modPort node east (fun p => { p with starved := some s.time.edges }) s)
  | none => s

/-- What a port holds to send, or its credits, have changed: it waits for credit from now on, or no longer. -/
def creditSettle (node : Nat) (east : Bool) (s : State) : State :=
  modPort node east (fun p => { p with starved := if creditShort p then some s.time.edges else none }) (creditCount node east s)

/-- A packet has left the input buffer of a port: its blocks' credits are owed (R142). -/
def owe (node : Nat) (east : Bool) (p : Packet) (s : State) : State :=
  modPort node east (fun q => { q with owed := tblMod 0 q.owed p.vc (· + packetBlocks p) }) s

/-- The credits of a packet that came in by `src`, none for a local one. -/
def oweFrom (node : Nat) (src : Option Bool) (p : Packet) (s : State) : State :=
  match src with
  | some e => owe node e p s
  | none => s

/-- The first occurrence of `x` removed. -/
def removeOne {α : Type} [DecidableEq α] (x : α) : List α → List α
  | [] => []
  | y :: r => if y = x then r else y :: removeOne x r

/-- An output port sends its next packet, if one is ready and holds credit (R142, R143). -/
def portSend (node : Nat) (east : Bool) (s : State) : State :=
  if !portUp s node east then s
  else
    match choosePacket (portOf s node east) with
    | none => creditSettle node east s
    | some e =>
      let s := modPort node east (fun p => { p with
        waiting := removeOne e p.waiting
        lastFwd := if e.2.isSome then withElem e.1.vc p.lastFwd else without e.1.vc p.lastFwd
        lastVc := if e.1.vc = 2 then p.lastVc else e.1.vc }) s
      oweFrom node e.2 e.1 (creditSettle node east (sendPacket node east e.1 s))

/-- A packet joins the queue of an output port; `src` is the side it came in by, none for one of the node's own. -/
def portQueue (node : Nat) (east : Bool) (p : Packet) (src : Option Bool) (s : State) : State :=
  portSend node east (modPort node east (fun q => { q with waiting := q.waiting ++ [(p, src)] }) s)

/-- A packet leaves in its direction, is turned back at a DOWN port, or is discarded at a second one (R147). -/
def forwardPacket (node : Nat) (p : Packet) (src : Option Bool) (s : State) : State :=
  if portUp s node (!p.west) then portQueue node (!p.west) p src s
  else if p.turned || !portUp s node p.west then dieError node (oweFrom node src p s)
  else portCount node p.west 0x1C 1 (portQueue node p.west { p with turned := true, west := !p.west } src s)

/-- The next SEQ of a source, destination and channel (R137). -/
def seqKey (src dst vc : Nat) : Nat := (src * 8 + dst) * 4 + vc

/-- The SEQ that a node's next packet to a destination takes. -/
def nextSeqOf (s : State) (node dst vc : Nat) : Nat := tblGet 0 s.ring.seqNo (seqKey node dst vc)

/-- A node injects a packet of its own (R135, R138). -/
def inject (node dst vc type addr : Nat) (data : List Byte) (s : State) : State :=
  let k := seqKey node dst vc
  let q := nextSeqOf s node dst vc
  let s := { s with ring := { s.ring with seqNo := tblSet 0 s.ring.seqNo k ((q + 1) % 256) } }
  let p : Packet := ⟨vc, !goesEast (nodeView s node) node dst, false, dst, node, type, data.length, q, addr, data⟩
  forwardPacket node p none s

/-- A broadcast of the companion, sent both ways; each node acts once on its SEQ (R147, R148). The SEQ of a RING_STATE is kept for
RING_STATUS (R162). -/
def broadcast (type : Nat) (data : List Byte) (s : State) : State :=
  let k := seqKey 0 7 1
  let q := nextSeqOf s 0 7 1
  let s := { s with ring := { s.ring with
    seqNo := tblSet 0 s.ring.seqNo k ((q + 1) % 256), stateSeq := if type = 12 then q else s.ring.stateSeq } }
  let one (west : Bool) (s : State) : State :=
    if portUp s 0 (!west) then portQueue 0 (!west) ⟨1, west, false, 7, 0, type, data.length, q, 0, data⟩ none s else s
  one true (one false s)

/-! ### Receiving (R139, R140, R147) -/

/-- The virtual channel that a TYPE must use, none for an unknown TYPE (R138). -/
def typeVc (t : Nat) : Option Nat :=
  if t = 1 ∨ t = 2 ∨ t = 3 then some 0
  else if t = 8 ∨ t = 9 ∨ t = 10 ∨ t = 11 ∨ t = 12 then some 1
  else if t = 16 then some 2 else none

/-- A packet that a node discards (R139, R25). -/
def badPacket (node : Nat) (p : Packet) : Bool :=
  !(typeVc p.type == some p.vc) || p.dst == 5 || p.dst == 6 || (p.dst == 7 && !(p.src == 0)) ||
  (!(node == 0) && p.vc == 1 && !(p.src == 0))

/-- A packet is delivered to a node; a CTRL packet for node 0 signals its source (R330). -/
def deliver (node : Nat) (p : Packet) (s : State) : State :=
  let s := { s with ring := { s.ring with inbox := s.ring.inbox ++ [(node, p)] } }
  if node = 0 ∧ p.vc = 1 ∧ 1 ≤ p.src ∧ p.src ≤ 4 then icuEvent (35 + p.src) s else s

/-- A whole packet that came in at a port of a node: for this node, a broadcast, or for another (R139, R147). What is not passed on
frees its place in the input buffer at once (R142). -/
def packetAt (node : Nat) (east : Bool) (p : Packet) (s : State) : State :=
  if p.dst = 7 ∧ badPacket node p = false then
    if node = 0 || (node, p.seq) ∈ s.ring.seen then owe node east p s
    else
      let s := { s with ring := { s.ring with seen := ((node, p.seq) :: s.ring.seen).take 64 } }
      let s := deliver node p s
      if portUp s node (!p.west) then portQueue node (!p.west) p (some east) s else owe node east p s
  else if p.dst = node ∨ p.dst = 5 ∨ p.dst = 6 ∨ p.dst = 7 then
    let s := owe node east p s
    if badPacket node p then dieError node s else deliver node p s
  else forwardPacket node p (some east) s

/-- Slot field [hi:lo] of a block. -/
def slotFld (b : List Byte) (hi lo : Nat) : Nat := fld (rd b 64 16) hi lo

/-- The receiving side of an accepted block: assembly of the packet and its delivery (R136). -/
def blockPayload (node : Nat) (east : Bool) (b : List Byte) (s : State) : State :=
  let kind := slotFld b 1 0
  let part : Option (Packet × List Byte) :=
    if kind = 1 then some (headerPacket (rd b 64 16), b.take 64)
    else if kind = 2 then (portOf s node east).partial_.map fun x => (x.1, x.2 ++ b.take 64)
    else none
  match part with
  | none => s
  | some (p, d) =>
    let s := portCount node east 0x04 1 s
    if p.len ≤ d.length then
      packetAt node east { p with data := d.take p.len } (modPort node east (fun q => { q with partial_ := none }) s)
    else modPort node east (fun q => { q with partial_ := some (p, d) }) s

/-- Blocks after the acknowledged one; an ACK that names no kept block changes nothing (R140). -/
def unacked (ack : Nat) (l : List SentBlock) : List SentBlock :=
  if l.any fun e => e.bseq == ack then (l.dropWhile fun e => !(e.bseq == ack)).drop 1 else l

/-- LINK_BLOCK_RECEIVE (R136 to R147): BCRC and BSEQ are checked; an accepted block acknowledges, returns credits and brings
its packet; then the port sends its next packet, or an idle block. -/
def execLinkBlockReceive (node : Fin 5) (east : Bool) (bytes : List Byte) (s : State) : Res :=
  .next (if !portUp s node east || !(bytes.length == 80) then s
  else
    let k := linkOf node east
    if !(rd bytes 76 4 == (crc32c (bytes.take 76)).toNat) then
      { s with ring := { s.ring with bcrc := tblMod 0 s.ring.bcrc k (fun n => wrapAt 14 (n + 1)) } }
    else if !(slotFld bytes 75 68 == (portOf s node east).expect) then
      modPort node east (fun p => { p with lastRecv := s.time.edges }) s
    else
      let vc := slotFld bytes 85 84
      let s := modPort node east (fun p => { p with
        expect := (p.expect + 1) % 256, lastRecv := s.time.edges, sent := unacked (slotFld bytes 83 76) p.sent,
        credits := tblMod 32 p.credits vc (fun n => min 32 (n + slotFld bytes 90 86)) }) s
      let s := blockPayload node east bytes s
      match choosePacket (portOf s node east) with
      | some _ => portSend node east s
      | none => creditSettle node east (sendBlock node east 3 [] s))

/-! ### Links going DOWN (R141, R147, R148) -/

/-- What one end of a link that goes DOWN still holds to send is turned back or discarded; a broadcast copy ends there
(R147). -/
def portLost (node : Nat) (east : Bool) (s : State) : State :=
  let s := creditCount node east s
  let l := (portOf s node east).waiting
  let s := modPort node east (fun p => { p with waiting := [], partial_ := none, sent := [], credits := [], owed := [], starved := none }) s
  l.foldl (fun s e => if e.1.dst = 7 then oweFrom node e.2 e.1 s else forwardPacket node e.1 e.2 s) s

/-- Both ways from the companion to a die are broken (R151). -/
def dieCut (up d : Nat) : Bool := !(pathUp up 0 (d + 1) true) && !(pathUp up 0 (d + 1) false)

/-- The dies to which both ways are broken, each with the edge since when (R151). -/
def cutDies (s : State) : State :=
  eachDie (fun d s => modDie d (fun x => { x with
    cut := if dieCut s.ring.up d then x.cut.orElse (fun _ => some s.time.edges) else none }) s) s

/-- Both directions of a link are DOWN, with its cause (R141); RING_STATE is broadcast (R148). -/
def linkGoesDown (k cause : Nat) (s : State) : State :=
  if !linkIn s.ring.up k then s
  else
    let lost := [0, 1, 2, 3].filter fun d => if goesEast s.ring.up 0 (d + 1) then decide (k ≤ d) else decide (d < k)
    let s := { s with ring := { s.ring with
      up := s.ring.up - 2 ^ k, cause := tblSet 0 s.ring.cause k cause } }
    let s := cutDies (portLost k true (portLost ((k + 1) % 5) false s))
    let s := awaitCut lost s
    icuEvent 40 (broadcast 12 [BitVec.ofNat 8 s.ring.up] s)

/-- The two ends of a link: node and side. -/
def linkEnds (k : Nat) : List (Nat × Bool) := [(k, true), ((k + 1) % 5, false)]

/-- A port has sent a block 8 times with no acknowledgement (R141). -/
def sentOut (p : Port) : Bool := p.sent.any fun b => decide (8 ≤ b.sends)

/-- What takes a link direction DOWN holds: 1 a block sent 8 times, 2 no block has passed its BCRC check for 1 µs, 3 block alignment
lost for 1 µs, which only the receiver sees (R141). -/
def downCause (s : State) (k cause : Nat) : Bool :=
  if cause = 1 then (linkEnds k).any fun e => sentOut (portOf s e.1 e.2)
  else if cause = 2 then (linkEnds k).any fun e => decide ((portOf s e.1 e.2).lastRecv + 400 ≤ s.time.edges)
  else cause == 3

/-- LINK_DOWN in service: logged (R141, R486). -/
def execLinkDown (link : Fin 5) (cause : Fin 4) (s : State) : Res :=
  .next (if !linkIn s.ring.up link || !downCause s link cause then s
    else linkGoesDown link cause (logError 4 link 255 cause 0 s))

/-- A block as it is sent again: a time block carries no valid stamp (R140, R153). -/
def againBytes (b : List Byte) : List Byte :=
  if slotFld b 1 0 = 0 then
    let c := zeroBytes 64 ++ sub b 64 12
    c ++ leBytes 4 (crc32c c).toNat
  else b

/-- 600 ns without an acknowledgement of the oldest block: the port sends again from the block after ACK (R140); a block sent 8
times in vain takes the link DOWN (R141). -/
def execLinkRetryTimeout (node : Fin 5) (east : Bool) (s : State) : Res :=
  let p := portOf s node east
  .next (if portUp s node east && (p.sent.head?.any fun b => decide (b.at_ + 240 ≤ s.time.edges)) then
    if sentOut p then linkGoesDown (linkOf node east) 1 (logError 4 (linkOf node east) 255 1 0 s)
    else
      let l := p.sent.map fun b => { b with sends := b.sends + 1, at_ := s.time.edges, bytes := againBytes b.bytes }
      let s := l.foldl (fun s b => emit (.block node east b.bytes) s) s
      let s := portCount node east 0x14 p.sent.length s
      let r := tblMod 0 s.ring.retries (linkOf node east) (fun n => wrapAt 14 (n + 1))
      modPort node east (fun p => { p with sent := l }) { s with ring := { s.ring with retries := r } }
  else s)

/-- A link has trained (R141, R459): both directions start afresh. -/
def linkComesUp (k : Nat) (s : State) : State :=
  if linkIn s.ring.up k then s
  else
    let fresh (p : Port) : Port := { cnt := p.cnt, cntShadow := p.cntShadow, lastRecv := s.time.edges }
    let s := modPort ((k + 1) % 5) false fresh (modPort k true fresh s)
    cutDies { s with ring := { s.ring with up := s.ring.up + 2 ^ k, cause := tblSet 0 s.ring.cause k 0 } }

/-- A RING_STATE broadcast reaches a node, which routes by it from now on (R148); the last SEQ is kept (R162). -/
def execRingState (node : Fin 5) (up : BitVec 5) (seq : Nat) (s : State) : Res :=
  .next (if node = 0 then s
    else
      let d := node.val - 1
      if (die s d).inReset || seq % 256 ∈ (die s d).rsSeen then s
      else modDie d (fun x => { x with linkView := up.toNat, rsSeen := (seq % 256 :: x.rsSeen).take 8 }) s)

/-! ### Commands to the dies (R150) -/

/-- The companion sends a CMD of a kind to a die, with what it says: kept until acknowledged. -/
def sendCmd (d kind : Nat) (args : List Nat) (s : State) : State :=
  let q := nextSeqOf s 0 (d + 1) 1
  let east := goesEast s.ring.up 0 (d + 1)
  let s := modDie d (fun x => { x with cmds := x.cmds ++ [⟨q, kind, args, east, s.time.edges, s.time.edges⟩] }) s
  inject 0 (d + 1) 1 8 0 [] s

/-- The kinds of CMD. -/
def cmdLaunch : Nat := 1
def cmdFence : Nat := 2
def cmdCause : Nat := 3
def cmdDescriptor : Nat := 4
def cmdScanReset : Nat := 5
def cmdDerived : Nat := 6
def cmdSnapshot : Nat := 7

/-- The die has executed a CMD of this SEQ. -/
def executedSeq (x : Die) (q : Nat) : Bool := x.executed.any fun e => e.1 == q

/-- The die acknowledges a CMD with its SEQ (R138, R150). -/
def ackCmd (d q : Nat) (s : State) : State := inject (d + 1) 0 1 9 q [] s

/-- A CMD that says this reaches a die: executed once and acknowledged; one whose SEQ the die has executed before is only
acknowledged again, and one that the companion has not sent does not arrive (R150). The die remembers its last 64. -/
def cmdArrives (d kind : Nat) (args : List Nat) (f : State → State) (s : State) : State :=
  let x := die s d
  if x.inReset then s
  else
    match x.cmds.find? fun c => c.kind == kind && c.args == args && !executedSeq x c.seq with
    | some c => ackCmd d c.seq (f (modDie d (fun x => { x with executed := ((c.seq, kind, args) :: x.executed).take 64 }) s))
    | none =>
      match x.executed.find? fun e => e.2.1 == kind && e.2.2 == args with
      | some e => ackCmd d e.1 s
      | none => s

/-- 10 µs without an acknowledgement: the CMD goes again the other way with the same SEQ (R150). -/
def execCmdResendTimeout (die_ : Fin 4) (seq : Nat) (s : State) : Res :=
  let d : Nat := die_
  .next (match (die s d).cmds.find? fun c => c.seq == seq with
    | some c =>
      if c.sent + 4000 ≤ s.time.edges then
        let s := modDie d (fun x => { x with cmds := x.cmds.map fun c =>
          if c.seq = seq then { c with east := !c.east, sent := s.time.edges } else c }) s
        forwardPacket 0 ⟨1, c.east, false, d + 1, 0, 8, 0, seq, 0, []⟩ none s
      else s
    | none => s)

/-! ### TB_SAFE over the ring (R153 to R155) -/

/-- How far a die's copy stands from TB_SAFE: it slews towards its target by at most 1 ns in every 10 µs (R154). -/
def copyOffset (x : Die) (edges : Nat) : Int :=
  let room : Int := ((edges - x.tbAt) / 4000 : Nat)
  x.tbOffset + clampInt (-room) room (x.tbTarget - x.tbOffset)

/-- A node's TB_SAFE value: the companion's own, or the die's copy (R28). -/
def nodeTime (s : State) (node : Nat) : Int := if node = 0 then tbSafe s else tbSafe s + copyOffset (die s (node - 1)) s.time.edges

/-- The TB_SAFE copy of a die as a count. -/
def dieTime (s : State) (d : Nat) : Nat := (nodeTime s (d + 1)).toNat

/-- The side from which an AX node takes time: its path to node 0, or the other neighbour where that path is broken (R154). -/
def timeSide (s : State) (node : Nat) : Bool :=
  let short := node == 3 || node == 4
  if pathUp s.ring.up node 0 short then short else !short

/-- TIME_BLOCK_SEND (R153): the block carries the sender's time and its stamps of the last block received. -/
def execTimeBlockSend (node : Fin 5) (east : Bool) (s : State) : Res :=
  .next (if portUp s node east then
    let p := portOf s node east
    let t := nodeTime s node
    let s := modPort node east (fun p => { p with txStamp := t }) s
    sendBlock node east 0 (leBytes 8 (unsgn 64 t) ++ leBytes 8 (unsgn 64 p.rxTime) ++ leBytes 8 (unsgn 64 p.rxStamp)) s
  else s)

/-- A measured offset of a die's copy from its source: the copy is set once, then slewed towards it; more than 10 ns is unsure
(R154, R155). -/
def timeOffset (d src : Nat) (off : Int) (s : State) : State :=
  let x := die s d
  let e := s.time.edges
  if !x.tbSet then
    modDie d (fun x => { x with
      tbOffset := x.tbOffset - off, tbTarget := x.tbOffset - off, tbSet := true, tbSource := src, tbMeas := 0, tbAt := e }) s
  else
    let now := copyOffset x e
    let bad := decide (10 < off.natAbs)
    modDie d (fun x => { x with
      tbOffset := now, tbTarget := now - off, tbAt := x.tbAt + (e - x.tbAt) / 4000 * 4000, tbSource := src,
      tbMeas := off, unsure := bad, unsureCnt := if bad && !x.unsure then wrapAt 16 (x.unsureCnt + 1) else x.unsureCnt }) s

/-- TIME_BLOCK_RECEIVE (R153 to R155): `theirTime` is the sender's value at its send stamp, none in a block with no valid stamp, as
one sent again, which is counted and not used (R477); `echo` is this node's send stamp with the sender's receive stamp of it, where
the sender has received one. The link delay and the offset are halves of sums; DESIGN CHOICE: an odd half is rounded down (log 63). -/
def execTimeBlockReceive (node : Fin 5) (east : Bool) (theirTime : Option Int) (echo : Option (Int × Int)) (s : State) : Res :=
  .next (if !portUp s node east then s
  else
    match theirTime with
    | none => dieError node s
    | some t =>
      let now := nodeTime s node
      let s := modPort node east (fun p => { p with rxStamp := now, rxTime := t }) s
      match echo with
      | none => s
      | some (a, b) =>
        let s := modPort node east (fun p => { p with delay := ((b - a) + (now - t)) / 2 }) s
        if node = 0 || (die s (node - 1)).inReset || !(timeSide s node == east) then s
        else timeOffset (node - 1) (neighbour node east) (((a - b) + (now - t)) / 2) s)

/-- The registers of the ring that survive neither a D reset nor NAP return to their Reset values; a link that stays DOWN through one reads
the cause 2 (R13, R162; log 78). -/
def ringFields (s : State) : State :=
  let down := (List.range 5).filter fun k => !linkIn s.ring.up k
  let causes := down.foldl (fun t k => tblSet 0 t k 2) s.ring.cause
  eachDie (fun d s => modDie d (fun x => { x with tbMeas := 0, unsureCnt := 0 }) s)
    { s with ring := { s.ring with discovery := 0, mismatch := 0, retries := [], bcrc := [], stateSeq := 0, cause := causes } }

end Sys2Proof.Machine
end

