-- ==== Sys2Proof/Machine/Rings.lean ====
section
/-! DEFINITION. Machine/Rings.lean: where the parts of a stream context stand in its die's cellar, and how they are read and written
(R39 to R41, R88, R149, R158, R169, R179). `x` is the die, `c` the context. -/

namespace Sys2Proof.Machine

/-! ### Places (R169) -/

/-- The format of a context. -/
def ctxFmt (c : Ctx) : Fmt := (Fmt.ofCode c.fmt).getD .s24

/-- Bytes of one ring row: a channel's samples, or one row of a MESSAGE or DERIVED ring (R166, R169). -/
def ctxRow (c : Ctx) : Nat := rowSize true (ctxFmt c) (if c.kind = 1 then c.ringLength else c.channels)

/-- The data address of the ring. -/
def ringAt (c : Ctx) : Nat := 64 * c.ringBase

/-- Bytes of the ring. -/
def ringLen (c : Ctx) : Nat := ctxRow c * (if c.kind = 1 then c.channels else c.ringLength)

/-- The data address of the block index, which follows the ring. -/
def indexAt (c : Ctx) : Nat := ringAt c + roundUp (ringLen c) 64

/-- Entries of the block index. -/
def indexLen (c : Ctx) : Nat := if c.kind = 1 then c.ringLength / max 1 c.blockSamples else 0

/-- The data address of a DERIVED context's staging area, behind its ring and SCAN state. -/
def stageAt (c : Ctx) : Nat := indexAt c + roundUp (16 * indexLen c) 64 + roundUp c.stateLength 64

/-- Offset of sample or row `a` of channel `ch` in the ring, and its element number there. -/
def ringPlace (c : Ctx) (a ch : Nat) : Nat × Nat :=
  if c.kind = 1 then (ch * ctxRow c, a % max 1 c.ringLength) else (a % max 1 c.ringLength * ctxRow c, ch)

/-- The bytes that hold element `i` of a cellar row: offset, length, place in the word. -/
def cellSpan (f : Fmt) (i : Nat) : Nat × Nat × Nat :=
  if f = .s24 then (3 * i, 3, 0) else if f = .s48 then (8 * i, 8, 0) else (4 * (i / Fmt.perWord f), 4, i % Fmt.perWord f)

/-! ### Reading -/

/-- The oldest number that the ring still holds. -/
def ringOldest (c : Ctx) : Nat := c.writeCount - c.ringLength

/-- The ring holds number `a` as data: written, not overwritten, no filling for a gap (R94, R149, R179). -/
def ringHas (c : Ctx) (a : Int) : Bool :=
  decide ((ringOldest c : Int) ≤ a) && decide (a < (c.writeCount : Int)) && !(decide (a.toNat ∈ c.gaps))

/-- The data address and length of the bytes that hold an element of the ring, and its place in them. -/
def ringCell (c : Ctx) (a ch : Nat) : Nat × Nat × Nat :=
  let p := ringPlace c a ch
  let q := cellSpan (ctxFmt c) p.2
  (ringAt c + p.1 + q.1, q.2)

/-- An element of the ring as it stands there. -/
def ringRaw (x : Die) (c : Ctx) (a ch : Nat) : Int :=
  let q := ringCell c a ch
  elemAt true (memRead x.cellar q.1 q.2.1) (ctxFmt c) 0 q.2.2

/-- An element of the ring; the code 0b10 of a T2 row is read as 0 (R38). -/
def ringElem (x : Die) (c : Ctx) (a ch : Nat) : Int := if t2Bad (ctxFmt c) (ringRaw x c a ch) then 0 else ringRaw x c a ch

/-- The element lies in this word. -/
def ringInWord (c : Ctx) (a ch w : Nat) : Bool :=
  let q := ringCell c a ch
  decide (8 * w < q.1 + q.2.1) && decide (q.1 < 8 * w + 8)

/-- The element lies in a poisoned word (R158). -/
def ringPoisoned (x : Die) (c : Ctx) (a ch : Nat) : Bool := x.poison.any (ringInWord c a ch)

/-- A block-index entry. How its four values fill 16 bytes is not stated; DESIGN CHOICE: 62 bits of absolute number, 34 of stamp and
era, then SEQ and scale word (log 62). -/
def entryBytes (first stamp seq scale : Nat) : List Byte :=
  leBytes 16 (first % 2 ^ 62 + stamp % 2 ^ 34 * 2 ^ 62 + seq % 65536 * 2 ^ 96 + scale % 65536 * 2 ^ 112)

/-- An entry read: first sample, stamp with its era above 32 bits, SEQ, scale word. -/
def entryRead (b : List Byte) : Nat × Nat × Nat × Nat :=
  let v := ofLe b
  (fld v 61 0, fld v 95 62, fld v 111 96, fld v 127 112)

/-- The index entry of the block that holds sample `a`, where the ring holds that block. -/
def entryOf (x : Die) (c : Ctx) (a : Nat) : Option (Nat × Nat × Nat × Nat) :=
  let b := max 1 c.blockSamples
  let first := a / b * b
  if !(c.kind == 1) || !(ringHas c first) then none
  else
    let e := entryRead (memRead x.cellar (indexAt c + 16 * (a / b % max 1 (indexLen c))) 16)
    if e.1 = first then some e else none

/-- The index entry of the block that holds sample `a` takes part of this word. -/
def entryInWord (c : Ctx) (a w : Nat) : Bool :=
  let e := indexAt c + 16 * (a / max 1 c.blockSamples % max 1 (indexLen c))
  c.kind == 1 && decide (8 * w < e + 16) && decide (e < 8 * w + 8)

/-- The entries of the blocks that the ring holds, oldest first. -/
def entriesOf (x : Die) (c : Ctx) : List (Nat × Nat × Nat × Nat) :=
  let b := max 1 c.blockSamples
  (List.range (indexLen c + 1)).filterMap fun i => entryOf x c (ringOldest c + i * b)

/-- A sample or row as a frame reads it, with its scale word and whether the ring holds it. Absent positions and poisoned words
read 0 (R94, R158, R183). DESIGN CHOICE: a position with no index entry carries the context's SCALE (log 60). -/
def ringSample (x : Die) (c : Ctx) (seen : Nat) (a : Int) (ch : Nat) : Int × BitVec 16 × Bool :=
  if ringHas c a && decide (a < (seen : Int)) then
    let w := ((entryOf x c a.toNat).map (·.2.2.2)).getD c.scale
    (if ringPoisoned x c a.toNat ch then 0 else ringElem x c a.toNat ch, BitVec.ofNat 16 w &&& 0xFFFE, true)
  else (0, BitVec.ofNat 16 c.scale &&& 0xFFFE, false)

/-! ### Writing -/

/-- The byte in a row at which an element that begins a word or group lies. -/
def cellByte (f : Fmt) (i : Nat) : Nat := (cellSpan f i).1

/-- The parts of the ring that `n` numbers from `a` on take: offset, channel, place of the first among them, how many. A SAMPLE ring has
a row for each channel; numbers wrap at the ring's length (R169). -/
def ringParts (c : Ctx) (a n : Nat) : List (Nat × Nat × Nat × Nat) :=
  let p := a % max 1 c.ringLength
  let m := min n (c.ringLength - p)
  let l := [(p, 0, m), (0, m, n - m)].filter fun e => decide (0 < e.2.2)
  if c.kind = 1 then (List.range c.channels).flatMap fun ch => l.map fun e => (ch * ctxRow c + cellByte (ctxFmt c) e.1, ch, e.2.1, e.2.2)
  else l.map fun e => (e.1 * ctxRow c, 0, e.2.1, e.2.2)

/-- The bytes of a part of some samples or rows. -/
def partBytes (c : Ctx) (rows : List (List Int)) (q : Nat × Nat × Nat × Nat) : List Byte :=
  let l := (rows.drop q.2.2.1).take q.2.2.2
  if c.kind = 1 then rowBytes true (ctxFmt c) (l.map fun r => r.getD q.2.1 0)
  else l.flatMap (rowBytes true (ctxFmt c))

/-- Samples or rows written from number `a` on into a ring that begins at `base`. -/
def ringFill (c : Ctx) (base a : Nat) (rows : List (List Int)) (m : List Host.Cell) : List Host.Cell :=
  (ringParts c a rows.length).foldl (fun m q => memWrite m (base + q.1) (partBytes c rows q)) m

/-- `n` rows of zeros. -/
def zeroRows (c : Ctx) (n : Nat) : List (List Int) := List.replicate n (List.replicate c.channels 0)

/-- Marks of rows that have left the ring are dropped. -/
def ctxPrune (c : Ctx) : Ctx :=
  { c with gaps := c.gaps.filter (fun a => decide (ringOldest c ≤ a)), stamps := c.stamps.filter fun x => decide (ringOldest c ≤ x.1) }

/-- `n` more numbers, the last of which that stay in the ring are marked as a gap (R149, R179). -/
def ctxGap (n : Nat) (c : Ctx) : Ctx :=
  let k := min n c.ringLength
  ctxPrune { c with
    writeCount := wrapAt 64 (c.writeCount + n)
    gaps := c.gaps ++ (List.range k).map fun i => c.writeCount + n - k + i }

/-! ### SCAN state copies (R88, R169) -/

/-- S24 values of one copy. -/
def scanLen (c : Ctx) : Nat := c.stateLength / 2 / 3

/-- The address of a copy: the committed one first. -/
def scanAt (c : Ctx) (work : Bool) : Nat := 64 * c.stateBase + (if work then c.stateLength / 2 else 0)

/-- A copy of the SCAN state, S24 values packed as in the cellar. -/
def scanRead (x : Die) (c : Ctx) (work : Bool) : List Int :=
  (List.range (scanLen c)).map fun i => sgn 24 (ofLe (memRead x.cellar (scanAt c work + 3 * i) 3))

/-- A copy's bytes. -/
def scanBytes (c : Ctx) (l : List Int) : List Byte := (l.take (scanLen c)).flatMap fun v => leBytes 3 (unsgn 24 v)

end Sys2Proof.Machine
end

