-- ==== Sys2Proof/Machine/Cellar.lean ====
section
/-! DEFINITION. Machine/Cellar.lean: what is common to every access to a die's cellar: writes, counters, poison, WRITE packets
(R111, R138, R146, R158, R476). -/

namespace Sys2Proof.Machine

/-- Cellar bytes written: poison of the words written clears; the write counter moves on (R158, R476). -/
def cellarWrite (d a : Nat) (b : List Byte) (s : State) : State :=
  let c := (die s d).wrCarry + b.length
  dieCount d 0x1014 (c / 4096) (modDie d (fun x => { x with
    cellar := memWrite x.cellar a b, wrCarry := c % 4096
    poison := x.poison.filter fun w => decide (8 * w + 8 ≤ a) || decide (a + b.length ≤ 8 * w) }) s)

/-- The read counter moves on (R476). -/
def cellarReadCount (d n : Nat) (s : State) : State :=
  let c := (die s d).rdCarry + n
  dieCount d 0x1010 (c / 4096) (modDie d (fun x => { x with rdCarry := c % 4096 }) s)

/-- Poisoned words that a range meets (R158). -/
def poisonIn (x : Die) (a n : Nat) : Nat := (x.poison.filter fun w => decide (8 * w < a + n) && decide (a < 8 * w + 8)).length

/-- `n` bytes as WRITE packets of at most 512 from a node to another, from a data address that is a multiple of 64 (R136, R138). -/
def writePackets (src node : Nat) : Nat → Nat → List Byte → State → State
  | 0, _, _, s => s
  | k + 1, a, b, s => if b.isEmpty then s else writePackets src node k (a + 512) (b.drop 512) (inject src node 0 1 (a / 64) (b.take 512) s)

/-- Bytes, of which some are not written, sent as WRITE packets of whole units with a byte to write (R46, R136 to R138). -/
def writeCells (src node a : Nat) (l : List (Option Byte)) (s : State) : State :=
  (unitRuns (l.length / 64 + 1) 0 l).foldl (fun s e => inject src node 0 1 ((a + e.1) / 64) e.2 s) s

/-- Bytes put into the cellar of die `e` by die `d`: over the ring as WRITE packets, or directly into its own (R20, R21, R46, R146). -/
def cellarPut (d e a : Nat) (l : List (Option Byte)) (s : State) : State :=
  if d = e then (cellRuns (l.length + 1) 0 l).foldl (fun s r => cellarWrite d (a + r.1) r.2 s) s
  else writeCells (d + 1) (e + 1) a l s

/-- A constant as the cellar holds it: scale words up to a word boundary, then rows; each S24 row is filled to a group, and positions of
blocks with M = 0 are not written (R40, R41, R46, R216). DESIGN CHOICE: the device writes the constant into its cellar, and it never writes
the T2 code 0b10 (R38): an element delivered with that code stands there as 0, and no later read of it counts a fault (log 84). -/
def constCells (body : List Byte) : List (Option Byte) :=
  let t := readTensor body 0 (readHdr body 0)
  let w := scaleBytes t.scales
  (padTo (roundUp w.length 4) w).map some ++ areaCells true t

/-- The bytes that a constant takes in the cellar, not written ones as 0. -/
def constImage (body : List Byte) : List Byte := (constCells body).map (·.getD 0)

/-- Cellar bytes read back by the die itself. -/
def cellarBytes (s : State) (d a n : Nat) : List Byte := memRead (die s d).cellar a n

end Sys2Proof.Machine
end

