-- ==== Sys2Proof/Machine/Publish.lean ====
section
/-! DEFINITION. Machine/Publish.lean: escalation windows, what a published verdict does, and the result record
(R178, R179, R193 to R197, R245, R261 to R264, R289, R290). -/

namespace Sys2Proof.Machine

/-- Verdict codes (R196). -/
def vBelieved : Nat := 1
def vDoubted : Nat := 2
def vUnproven : Nat := 3
def vLate : Nat := 4
def vRefused : Nat := 5

/-! ### Reading the layout -/

/-- A frame plan of a partition. -/
def planRec (s : State) (n p : Nat) : Option PlanRec := (part s n).layout.bind fun l => l.plans[p]?

/-- A stream of a partition. -/
def streamRec (s : State) (n i : Nat) : Option StreamRec := (part s n).layout.bind fun l => l.streams[i]?

/-- The index of the plan that names a region (R221). -/
def planOfRegion (s : State) (n r : Nat) : Option Nat :=
  (part s n).layout.bind fun l => (List.range l.plans.length).find? fun i => (l.plans.getD i default).region == r

/-- The context slots of a stream, by die (R210). -/
def streamSlots (s : State) (n i : Nat) : List (Nat × Nat) := tblGet [] (part s n).slots i

/-- The slot of a stream on a die. -/
def slotOn (s : State) (n i d : Nat) : Option Nat := ((streamSlots s n i).find? fun e => e.1 == d).map (·.2)

/-- The streams of a plan, by index. -/
def planStreams (s : State) (n p : Nat) : List Nat := ((planRec s n p).map fun r => r.streams.map (·.stream)).getD []

/-- Die `d` is there: released, announced, not failed, not in NAP. -/
def diePresent (s : State) (d : Nat) : Bool := (die s d).st == 3 || (die s d).st == 4

/-- The die of a replica holds it no more: ABSENT or FAILED. -/
def dieLost (s : State) (d : Nat) : Bool := (die s d).st == 5 || (die s d).st == 6

/-- The replica that names a stream: on its home die, else on its lowest-numbered present replica die (R210). -/
def leadSlot (s : State) (n i : Nat) : Option (Nat × Nat) :=
  let l := streamSlots s n i
  let home := ((streamRec s n i).map (·.home)).getD 0
  ((if dieLost s home then none else l.find? fun e => e.1 == home)).orElse fun _ =>
    [0, 1, 2, 3].findSome? fun d => if dieLost s d then none else l.find? fun e => e.1 == d

/-- LEAD_STREAM of R195: the package-wide index of that replica. -/
def leadIndex (s : State) (n i : Nat) : Nat := ((leadSlot s n i).map fun e => 16384 * e.1 + e.2).getD 0xFFFF

/-- The integrity record of a region. -/
def integOf (s : State) (n r : Nat) : IntegRec := ((regionRec s n r).map (·.integ)).getD default

/-- An operator takes or leaves a tensor whose outermost extent varies (R66): an operand that the layout marks, the rows of a MESSAGE
stream, the output of TOPK along the outermost axis. -/
def opVaries (l : Layout) (op : Operator TRef) : Bool :=
  anyOperand (·.vary) op || match op with
  | .window i => ((l.streams[i]?).map (·.kind)) == some 2
  | .resample none i _ _ _ _ _ => ((l.streams[i]?).map (·.kind)) == some 2
  | .topk x a k _ => a == 0 && decide (x.shape.headD 0 < k)
  | _ => false

/-- The output descriptors of a region. The outermost extent of one varies only where an operator of the region's programs works on such a
tensor, and not where it feeds a DERIVED stream whose MAX_ROWS is 0, which says that it is fixed (R66, R209). -/
def regionOuts (s : State) (n g : Nat) : List OutRec :=
  match (part s n).layout, regionRec s n g with
  | some l, some r =>
    let vary := r.progs.any fun p => (Config.codeOps p.code).any (opVaries l)
    r.outputs.map fun o => { o with vary := vary && ((l.streams[o.derived]?).map (·.maxRows)) != some 0 }
  | _, _ => []

/-! ### Escalation (R264) -/

/-- DOUBTED and UNPROVEN entries in a region's window. -/
def winCount (s : State) (n r : Nat) : Nat := ((regionRt s n r).window.filter id).length

/-- Entries in a region's window. -/
def winFill (s : State) (n r : Nat) : Nat := (regionRt s n r).window.length

/-- One entry, newest first; K within W latch SAFE (R264, R265). -/
def enterWindow (n r : Nat) (counts : Bool) (s : State) : State :=
  let s := modRegion n r (fun x => { x with window := (counts :: x.window).take (sealW s) }) s
  if sealK s ≤ winCount s n r && !s.evd.safe then
    latchSafe 1 n r (modPart n (fun p => { p with escalated := true }) s)
  else s

/-! ### Contexts at a publication -/

/-- The SCAN contexts of a frame's copies: die and slot (R88, R249). -/
def scanSlots (s : State) (f : Frame) : List (Nat × Nat) :=
  let dies := f.main.die :: (f.twin.toList.map (·.die))
  dies.flatMap fun d => (planStreams s f.id.part f.plan).filterMap fun i =>
    if ((streamRec s f.id.part i).map fun r => bitOf r.sflags 2).getD false then (slotOn s f.id.part i d).map fun c => (d, c) else none

/-- The SCAN working copies of a frame that started commit on BELIEVED and are discarded otherwise (R88, R263); a tuning frame's scratch goes
(R89). -/
def scanCommit (f : Frame) (believed : Bool) (s : State) : State :=
  (scanSlots s f).foldl (fun s e =>
    let c := ctx s e.1 e.2
    let s := if believed && !f.id.tuning && c.scanOn then
        cellarWrite e.1 (scanAt c false) (cellarBytes s e.1 (scanAt c true) (c.stateLength / 2)) s else s
    modCtx e.1 e.2 (fun c => if f.id.tuning then { c with scanTune := none } else { c with scanOn := false }) s) s

/-- The outer extents of a frame's outputs, when the companion received its data area: not those of a frame that is LATE or REFUSED, or
that an error ended (R179). -/
def outRows (s : State) (f : Frame) (verdict reason : Nat) : Option (List Nat) :=
  if verdict == vLate || verdict == vRefused || reason == 0xF7 then none
  else
    f.main.whole.bind fun b => (readArea (regionOuts s f.id.part f.id.region) b 0).map fun l => l.map fun e => e.2.extents.headD 0

/-- The rows that each output appends to its DERIVED stream: as received, else its fixed extent, else 0 (R179). -/
def derivedRows (s : State) (f : Frame) (verdict reason : Nat) (r : RegionRec) : List Nat :=
  (outRows s f verdict reason).getD (r.outputs.map fun d =>
    if ((streamRec s f.id.part d.derived).map (·.maxRows)).getD 0 = 0 then d.hdr.extents.headD 0 else 0)

/-- `f` applied to the first stage of a frame. -/
def modStage (id : FrameId) (f : Stage → Stage) : List Stage → List Stage
  | [] => []
  | x :: r => if x.id = id then f x :: r else x :: modStage id f r

/-- The outputs of a frame that feed DERIVED streams: output number, stream. -/
def derivedOuts (s : State) (id : FrameId) : List (Nat × Nat) :=
  let l := ((regionRec s id.part id.region).map (·.outputs)).getD []
  ((List.range l.length).map fun o => (o, (l.getD o default).derived)).filter fun e => !(e.2 == 0xFFFF)

/-- Some replica that the outputs of a region feed has not yet acknowledged a commit. -/
def commitOpen (s : State) (id : FrameId) : Bool :=
  (derivedOuts s id).any fun o => (streamSlots s id.part o.2).any fun e =>
    (die s e.1).cmds.any fun c => c.kind == cmdDerived && c.args.headD 0 == e.2

/-- A frame's output written into the staging area of every replica that it feeds (R179, R210). -/
def stageWrite (x : Stage) (s : State) : State :=
  (derivedOuts s x.id).foldl (fun s o =>
    let b := tensorCells (x.outs.getD o.1 default)
    (streamSlots s x.id.part o.2).foldl (fun s e =>
      if diePresent s e.1 then cellarPut x.die e.1 (stageAt (ctx s e.1 e.2)) b s else s) s) s

/-- The commits of a published frame sent to every replica: slot, rows, gap; none where a gap has no rows (R179, R210). -/
def stageCommit (x : Stage) (gap : Bool) (rows : List Nat) (s : State) : State :=
  (derivedOuts s x.id).foldl (fun s o =>
    let n := rows.getD o.1 0
    if gap && n == 0 then s
    else (streamSlots s x.id.part o.2).foldl (fun s e =>
      if diePresent s e.1 then sendCmd e.1 cmdDerived [e.2, n, bit gap] s else s) s) s

/-- A partition's stages go on: the oldest of each region is staged, and committed once it is published. A DERIVED context has one staging
area; DESIGN CHOICE: an output waits for the acknowledged commit of the one before it (log 64). `k` bounds the stages. -/
def stagesGoOn (n : Nat) : Nat → State → State
  | 0, s => s
  | k + 1, s =>
    let l := (part s n).stages
    let first (x : Stage) : Bool := ((l.find? fun y => y.id.region == x.id.region).map (·.id)) == some x.id
    match l.find? fun x => first x && !(commitOpen s x.id) && (!x.sent || x.commit.isSome) with
    | none => s
    | some x =>
      let s := if x.sent then s else stageWrite x s
      match x.commit with
      | none => stagesGoOn n k (modPart n (fun p => { p with stages := modStage x.id (fun y => { y with sent := true }) p.stages }) s)
      | some c =>
        let s := modPart n (fun p => { p with stages := p.stages.filter fun y => !(y.id == x.id) }) s
        stagesGoOn n k (stageCommit x c.1 c.2 s)

/-- As far as they can. -/
def stageStep (n : Nat) (s : State) : State := stagesGoOn n (2 * (part s n).stages.length + 1) s

/-- A frame that left outputs is staged in its turn. -/
def stageOuts (id : FrameId) (d : Nat) (outs : List Tensor) (s : State) : State :=
  if id.tuning || (derivedOuts s id).isEmpty then s
  else stageStep id.part (modPart id.part (fun p => { p with stages := p.stages ++ [⟨id, d, outs, false, none⟩] }) s)

/-- The commits that a publication calls for (R179): rows on BELIEVED, a gap of as many otherwise. -/
def derivedCommits (f : Frame) (verdict reason : Nat) (s : State) : State :=
  match regionRec s f.id.part f.id.region with
  | none => s
  | some r =>
    if f.id.tuning || (derivedOuts s f.id).isEmpty then s
    else
      let c := some (!(verdict == vBelieved), derivedRows s f verdict reason r)
      let l := (part s f.id.part).stages
      let l := if l.any fun x => x.id == f.id then modStage f.id (fun x => { x with commit := c }) l
        else l ++ [⟨f.id, f.main.die, [], true, c⟩]
      stageStep f.id.part (modPart f.id.part (fun p => { p with stages := l }) s)

/-- Rows of MESSAGE contexts that a frame took are freed (R178). DESIGN CHOICE: a frame that started and took rows, was displaced, and is then
REFUSED frees them: R178 frees the rows of a started frame whatever its verdict, and says of a REFUSED one only that it takes none (log 88). -/
def freeRows (f : Frame) (s : State) : State :=
  f.taken.foldl (fun s t => (streamSlots s f.id.part t.1).foldl (fun s e =>
    modCtx e.1 e.2 (fun c => { c with
      stamps := c.stamps.filter (fun x => decide (t.2.2 ≤ x.1)), taken := max c.taken t.2.2 }) s) s) s

/-! ### Value slots (R416) -/

/-- The integer of element `i` of a tensor in a data area; a block with M = 0 holds zeros. -/
def areaElem (b : List Byte) (o : Nat) (h : TensorHdr) (i : Nat) : Option Int :=
  if i < prod (hdrShape h) then
    let t := readTensor b o h
    some (Tensor.el t i)
  else none

/-- The value of a slot in a frame's data area. -/
def slotValue (s : State) (f : Frame) (v : ValSlot) : Option Int :=
  f.main.whole.bind fun b => (readArea (regionOuts s f.id.part f.id.region) b 0).bind fun l =>
    l[v.output]?.bind fun e => areaElem b e.1 e.2 v.element

/-- The slots bound to a real frame's region keep its record (R416); `from_` is what AGE counts from. -/
def slotsPublished (f : Frame) (verdict from_ : Nat) (s : State) : State :=
  if f.id.tuning then s
  else { s with sio := { s.sio with slots := s.sio.slots.map fun e =>
    if e.2.part = f.id.part ∧ e.2.region = f.id.region then
      (e.1, { e.2 with rec_ := some ⟨verdict, if verdict = vBelieved then slotValue s f e.2 else none, from_⟩ })
    else e } }

/-! ### The result record (R195) -/

/-- Result FLAGS from EFLAGS, the replay and displacement, and SAFE (R195, R262). -/
def resultFlags (f : Frame) (r : EvRec) (safe : Bool) : Nat :=
  bit (!(r.attempt == 0) || !(f.attempt == 0)) + 2 * bit (!(f.displaced == 0)) + 4 * bit (eflag r 2) + 8 * bit (eflag r 3) +
  16 * bit safe + 32 * bit (eflag r 4) + 64 * bit (eflag r 5)

/-- The record's bytes. -/
def resultBytes (s : State) (f : Frame) (verdict refuse index : Nat) (r : EvRec) (data : List Byte) : List Byte :=
  let refused := verdict == vRefused
  let h := leBytes 4 (64 + data.length) ++ leBytes 1 1 ++ leBytes 1 verdict ++ leBytes 1 (bit f.id.tuning) ++
    leBytes 1 (resultFlags f r s.evd.safe) ++ leBytes 1 f.id.part ++ leBytes 1 f.main.die ++ leBytes 2 f.id.region ++
    leBytes 2 f.plan ++ leBytes 2 (leadIndex s f.id.part f.lead) ++ leBytes 8 f.id.seq ++
    leBytes 8 (if f.id.tuning then f.L else f.sched) ++ leBytes 4 (if refused then 0 else r.start) ++
    leBytes 4 (if refused then 0 else r.endS) ++ leBytes 1 (if f.id.tuning then 0 else f.base) ++
    leBytes 1 (if refused then 0 else fld r.eras 3 2 + 4 * fld r.eras 5 4) ++ leBytes 1 refuse ++ zeroBytes 1 ++
    leBytes 4 data.length ++ leBytes 4 index ++ leBytes 4 (if refused then 0 else unsgn 32 r.margin) ++ zeroBytes 4
  h ++ leBytes 4 (crc32c (h ++ data)).toNat ++ data

/-- Where a record of `len` bytes goes in a ring, with the bytes that it takes: its place and the total, or none (R289). -/
def resultPlace (r : ResRing) (len : Nat) : Option (Nat × Nat) :=
  let skip := if r.size < r.tail + len then r.size - r.tail else 0
  if r.used + skip + len ≤ r.size then some (if skip = 0 then r.tail else 0, skip + len) else none

/-- The record goes to the owning seat's ring with its KIND 1 entry, or is dropped and counted (R194, R289, R290, R300). -/
def deliverResult (f : Frame) (verdict : Nat) (b : List Byte) (s : State) : State :=
  let p := part s f.id.part
  match seatOfNo p.seat with
  | none => s
  | some x =>
    if !((seatOf s x).gen == f.gen) || (seatOf s x).inReset then
      modSeat x (fun t => { t with resetDrops := up16 t.resetDrops }) s
    else
      let drop (s : State) : State := modPart f.id.part (fun p => { p with drops := up16 p.drops }) s
      match p.ring with
      | none => drop s
      | some r =>
        match resultPlace r b.length with
        | none => drop s
        | some (at_, n) =>
          if cqOpen s x r.cq then
            hostPut x (r.base + at_) b (fun s =>
              let s := modPart f.id.part (fun p => { p with ring := some { r with tail := (at_ + b.length) % max 1 r.size, used := r.used + n } }) s
              cqPost x r.cq (cqEntry f.id.region verdict 1 0 0 f.id.part at_ b.length f.id.seq s) s) s
          else drop s

/-- The counters of a verdict (R200, R271). -/
def verdictCounts (f : Frame) (verdict refuse : Nat) (r : EvRec) (s : State) : State :=
  let ran := !f.id.tuning && !(verdict == vRefused)
  modPart f.id.part (fun p => { p with
    believed := if verdict = vBelieved then up16 p.believed else p.believed
    doubted := if verdict = vDoubted then up16 p.doubted else p.doubted
    unproven := if verdict = vUnproven then up16 p.unproven else p.unproven
    late := if verdict = vLate then up16 p.late else p.late
    qfull := if verdict = vRefused ∧ refuse = 1 then up16 p.qfull else p.qfull
    other := if verdict = vRefused ∧ refuse ≠ 1 then up16 p.other else p.other
    short := if ran && eflag r 2 then up16 p.short else p.short
    stale := if ran && eflag r 3 then up16 p.stale else p.stale }) s

/-- The tuning state of a published tuning frame (R245), the error log of a failed one (R486), and the extra slot that it
calls for (R246). -/
def tunePublished (f : Frame) (verdict reason index endL : Nat) (s : State) : State :=
  if !f.id.tuning then s
  else
    let n := f.id.part
    let r := f.id.region
    let s :=
      if verdict = vBelieved then modRegion n r (fun x => { x with tune := 4, passEnd := some endL }) s
      else if verdict = vDoubted then modRegion n r (fun x => { x with tune := 5, extra := x.extra || !f.extraSlot }) s
      else s
    if reason = 0xF3 then logError 12 f.main.die n r index s else s

/-- A 34-bit stamp of TB_SAFE placed on its long count. -/
def safeLong (s : State) (ns era : Nat) : Nat := (extendStampNat (tbSafe s) ns era)
where
  extendStampNat (ref ns era : Nat) : Nat :=
    let d := (era % 4 * 2 ^ 32 + ns + 2 ^ 34 - ref % 2 ^ 34) % 2 ^ 34
    if 2 ^ 33 ≤ d then ref + d - 2 ^ 34 else ref + d

/-- END_SAFE of a record on TB_SAFE's long count. -/
def evEnd (s : State) (r : EvRec) : Nat := safeLong s r.endS (fld r.eras 5 4)

/-- The identity fields, SCHED_SAFE and EFLAGS.SYNTHETIC of a record that no die sent (R252). -/
def syntheticEv (f : Frame) : EvRec where
  kind := bit f.id.tuning
  eflags := 1024
  part := f.id.part
  die := f.main.die
  region := f.id.region
  seq := f.id.seq
  sched := f.L % 2 ^ 32
  eras := f.L / 2 ^ 32 % 4

/-- TUNE_AGE (R245). -/
def tuneAge (s : State) (n r : Nat) : Nat :=
  match (regionRt s n r).passEnd with
  | none => 0xFFFFFFFF
  | some e => min 0xFFFFFFFE ((tbSafe s - e) / 1000000)

/-- The CX fields up to 0x5F that do not depend on the data (R241, R250). -/
def cxFill (s : State) (f : Frame) (r : EvRec) : EvRec :=
  let g := integOf s f.id.part f.id.region
  let tuned := g.mode == 1
  { r with
    tune := if f.id.tuning then 2 else if tuned then (regionRt s f.id.part f.id.region).tune else 0
    tuneAge := if f.id.tuning then 0 else tuneAge s f.id.part f.id.region
    tolerance := g.tolerance
    checkin := checkinField s f.id.part
    resultCheck := f.resultCheck }

/-- The dies need a frame's launch no more. -/
def launchGone (id : FrameId) (s : State) : State :=
  eachDie (fun d s => if (die s d).launches.any fun e => e.1 == id then
    modDie d (fun x => { x with launches := x.launches.filter fun e => !(e.1 == id) }) s else s) s

/-- Everything a published verdict does. `r` is the record that decided it, already with its CX fields up to 0x5F; it enters the store unless
it stands there already, as that of an aborted attempt whose replay is cancelled does (R252). A frame REFUSED before it started has no
working copy of a SCAN state, and leaves that of an earlier frame alone (R88). -/
def publish (f : Frame) (verdict reason refuse steps : Nat) (r : EvRec) (data : List Byte) (s : State) : State :=
  let n := f.id.part
  let g := f.id.region
  let counts := verdict == vDoubted || verdict == vUnproven
  let s := if verdict = vRefused || f.entered then s else enterWindow n g counts s
  let r := { r with
    judgeSteps := steps, verdict := verdict, reason := reason, winCount := winCount s n g, winFill := winFill s n g,
    k := sealK s, w := sealW s, judgedSafe := nowNs s, judgedEra := nowEra s }
  let (i, s) := (f.storedAt.map fun i => (i, s)).getD (storeEv r s)
  let endL := evEnd s r
  let s := verdictCounts f verdict refuse r s
  let s := tunePublished f verdict reason i endL s
  let believed := verdict == vBelieved
  let s := if verdict = vRefused && f.displaced = 0 && f.attempt = 0 then s else scanCommit f believed s
  let s := if f.id.tuning then s else freeRows f (derivedCommits f verdict reason s)
  let s := slotsPublished f verdict (if verdict = vRefused then tbSafe s else endL) s
  let s := taskPublished n g believed s
  let s := deliverResult f verdict (resultBytes s f verdict refuse i r data) s
  let s := routeEvent n 1 (some g) 0 s
  let s := if believed then s else routeEvent n 2 (some g) 0 s
  let s := if f.id.tuning && reason == 0xF3 then routeEvent n 3 (some g) 0 s else s
  let s := if verdict = vRefused then routeEvent n 7 (some g) 0 s else s
  let s := launchGone f.id s
  dropFrame f.id { s with evd := { s.evd with queue := without f.id s.evd.queue } }

/-- A real frame is REFUSED with a cause (R193, R252). -/
def refuseFrame (f : Frame) (cause : Nat) (s : State) : State :=
  publish f vRefused 0xF5 cause 0 (cxFill s f (syntheticEv f)) [] s

end Sys2Proof.Machine
end

