-- ==== Sys2Proof/Machine/Fab.lean ====
section
/-! DEFINITION. Machine/Fab.lean: healthy cores and placements (R121), fences (R123, R130), context faults (R168), sliver
plans (R114), pegs (R116, R119). -/

namespace Sys2Proof.Machine

/-! ### Fences -/

/-- The whole cluster is fenced. -/
def clFenced (x : Die) (c : Nat) : Bool := decide (c ∈ x.clFenceSt) || decide (c ∈ x.clFenceRt)

/-- Fence bits of a cluster's cores. -/
def coreMask (x : Die) (c : Nat) : Nat := if clFenced x c then 0xFFFFFFFF else tblGet 0 x.fenceSt c ||| tblGet 0 x.fenceRt c

/-- Core `k` of cluster `c` is fenced. -/
def coreFenced (x : Die) (c k : Nat) : Bool := bitOf (coreMask x c) k

/-- Cores of a cluster that are not fenced. -/
def healthyList (x : Die) (c : Nat) : List Nat := (List.range 32).filter fun k => !coreFenced x c k

/-- How many. -/
def healthy (x : Die) (c : Nat) : Nat := (healthyList x c).length

/-- The cluster qualifies (R121). -/
def clQualifies (x : Die) (minCores c : Nat) : Bool := !clFenced x c && decide (minCores ≤ healthy x c) && decide (0 < healthy x c)

/-- The partition that a die's window names as a cluster's owner; 255 none (R133). -/
def ownerOf (x : Die) (c : Nat) : Nat := match tblGet 0 x.owner c with | 0 => 255 | n + 1 => n

/-- A partition's layout, loaded or being loaded. -/
def heldLayout (p : Part) : Option Layout := p.layout.orElse fun _ => p.loading.map (·.layout)

/-- The partition whose layout holds a cluster; 255 none (R35, R208). -/
def ownerAt (s : State) (d c : Nat) : Nat :=
  ((s.parts.find? fun e => (heldLayout e.2).any fun l => bitOf (l.clusters.getD d 0) c).map (·.1)).getD 255

/-- A fence in AXW_LAST_FENCE (R133). -/
def lastFence (c k cause : Nat) (x : Die) : Die := { x with last := ⟨c, k, cause, true, up8 x.last.count⟩ }

/-- A run-time fence with its record, history entry and event 0x04; a core or cluster fenced already stays so (R123, R133,
R485). Fencing a cluster's last healthy core fences the cluster. `rgn` and `evid` name the frame struck. -/
def fenceUnit (d : Nat) (u : FenceUnit) (cause rgn evid : Nat) (s : State) : State :=
  match u with
  | .none => s
  | .core c k =>
    if coreFenced (die s d) c k then s
    else
      let prt := ownerAt s d c
      let s := modDie d (fun x => lastFence c k cause { x with fenceRt := tblMod 0 x.fenceRt c fun m => m ||| 2 ^ k }) s
      let s := if healthy (die s d) c = 0 then modDie d (fun x => { x with clFenceRt := withElem c x.clFenceRt }) s else s
      let s := fenceLog d c k cause prt rgn evid s
      if prt = 255 then s else routeEvent prt 4 none (32 * c + k + 4096 * d) s
  | .cluster c =>
    if clFenced (die s d) c then s
    else
      let prt := ownerAt s d c
      let s := modDie d (fun x => lastFence c 0 cause { x with clFenceRt := withElem c x.clFenceRt }) s
      let s := fenceLog d c 0xFF cause prt rgn evid s
      if prt = 255 then s else routeEvent prt 4 none (32 * c + 2048 + 4096 * d) s

/-- The unit that an error fences, with its cause (R122). -/
def errUnit (x : Die) (e : FabErr) : Option (FenceUnit × Nat) :=
  match e with
  | .residue c k => some (.core c k, 1)
  | .signature c k => some (.core c k, 2)
  | .shelfUe c k => some (.core c k, 3)
  | .peg c k => some (.core c k, 4)
  | .storeUe c => if c ∈ x.srSeen then some (.cluster c, 5) else none
  | .parity c => some (.cluster c, 6)
  | _ => none

/-- The cluster that an error strikes. -/
def errCluster (e : FabErr) : Option Nat :=
  match e with
  | .residue c _ => some c
  | .signature c _ => some c
  | .shelfUe c _ => some c
  | .peg c _ => some c
  | .storeUe c => some c
  | .parity c => some c
  | _ => none

/-! ### Placements (R121, R218) -/

/-- A region's placement `k`; 3 is its partner placement. -/
def placeRec (r : RegionRec) (k : Nat) : Option PlaceRec :=
  if k = 3 then
    if r.integ.mode = 3 then some ⟨r.integ.pDie, r.integ.pRequired, r.integ.pMinCores, r.integ.pCand⟩ else none
  else r.places[k]?

/-- The qualifying candidates of a placement, lowest first. -/
def qualClusters (s : State) (p : PlaceRec) : List Nat :=
  if diePresent s p.die then (List.range 64).filter fun c => bitOf p.cand c && clQualifies (die s p.die) p.minCores c else []

/-- The clusters on which a placement puts its region: the lowest-numbered qualifying ones, none where too few qualify. -/
def placeClusters (s : State) (p : PlaceRec) : Option (List Nat) :=
  let l := qualClusters s p
  if p.required ≤ l.length then some (l.take p.required) else none

/-- The region is reloading onto new clusters (R128). -/
def reloading (s : State) (n r : Nat) : Bool := (regionRt s n r).reload.isSome

/-! ### Context descriptors (R167, R168) -/

/-- Bytes 0x00 to 0x3B of a descriptor. -/
def ctxBody (c : Ctx) : List Byte :=
  leBytes 1 c.kind ++ leBytes 1 c.part ++ leBytes 1 c.fmt ++ leBytes 1 c.flags ++ leBytes 2 c.channels ++ leBytes 2 c.source ++
  leBytes 4 c.ringBase ++ leBytes 4 c.ringLength ++ leBytes 4 c.stateBase ++ leBytes 4 c.stateLength ++
  leBytes 8 c.writeCount ++ leBytes 8 c.windowNext ++ leBytes 2 c.alive ++ leBytes 2 c.lastAlive ++ leBytes 2 c.scale ++
  leBytes 2 c.nextSeq ++ leBytes 2 c.blockSamples ++ zeroBytes 2 ++ leBytes 4 c.lastStamp ++ leBytes 1 c.lastEra ++ zeroBytes 3

/-- The die writes a descriptor, with its DCRC (R168). -/
def writeCtx (d c : Nat) (f : Ctx → Ctx) (s : State) : State :=
  modCtx d c (fun x => let y := f x; { y with dcrc := crc32c (ctxBody y) }) s

/-- A read of the descriptor finds a fault (R168); a free slot has none. -/
def ctxBad (x : Ctx) : Bool := x.faulty || (!(x.kind == 0) && !(x.dcrc == crc32c (ctxBody x)))

/-- An error joins the die's fence sequence, or opens it at this instant (R124, R127). DESIGN CHOICE: R127 states this of errors in one
cluster; errors in other clusters of the die, and those after a context fault, join it as well, because the die has one alarm pair, one cause
read and one FENCE; the replay test of a frame keeps its own D (R125; log 89). -/
def seqAdd (d : Nat) (e : FabErr) (u : Option (FenceUnit × Nat)) (struck : List FrameId) (s : State) : State :=
  modDie d (fun x => { x with seq := some (match x.seq with
    | some q => { q with errs := q.errs ++ [e], units := q.units ++ u.toList, struck := q.struck ++ struck, read := false }
    | none => ⟨tbSafe s, [e], u.toList, struck, false⟩) }) s

/-- A context fault: the first detection marks the context and drives the alarm pair; nothing is fenced (R168, R486). -/
def contextFault (d c : Nat) (s : State) : State :=
  if (ctx s d c).faulty then s
  else
    let s := modCtx d c (fun x => { x with faulty := true }) s
    let s := logError 2 d (ctx s d c).part 4 c s
    alarmRaise d (seqAdd d (.context c) none [] s)

/-! ### Sliver plans and counters (R114, R476) -/

/-- One more in a cluster counter. -/
def clusterCount (d c o k : Nat) (s : State) : State := dieCount d (0x2000 + 0x20 * c + o) k s

/-- One more in a core counter. -/
def coreCount (d i o k : Nat) (s : State) : State := dieCount d (0x10000 + 0x10 * i + o) k s

/-- Units of a sliver of a step for `u` units on `n` healthy cores (R114). -/
def sliverGrain (t : StepRec) (u n : Nat) : Nat := max (ceilDiv u (n * t.fan)) t.gmin

/-- Slivers of a step (R114). -/
def sliverCount (t : StepRec) (u n : Nat) : Nat := ceilDiv u (sliverGrain t u n)

/-- The share of the `i`-th of `r` clusters (R212). -/
def clusterShare (units r i : Nat) : Nat := units / max 1 r + bit (decide (i < units % max 1 r))

/-- The work of a cluster's distributor. -/
def workOf (s : State) (d c : Nat) : Option Work := ((die s d).work.find? fun e => e.1 == c).map (·.2)

/-- The work replaced. -/
def setWork (d c : Nat) (w : Work) (s : State) : State := modDie d (fun x => { x with work := tblPut x.work c w }) s

/-- A cluster's ENGINE cycles with slivers outstanding are counted up to now (R476): one cycle is two TIME edges. -/
def clusterBusyCount (d c : Nat) (s : State) : State :=
  match workOf s d c with
  | some w =>
    if w.out = 0 then s
    else
      let k := (s.time.edges - w.since) / 2
      setWork d c { w with since := w.since + 2 * k } (clusterCount d c 0x00 k s)
  | none => s

/-- A core's ENGINE cycles in slivers are counted up to now (R476). -/
def coreBusyCount (d i : Nat) (s : State) : State :=
  let x := coreOf s d i
  if x.sliver = 0 then s
  else
    let k := (s.time.edges - x.busyAt) / 2
    coreCount d i 0x0 k (modCore d i (fun x => { x with busyAt := x.busyAt + 2 * k }) s)

/-- A cluster serves no frame any more. -/
def endWork (d c : Nat) (s : State) : State :=
  modDie d (fun x => { x with work := tblErase x.work c }) (clusterBusyCount d c s)

/-! ### Pegs (R116, R119) -/

/-- The code of a region's programs, which declares its pegs. -/
def regionCode (r : RegionRec) : List Byte := (r.progs.map (·.code)).flatten

/-- The peg that a declaration gives a region of a partition, at its initial value; none where it declares no peg (R116, R117). -/
def pegDeclared (v n g : Nat) : Option Peg :=
  let kind := v % 4
  let a := v / 4 % 65536
  let z := v / 262144 % 65536
  if kind = 3 then none
  else some ⟨kind, a, 0, kind == 0 && a == 0, if kind = 1 then a else 0, kind == 2 && bitOf a 0, n, g, a, z, kind == 0 && bitOf v 34⟩

/-- A peg at its initial value. -/
def pegInit (n g : Nat) (code : List Byte) (i : Nat) : Option Peg := pegDeclared (Config.pegDecl code i) n g

/-- The first peg index of a region on a cluster: pegs of the partition's regions there follow each other (R233). -/
def pegBase (s : State) (n g d c : Nat) : Nat :=
  ((List.range g).map fun h =>
    let x := regionRt s n h
    let r := (regionRec s n h).getD default
    let here := (decide (c ∈ x.clusters) && ((placeRec r x.chosen).map (·.die)) == some d) || (decide (c ∈ x.pClusters) && r.integ.pDie == d)
    if here then r.pegs else 0).sum

/-- The pegs of a region on its clusters return to their initial values (R119). -/
def resetPegs (d n g : Nat) (cl : List Nat) (s : State) : State :=
  match regionRec s n g with
  | none => s
  | some r =>
    let idx := cl.flatMap fun c => (List.range r.pegs).map fun i => (64 * c + pegBase s n g d c + i, i)
    modDie d (fun x =>
      let l := idx.foldl (fun t a => (pegInit n g (regionCode r) a.2).elim (tblErase t a.1) (tblPut t a.1)) x.pegs
      { x with pegs := l }) s

/-- A peg's value as the layout's final value is compared with it. -/
def pegValue (p : Peg) : Nat := if p.kind = 0 then p.arrivals else if p.kind = 1 then p.count else bit p.flag

/-- A peg is not at its final value (R118). DESIGN CHOICE: a step's completion barrier, whose count is not the layout's, is there once it
is open (log 65). -/
def pegOff (p : Peg) : Bool := if p.ofStep then !p.opened else !(pegValue p == p.final)

/-- Some peg of the region is not at its final value (R118). -/
def pegsOff (s : State) (d n g : Nat) : Bool := (die s d).pegs.any fun e => e.2.part == n && e.2.region == g && pegOff e.2

/-- The cluster of the first peg of the region that is not at its final value (R486). -/
def pegsOffAt (s : State) (d n g : Nat) : Option Nat :=
  ((die s d).pegs.find? fun e => e.2.part == n && e.2.region == g && pegOff e.2).map fun e => e.1 / 64

/-- The completion barriers of a region on a cluster: by index. -/
def stepPegs (s : State) (d n g c : Nat) : List (Nat × Peg) :=
  (die s d).pegs.filter fun e => e.1 / 64 == c && e.2.ofStep && e.2.part == n && e.2.region == g

/-- A step begins: its completion barriers take their count from its slivers; one that expects none is open (R114, R116, R117). -/
def stepBegins (d n g c total : Nat) (s : State) : State :=
  (stepPegs s d n g c).foldl (fun s e =>
    modDie d (fun x => { x with pegs := tblPut x.pegs e.1 { e.2 with expected := total, arrivals := 0, opened := total == 0 } }) s) s

/-! ### Copies of a frame (R241) -/

/-- The main copy, or the partner's. -/
def copyOf (f : Frame) (tw : Bool) : Option Copy := if tw then f.twin else some f.main

/-- `g` applied to a copy of a live frame. -/
def modCopy (id : FrameId) (tw : Bool) (g : Copy → Copy) (s : State) : State :=
  modFrame id (fun f => if tw then { f with twin := f.twin.map g } else { f with main := g f.main }) s

/-- The copy is on its cores. -/
def copyOn (c : Copy) : Bool := c.phase == .running || c.phase == .stopping

/-- A frame's copies. -/
def copiesOf (f : Frame) : List (Bool × Copy) := (false, f.main) :: f.twin.toList.map fun c => (true, c)

/-- Die-wide indices of a copy's cores. -/
def copyCores (c : Copy) : List Nat := c.clusters.flatMap fun k => (List.range 32).map fun i => 32 * k + i

/-- The cores of a copy drop its work; its pegs are reset (R119). -/
def dropWork (id : FrameId) (c : Copy) (s : State) : State :=
  let s := (copyCores c).foldl (fun s i =>
    if (coreOf s c.die i).frame = some id then
      let s := match (coreOf s c.die i).waitPeg with
        | some _ => clusterCount c.die (i / 32) 0x10 ((s.time.edges - (coreOf s c.die i).waitAt) / 2) s
        | none => s
      let s := coreBusyCount c.die i s
      modCore c.die i (fun x => { x with frame := none, sliver := 0, size := 0, waitPeg := none, outs := [], lanes := [], dma := [], inBatch := false }) s
    else s) s
  let s := c.clusters.foldl (fun s k => if (workOf s c.die k).any (fun w => w.frame == id) then endWork c.die k s else s) s
  resetPegs c.die id.part c.region c.clusters s

/-- A frame's copies that are still on cores leave them. -/
def dropCopies (id : FrameId) (s : State) : State :=
  match frameOf s id with
  | some f => (copiesOf f).foldl (fun s e => if copyOn e.2 then dropWork id e.2 s else s) s
  | none => s

/-- A stream of the frame's plan has no present replica: such a frame is always REFUSED with cause 0x06 (R210). -/
def streamGone (s : State) (f : Frame) : Bool := (planStreams s f.id.part f.plan).any fun i => (leadSlot s f.id.part i).isNone

/-- A frame is REFUSED; what still runs of it stops (R193, R210). -/
def refuse (f : Frame) (cause : Nat) (s : State) : State :=
  refuseFrame f (if streamGone s f then 6 else cause) (dropCopies f.id s)

end Sys2Proof.Machine
end

