-- ==== Sys2Proof/Machine/Legal.lean ====
section
/-! DEFINITION. Machine/Legal.lean: the operators that a layout may hold, by the formats, parameters and limits of R43, R50, R51,
R61, R65, R74, R80, R81, R85, R86 and R90. A layout with any other is refused at load with E_FORMAT. -/

namespace Sys2Proof.Machine

/-! ### Tensors and output forms -/

/-- A whole-axis block of `e` elements is short enough, or is the block of a complex transform of 65,536 points, which lies along the
innermost axis (R43, R90). -/
def wholeLegal (cplx : Bool) (shape : List Nat) (axis : Nat) : Bool :=
  let e := shape.getD axis 0
  decide (e ≤ 65536) || (cplx && axis + 1 == shape.length && e == 131072)

/-- The extents, scale axis and block of a tensor are ones that R43 and R65 allow; `cplx` is one that can be a complex transform's. -/
def shapeLegal (cplx : Bool) (shape : List Nat) (axis block : Nat) : Bool :=
  decide (1 ≤ shape.length) && decide (shape.length ≤ 6) && decide (axis < shape.length) &&
  shape.all (fun e => decide (e ≤ 16777216)) && decide (prod shape ≤ 2147483648) && decide (block ∈ [0, 16, 32, 64, 128]) &&
  (!(block == 0) || wholeLegal cplx shape axis)

/-- An operand tensor is legal. DEDUCED: the output of a complex transform, S24, is an operand of other operators (R43, R90; log 76). -/
def refLegal (t : TRef) : Bool := shapeLegal (t.fmt == .s24) t.shape t.axis t.block

/-- The parameters of a requantisation are in their ranges (R44, R51, R55, R57, R58). -/
def outLegal (ered : Int) (o : OutSpec) : Bool :=
  decide (-256 ≤ ered) && decide (ered ≤ 255) && decide (1 ≤ o.q) && decide (o.q ≤ 65535) && decide (o.s ≤ 63) &&
  decide (o.mo ≤ 255) && decide (-64 ≤ o.eo) && decide (o.eo ≤ 63) && decide (o.emax ≤ 31) && decide (o.block ∈ [0, 16, 32, 64, 128])

/-- An extent of an operand. -/
def refExt (t : TRef) (a : Nat) : Nat := t.shape.getD a 1

/-- Every format except T2 (R74). -/
def fmtV (f : Fmt) : Bool := !(f == .t2)

/-! ### Operand pairs (R50, R51, R61) -/

/-- The native pairs in falling order of rate, with the largest product magnitude P (R51, R61). -/
def nativePairs : List (Fmt × Fmt × Nat) :=
  [(.t2, .s8, 128), (.s4, .s4, 64), (.s4, .s8, 1024), (.s6, .s8, 4096), (.s8, .s8, 16384), (.u8, .s8, 32640),
   (.s16, .s8, 4194304), (.s16, .s16, 1073741824), (.s24, .s16, 274877906944)]

/-- A format widens into another without loss. -/
def widens (f g : Fmt) : Bool := decide (Fmt.lo g ≤ Fmt.lo f) && decide (Fmt.hi f ≤ Fmt.hi g)

/-- The P of the pair that a weight and an activation format run as: the native pair with the highest rate into which both widen;
none where there is no such pair, or an operand is never a multiplicand (R61). -/
def pairMax (w a : Fmt) : Option Nat :=
  if [w, a].any fun f => f == .u16 || f == .s32 || f == .s48 then none
  else if !(decide (a ∈ [Fmt.s4, .u4, .s8, .u8, .s16])) then none
  else (nativePairs.find? fun p => widens w p.1 && widens a p.2.1).map (·.2.2)

/-- The block length of an operand along an axis: 1 where its blocks run along another. -/
def lenAlong (t : TRef) (a : Nat) : Nat := if t.axis = a then blockLen t.shape t.axis t.block else 1

/-- Two operands with these block lengths along a reduction axis may be paired (R50), and no block sum of the shorter length
exceeds S48 (R51). -/
def pairLegal (w a : Fmt) (lw la : Nat) : Bool :=
  match pairMax w a with
  | none => false
  | some p => (lw % max 1 la == 0 || la % max 1 lw == 0) && decide (p * min lw la ≤ 140737488355327)

/-! ### The operators (R74) -/

/-- Two operands broadcast (R81): equal rank, and extents that are equal or 1; an outermost extent that varies may differ (R67). DESIGN
CHOICE: R67 speaks of two extents that vary; where one varies and the other is fixed, and is not 1, they may differ as well, and the smaller
counts (log 85). -/
def castLegal (x y : TRef) : Bool :=
  x.shape.length == y.shape.length &&
  (List.range x.shape.length).all fun i =>
    let a := refExt x i
    let b := refExt y i
    a == b || a == 1 || b == 1 || (i == 0 && (x.vary || y.vary))

/-- A spatial axis of a convolution (R74). -/
def axisLegal (a : Axis) (kernel : Nat) : Bool :=
  a.kernel == kernel && decide (1 ≤ a.kernel) && decide (a.kernel ≤ 64) && decide (1 ≤ a.stride) && decide (a.stride ≤ 16) &&
  decide (1 ≤ a.dil) && decide (a.dil ≤ 16) && decide (a.padB ≤ a.dil * (a.kernel - 1)) && decide (a.padA ≤ a.dil * (a.kernel - 1))

/-- An axis of a pool (R74). -/
def poolLegal (a : Axis) : Bool :=
  decide (1 ≤ a.kernel) && decide (a.kernel ≤ 64) && decide (1 ≤ a.stride) && decide (a.stride ≤ 64) &&
  decide (a.padB ≤ a.kernel - 1) && decide (a.padA ≤ a.kernel - 1)

/-- A bias: S32, one element an output (R74, R77). -/
def biasLegal (b : Option TRef) (n : Nat) : Bool := b.all fun t => refLegal t && t.fmt == .s32 && prod t.shape == n

/-- A convolution over `n` spatial axes (R74, R78). -/
def convLegal (w x : TRef) (b : Option TRef) (axs : List Axis) (groups : Nat) : Bool :=
  let n := axs.length
  refLegal w && refLegal x && x.shape.length == n + 2 && w.shape.length == n + 2 && w.axis == 1 && x.axis == n + 1 &&
  decide (1 ≤ groups) && refExt x (n + 1) % groups == 0 && refExt w 0 % groups == 0 && refExt w 1 == refExt x (n + 1) / groups &&
  ((List.range n).all fun i => axisLegal (axs.getD i default) (refExt w (2 + i))) &&
  biasLegal b (refExt w 0) && pairLegal w.fmt x.fmt (lenAlong w 1) (lenAlong x (n + 1))

/-- Each element lies in a format. -/
def inFmt (f : Fmt) (l : List Int) : Bool := l.all fun x => decide (Fmt.lo f ≤ x) && decide (x ≤ Fmt.hi f)

/-- The four formats of NORM and SOFTMAX (R74). -/
def fmtNorm (f : Fmt) : Bool := decide (f ∈ [Fmt.s8, .s16, .s24, .s32])

/-- The length of a transform: a power of 2 from 64 to 65,536, or 0 (R90). -/
def fftLegal (n : Nat) : Bool := n == 0 || decide (n ∈ (List.range 11).map fun i => 64 * 2 ^ i)

/-- What a layout says of the streams of an operator. -/
abbrev StreamsOf := Nat → Option StreamRec

/-- The format of a stream. -/
def streamFmt (st : StreamsOf) (i : Nat) : Option Fmt := (st i).bind fun r => Fmt.ofCode r.fmt

/-- The block length of a stream's samples as RESAMPLE reads them: a capture block; the whole of what it reads for other kinds (log 60). -/
def streamLen (st : StreamsOf) (i taps : Nat) : Nat :=
  match st i with
  | some r => if r.blockSamples = 0 then taps else r.blockSamples
  | none => taps

/-- RESAMPLE's data format and block length with its taps (R51, R61, R74). -/
def resampleLegal (f : Fmt) (len taps : Nat) : Bool :=
  decide (f ∈ [Fmt.s8, .s16, .s24]) && (pairMax f .s16).any fun p => decide (p * min len taps ≤ 140737488355327)

/-- The formats, parameters and limits of an operator are those of R74 and of the rules it names. DEDUCED: SCAN of 0 channels is not refused,
because R76 says that no zero but WINDOW's is (log 86). DESIGN CHOICE: the block-length rule of operand pairs (R50), which needs equal or
divisible lengths, is not held against RESAMPLE's data and its taps, which move along the data (R93; log 87). -/
def argsLegal (st : StreamsOf) (op : Operator TRef) : Bool :=
  match op with
  | .matmul w x b e o =>
    refLegal w && refLegal x && w.shape.length == 2 && refExt w 1 == x.shape.getLastD 1 && decide (refExt w 1 ≤ 16777216) &&
    biasLegal b (refExt w 0) && pairLegal w.fmt x.fmt (lenAlong w 1) (lenAlong x (x.shape.length - 1)) && outLegal e o
  | .conv1d w x b a g e o => convLegal w x b [a] g && outLegal e o
  | .conv2d w x b h a g e o => convLegal w x b [h, a] g && outLegal e o
  | .dwconv w x b axs m e o =>
    let n := axs.length
    refLegal w && refLegal x && decide (1 ≤ n) && decide (n ≤ 2) && x.shape.length == n + 2 && w.shape.length == n + 1 &&
    w.axis == n && x.axis == n && decide (1 ≤ m) && decide (m ≤ 16) && refExt w 0 == m * refExt x (n + 1) &&
    ((List.range n).all fun i => axisLegal (axs.getD i default) (refExt w (1 + i))) && biasLegal b (refExt w 0) &&
    pairLegal w.fmt x.fmt (lenAlong w n) (lenAlong x n) && outLegal e o
  | .pool k x axs e o =>
    refLegal x && fmtV x.fmt && decide (1 ≤ axs.length) && decide (axs.length ≤ 2) && x.shape.length == axs.length + 2 &&
    axs.all poolLegal && (x.axis == 0 || x.axis == axs.length + 1) && (!(k == .avg) || outLegal e o)
  | .elt _ x y e o => refLegal x && refLegal y && fmtV x.fmt && fmtV y.fmt && castLegal x y && outLegal e o
  | .mul x y e o => refLegal x && refLegal y && (pairMax x.fmt y.fmt).isSome && castLegal x y && outLegal e o
  | .shift x c p _ =>
    refLegal x && fmtV x.fmt && (match p with
      | none => decide (-47 ≤ c) && decide (c ≤ 47)
      | some t => refLegal t && t.fmt == .s8 && castLegal x t)
  | .lut x ez z0 f t _ o => refLegal x && fmtV x.fmt && t.length == 256 && inFmt .s16 t && inFmt .s32 [z0] && decide (f ≤ 24) && outLegal ez o
  | .norm x a _ ez eps g b o =>
    refLegal x && fmtNorm x.fmt && decide (a < x.shape.length) && decide (refExt x a ≤ 65536) && decide (eps < 2 ^ 32) &&
    refLegal g && refLegal b && g.fmt == .s16 && b.fmt == .s32 && g.shape == [refExt x a] && b.shape == [refExt x a] &&
    g.block == 0 && b.block == 0 && outLegal ez o
  | .softmax x a ez f t o =>
    refLegal x && fmtNorm x.fmt && decide (a < x.shape.length) && decide (refExt x a ≤ 65536) && t.length == 256 &&
    t.all (fun v => decide (v ≤ 65535)) && decide (1 ≤ t.headD 0) && decide (f ≤ 16) && outLegal ez o
  | .scan x _ _ a b _ _ o =>
    refLegal x && decide (x.fmt ∈ [Fmt.s8, .s16, .s24]) && x.shape.length == 2 && decide (refExt x 1 ≤ 16384) &&
    a.length == refExt x 1 && b.length == refExt x 1 && inFmt .s16 a && inFmt .s16 b && outLegal 0 o
  | .fft x a c _ m _ =>
    let n := if c && a + 1 == x.shape.length then refExt x a / 2 else refExt x a
    shapeLegal (c || x.fmt == .s24) x.shape x.axis x.block && decide (x.fmt ∈ [Fmt.s16, .s24]) && decide (a < x.shape.length) &&
    (!c || x.shape.getLastD 0 % 2 == 0) &&
    fftLegal n && decide (m ≤ 31)
  | .resample x i d t _ e o =>
    decide (2 ≤ d) && decide (d ≤ 256) && decide (1 ≤ t.length) && decide (t.length ≤ 4096) && inFmt .s16 t && outLegal e o &&
    (match x with
      | some x => refLegal x && resampleLegal x.fmt (lenAlong x (x.shape.length - 1)) t.length
      | none => (streamFmt st i).any fun f => resampleLegal f (streamLen st i t.length) t.length)
  | .window i => (st i).any fun r => decide (1 ≤ r.channels) && decide (r.channels ≤ 256)
  | .requant x e o => refLegal x && outLegal e o
  | .cast x _ => refLegal x
  | .concat xs a oa ob =>
    decide (2 ≤ xs.length) && decide (xs.length ≤ 16) && xs.all refLegal && decide (ob ∈ [0, 16, 32, 64, 128]) &&
    (let h := xs.headD default
     decide (a < h.shape.length) && decide (oa < h.shape.length) &&
     xs.all fun t => t.fmt == h.fmt && t.shape.length == h.shape.length &&
       (List.range t.shape.length).all fun i => i == a || refExt t i == refExt h i)
  | .split x a sz oa ob =>
    refLegal x && decide (2 ≤ sz.length) && decide (sz.length ≤ 16) && decide (a < x.shape.length) && sz.sum == refExt x a &&
    decide (oa < x.shape.length) && decide (ob ∈ [0, 16, 32, 64, 128])
  | .slice x c oa ob =>
    refLegal x && c.all (fun e => decide (e.1 < x.shape.length) && decide (1 ≤ e.2.2.2) && decide (e.2.2.2 ≤ 16777216)) &&
    decide (oa < x.shape.length) && decide (ob ∈ [0, 16, 32, 64, 128])
  | .gather t i oa ob =>
    refLegal t && refLegal i && (i.fmt == .u16 || i.fmt == .s32) && decide (oa < t.shape.length) && decide (ob ∈ [0, 16, 32, 64, 128])
  | .transpose x p => refLegal x && p.length == x.shape.length && (List.range x.shape.length).all fun a => decide (a ∈ p)
  | .topk x a k f => refLegal x && fmtV x.fmt && decide (a < x.shape.length) && decide (1 ≤ k) && decide (k ≤ 256) && (f == .u16 || f == .s32)
  | .reduce _ x a e o => refLegal x && fmtV x.fmt && a.all (fun i => decide (i < x.shape.length)) && outLegal e o
  | .select c x y e o =>
    refLegal c && refLegal x && refLegal y && decide (c.fmt ∈ [Fmt.t2, .s4, .u4, .s8, .u8]) && fmtV x.fmt && fmtV y.fmt &&
    castLegal x y && castLegal c x && castLegal c y && outLegal e o

/-- The extents of a convolution's or a pool's result. -/
def convShape (x : TRef) (axs : List Axis) (outs : Nat) : List Nat :=
  refExt x 0 :: (axs.zip (x.shape.drop 1)).map (fun e => outLen e.1 e.2) ++ [outs]

/-- The result tensors of an operator as a layout gives its operands: extents, scale axis, block, and whether it is a transform's. What a
stream's window gives is held by the plan's limits (R74, R221). -/
def opResults (op : Operator TRef) : List (Bool × List Nat × Nat × Nat) :=
  let req (shape : List Nat) (o : OutSpec) : List (Bool × List Nat × Nat × Nat) := [(false, shape, o.axis, o.block)]
  match op with
  | .matmul w x _ _ o => req (x.shape.dropLast ++ [refExt w 0]) o
  | .conv1d w x _ a _ _ o => req (convShape x [a] (refExt w 0)) o
  | .conv2d w x _ h a _ _ o => req (convShape x [h, a] (refExt w 0)) o
  | .dwconv w x _ axs _ _ o => req (convShape x axs (refExt w 0)) o
  | .pool k x axs _ o =>
    let shape := convShape x (axs.map fun a => { a with dil := 1 }) (refExt x (axs.length + 1))
    if k = .avg then req shape o else [(false, shape, x.axis, x.block)]
  | .elt _ x y _ o => req (castShape x.shape y.shape) o
  | .mul x y _ o => req (castShape x.shape y.shape) o
  | .shift x _ p _ => [(false, (p.map fun c => castShape x.shape c.shape).getD x.shape, x.axis, x.block)]
  | .lut x _ _ _ _ _ o => req x.shape o
  | .norm x _ _ _ _ _ _ o => req x.shape o
  | .softmax x _ _ _ _ o => req x.shape o
  | .scan x _ _ _ _ _ _ o => req x.shape o
  | .fft x a c _ _ _ =>
    let l := x.shape.length - 1
    [(true, if c then x.shape else x.shape.set l (2 * refExt x l), a, 0)]
  | .resample x _ d _ _ _ o => match x with
    | some x => req (x.shape.set (x.shape.length - 1) (ceilDiv (x.shape.getLastD 0) d)) o
    | none => []
  | .window _ => []
  | .requant x _ o => req x.shape o
  | .cast x _ => [(false, x.shape, x.axis, x.block)]
  | .concat xs a oa ob => [(false, (xs.headD default).shape.set a ((xs.map fun t => refExt t a).sum), oa, ob)]
  | .split x a sz oa ob => sz.map fun n => (false, x.shape.set a n, oa, ob)
  | .slice x cuts oa ob =>
    [(false, (List.range x.shape.length).map fun a => match cuts.find? fun c => c.1 == a with
      | some c => (cutRange c.2.1 (min c.2.2.1 (refExt x a)) c.2.2.2).length
      | none => refExt x a, oa, ob)]
  | .gather t i oa ob => [(false, prod i.shape :: t.shape.drop 1, oa, ob)]
  | .transpose x p => [(false, p.map (refExt x), p.idxOf x.axis, x.block)]
  | .topk x a k _ => let shape := x.shape.set a (min k (refExt x a)); [(false, shape, a, 0), (false, shape, a, 0)]
  | .reduce _ x axes _ o => req ((List.range x.shape.length).map fun a => if a ∈ axes then 1 else refExt x a) o
  | .select c x y _ o => req (castShape c.shape (castShape x.shape y.shape)) o

/-- An operator that contract level 1 allows: its operands and parameters, and the tensors that it leaves (R43, R65, R74). DEDUCED: of the
results, only that of FFT is the block of a complex transform (R43; log 76). -/
def opLegal (st : StreamsOf) (op : Operator TRef) : Bool :=
  argsLegal st op && (opResults op).all fun r => shapeLegal r.1 r.2.1 r.2.2.1 r.2.2.2

/-- The operators of a job (R106, R115): a share is one of an operator that reduces. -/
def jobLegal (st : StreamsOf) (j : Job) : Bool :=
  match j with
  | .run op _ => opLegal st op
  | .pairs op _ _ _ => opLegal st op
  | .combine shape _ o _ => outLegal 0 o && shapeLegal false shape o.axis o.block

end Sys2Proof.Machine
end

