-- ==== Sys2Proof/Machine/Layout.lean ====
section
/-! DEFINITION. Machine/Layout.lean: the layout stream as bytes, its records, and every check of one stream (R201 to R225). -/

namespace Sys2Proof.Machine

/-! ### Records (R201 to R206) -/

/-- A record: its place in the stream, header fields, and header and body bytes. -/
structure LRec where
  idx  : Nat
  typ  : Nat
  len  : Nat
  head : List Byte
  body : List Byte
  pad  : List Byte
  deriving DecidableEq, Repr, Inhabited

/-- Refusals: status code with the record it is reported against, 0xFFFFFF for none (R225). -/
abbrev Errs := List (Nat × Nat)

/-- One refusal when `bad`. -/
def err (bad : Bool) (code idx : Nat) : Errs := if bad then [(code, idx)] else []

/-- No single record. -/
def noRec : Nat := 0xFFFFFF

/-- The records of a stream, with what breaks their framing (R201 to R203). -/
def splitRecs : Nat → Nat → List Byte → List LRec × Errs
  | 0, _, _ => ([], [(eFormat, noRec)])
  | n + 1, i, b =>
    if b.length < 16 then ([], [(eFormat, noRec)])
    else
      let len := rd b 4 4
      let p := roundUp len 16 - len
      if b.length < 16 + len + p then ([], [(eFormat, i)])
      else
        let r : LRec := ⟨i, rd b 0 2, len, b.take 16, sub b 16 len, sub b (16 + len) p⟩
        if r.typ = 0xFFFF then ([r], err (16 + len + p < b.length) eFormat i)
        else
          let (l, e) := splitRecs n (i + 1) (b.drop (16 + len + p))
          (r :: l, e)

/-- The reserved fields of a body, and reserved bits of its flags, are 0, by type (R205, R207 to R224). -/
def reservedZero (r : LRec) : Bool :=
  let b := r.body
  let each (n : Nat) (o step k : Nat) : Bool := (List.range n).all fun i => zeros b (o + step * i) k
  if r.typ = 2 then decide (rd b 2 1 ≤ 1) && zeros b 3 1 && zeros b 60 4
  else if r.typ = 8 then decide (rd b 3 1 ≤ 7) && zeros b 28 4
  else if r.typ = 4 then
    let n := rd b 0 2
    zeros b 6 2 && zeros b 40 8 && each n 55 16 1 && each (rd b 2 1) (48 + 16 * n + 30) 32 2
  else if r.typ = 3 then zeros b 3 5
  else if r.typ = 5 then zeros b 4 4 && zeros b 28 4
  else if r.typ = 7 then zeros b 33 3 && zeros b 40 8
  else if r.typ = 10 then zeros b 1 1 && zeros b 7 1 && zeros b 26 6
  else if r.typ = 11 then zeros b 2 14
  else if r.typ = 12 then zeros b 44 4 && zeros b (48 + roundUp (rd b 32 4) 16 + roundUp (rd b 36 4) 16 + 16) 16
  else if r.typ = 9 then zeros b 4 4 && each (rd b 3 1) 34 16 2
  else if r.typ = 15 then decide (rd b 1 1 ≤ 1) && zeros b 2 2 && zeros b 9 7
  else if r.typ = 13 then zeros b 4 12
  else if r.typ = 14 then zeros b 2 2 && each (rd b 1 1) 22 8 2
  else true

/-- A record of length 0 that is no END (R204). -/
def hollow (r : LRec) : Bool := !(r.typ == 0xFFFF) && r.len == 0

/-- Bases bound by an earlier TIMEBIND (R206). -/
def dupBinds (l : List LRec) : Errs :=
  let t := l.filter fun r => r.typ == 15 && !hollow r
  (t.filter fun r => (t.filter fun q => decide (q.idx < r.idx)).any fun q => rd q.body 0 1 == rd r.body 0 1).map fun r => (eFormat, r.idx)

/-- The checks of R202 to R205 on one record. -/
def recordErrs (r : LRec) : Errs :=
  err (!(rd r.head 8 4 == (crc32c (r.head.take 8 ++ sub r.head 12 4 ++ r.body)).toNat)) eCrc r.idx ++
  err (!(r.pad.all (· == 0)) || !(zeros r.head 2 2) || !(zeros r.head 12 4)) eFormat r.idx ++
  err (!(r.typ == 0xFFFF) && !(decide (1 ≤ r.typ) && decide (r.typ ≤ 15))) eFormat r.idx ++
  err (!(reservedZero r)) eFormat r.idx ++ err (hollow r) eZero r.idx ++ err (r.typ == 0xFFFF && !(r.len == 0)) eFormat r.idx

/-- Record types that may follow a region group, and one another (R206). -/
def afterRegions (t : Nat) : Bool := t == 4 || t == 9 || t == 15 || t == 13 || t == 14 || t == 0xFFFF

/-- Whether a record of type `t` may follow one of type `p`, `k` of whose kind stand there already (R206); 0 is the beginning. -/
def mayFollow (p k t : Nat) : Bool :=
  match p with
  | 0 => t == 1
  | 1 => t == 2
  | 2 => t == 8 || t == 4
  | 8 => (t == 8 && decide (k < 16384)) || t == 4
  | 4 => t == 3
  | 3 => (t == 3 && decide (k < 3)) || t == 5
  | 5 => (t == 5 && decide (k < 16)) || t == 6 || t == 7 || t == 10
  | 6 => t == 6 || t == 7 || t == 10
  | 7 => t == 6 || t == 7 || t == 10
  | 10 => t == 11 || t == 12 || afterRegions t
  | 11 => t == 12 || afterRegions t
  | 12 => afterRegions t
  | 9 => (t == 9 && decide (k < 256)) || t == 15 || t == 13 || t == 14 || t == 0xFFFF
  | 15 => (t == 15 && decide (k < 4)) || t == 13 || t == 14 || t == 0xFFFF
  | 13 => (t == 13 && decide (k < 64)) || t == 14 || t == 0xFFFF
  | 14 => t == 0xFFFF
  | _ => false

/-- The first record that R206's order and counts do not allow where it stands (log 35): `p` is the type before it, `k` how many of that
type in a row, `regions` and `consts` how many before it. -/
def orderErrs : Nat → Nat → Nat → Nat → List LRec → Errs
  | _, _, _, _, [] => []
  | p, k, regions, consts, r :: l =>
    let isConst := r.typ == 6 || r.typ == 7
    if mayFollow p k r.typ && !(r.typ == 4 && decide (256 ≤ regions)) && !(isConst && decide (4096 ≤ consts)) then
      orderErrs r.typ (if r.typ = p then k + 1 else 1) (if r.typ = 4 then regions + 1 else regions) (if isConst then consts + 1 else consts) l
    else [(eFormat, r.idx)]

/-- A record of a region group beside its REGION. -/
def inGroup (t : Nat) : Bool := t == 3 || t == 5 || t == 6 || t == 7 || t == 10 || t == 11 || t == 12

/-- The region groups of a stream: each REGION with the records of its group that follow it at once. -/
def regionGroups : List LRec → List (List LRec)
  | [] => []
  | r :: l => if r.typ = 4 then (r :: l.takeWhile fun q => inGroup q.typ) :: regionGroups l else regionGroups l

/-- How many records of a type. -/
def countTyp (l : List LRec) (t : Nat) : Nat := (l.filter fun r => r.typ == t).length

/-- A group with the records that every region has, which no record out of order cuts short. -/
def groupWhole (broken : Errs) (g : List LRec) : Bool :=
  decide (1 ≤ countTyp g 3) && decide (1 ≤ countTyp g 5) && countTyp g 10 == 1 &&
  !(broken.any fun e => e.2 == (g.getLastD default).idx + 1)

/-! ### Tensors (R65, R197, R216) -/

/-- A tensor header that declares no tensor. DEDUCED: a whole-axis block above 65,536 elements, which only the block of a complex transform
may be, is the 131,072 of S24, a transform's output format, or of S16, its other input format, along the innermost axis (R43, R90; log 76). -/
def hdrBad (h : TensorHdr) : Bool :=
  (h.block == 0 && !(wholeLegal (h.fmt == 9 || h.fmt == 7) (hdrShape h) h.axis)) ||
  !(decide (1 ≤ h.fmt) && decide (h.fmt ≤ 11)) || !(decide (1 ≤ h.rank) && decide (h.rank ≤ 6)) || decide (h.rank ≤ h.axis) ||
  decide (4 < h.block) || (h.extents.drop h.rank).any (fun e => !(e == 0)) || h.extents.any (fun e => decide (16777216 < e)) ||
  decide (2147483648 < prod (hdrShape h))

/-- A tensor in the form of R216 at an offset, faulty or not. -/
def tensorBad (b : List Byte) (o : Nat) : Bool :=
  let h := readHdr b o
  let sw := 2 * hdrScales h
  let eo := o + 32 + roundUp sw 16
  hdrBad h || !(h.elemBytes == hdrElems h) || decide (b.length < o + hdrLength h) ||
  ((List.range (hdrScales h)).any fun i => bitOf (rd b (o + 32 + 2 * i) 2) 0) ||
  !(zeros b (o + 32 + sw) (roundUp sw 16 - sw)) || !(zeros b (eo + h.elemBytes) (roundUp h.elemBytes 16 - h.elemBytes))

/-- On-die size of a constant by its header (R216). -/
def onDie (h : TensorHdr) : Nat := 2 * hdrScales h + h.elemBytes

/-! ### Reading the bodies (R207 to R224) -/

/-- STREAM. -/
def readStream (b : List Byte) : StreamRec :=
  ⟨rd b 0 1, rd b 1 1, rd b 2 1, rd b 3 1, rd b 4 2, rd b 6 2, rd b 8 4, rd b 12 4, rd b 16 2, rd b 18 2, rd b 20 4, rd b 24 1,
    rd b 25 1, rd b 26 2⟩

/-- An output descriptor at an offset. -/
def readOut (b : List Byte) (o : Nat) : OutRec := { hdr := { readHdr b o with elemBytes := 0 }, derived := rd b (o + 28) 2 }

/-- PLACEMENT. -/
def readPlace (b : List Byte) : PlaceRec := ⟨rd b 0 1, rd b 1 1, rd b 2 1, rd b 8 8⟩

/-- PROGRAM. -/
def readProg (b : List Byte) : ProgRec := ⟨rd b 0 2, rd b 2 2, rd b 8 8, rd b 16 8, b.drop 32⟩

/-- CONST or CONSTREF. -/
def readConst (r : LRec) : ConstRec :=
  let h := readHdr r.body 0
  if r.typ = 6 then ⟨2, h, onDie h, 0, shake256 32 r.body, r.body⟩
  else ⟨rd r.body 32 1, h, onDie h, rd r.body 36 4, sub r.body 48 32, []⟩

/-- INTEGRITY. -/
def readInteg (b : List Byte) : IntegRec :=
  ⟨rd b 0 1, rd b 2 2, rd b 4 1, rd b 5 1, rd b 6 1, rd b 8 8, rd b 16 8, rd b 24 2⟩

/-- VERDICT. -/
def readVerdict (b : List Byte) : List Word := (List.range (rd b 0 2)).map fun i => w32 (rd b (16 + 4 * i) 4)

/-- TUNING. -/
def readTuning (b : List Byte) : TuningRec :=
  let i := rd b 32 4
  ⟨rd b 0 8, rd b 8 8, sub b 16 16, sub b 48 i, sub b (48 + roundUp i 16) (rd b 36 4)⟩

/-- A region group. -/
def readRegion (g : List LRec) : RegionRec :=
  let b := (g.headD default).body
  let n := rd b 0 2
  { steps := (List.range n).map fun i =>
      let o := 48 + 16 * i
      ⟨rd b o 4, rd b (o + 4) 2, rd b (o + 6) 1, rd b (o + 8) 4, rd b (o + 12) 4⟩
    outputs := (List.range (rd b 2 1)).map fun i => readOut b (48 + 16 * n + 32 * i)
    seedKind := rd b 3 1, pegs := rd b 4 2, seed := rd b 8 8, constBytes := rd b 16 8, workBytes := rd b 24 4
    reserve := rd b 28 4, ioBytes := rd b 32 8
    places := (g.filter fun r => r.typ == 3).map fun r => readPlace r.body
    progs := (g.filter fun r => r.typ == 5).map fun r => readProg r.body
    consts := (g.filter fun r => r.typ == 6 || r.typ == 7).map readConst
    integ := ((g.find? fun r => r.typ == 10).map fun r => readInteg r.body).getD ⟨0, 0, 0xFF, 0, 0, 0, 0, 0xFFFF⟩
    verdict := (g.find? fun r => r.typ == 11).map fun r => readVerdict r.body
    tuning := (g.find? fun r => r.typ == 12).map fun r => readTuning r.body }

/-- FRAMEPLAN. -/
def readPlan (b : List Byte) : PlanRec :=
  ⟨rd b 0 2, rd b 2 1, rd b 8 8, rd b 16 8, rd b 24 8, (List.range (rd b 3 1)).map fun i =>
    let o := 32 + 16 * i
    ⟨rd b o 2, rd b (o + 4) 4, rd b (o + 8) 4, rd b (o + 12) 4⟩⟩

/-- TIMEBIND. -/
def readBind (b : List Byte) : BindRec := ⟨rd b 0 1, bitOf (rd b 1 1) 0, rd b 4 4, rd b 8 1⟩

/-- ROUTE. -/
def readRoute (b : List Byte) : RouteRec := ⟨rd b 0 1, rd b 1 1, rd b 2 2⟩

/-- TASKS. -/
def readTasks (b : List Byte) : TasksRec :=
  ⟨rd b 0 1, rd b 4 4, rd b 8 4, rd b 12 4, (List.range (rd b 1 1)).map fun i =>
    let o := 16 + 8 * i
    ⟨rd b o 1, rd b (o + 1) 1, rd b (o + 2) 1, rd b (o + 3) 1, rd b (o + 4) 2⟩⟩

/-- The layout that some records give. -/
def readLayout (l : List LRec) : Layout :=
  let h := (l.headD default).body
  let p := (l.getD 1 default).body
  let of (t : Nat) := l.filter fun r => r.typ == t
  { part := rd p 0 1, seat := rd p 1 1, autostart := bitOf (rd p 2 1) 0, microcodeMin := rd h 6 2, layoutVersion := rd h 20 4, buildId := rd h 24 8
    clusters := (List.range 4).map fun d => rd p (4 + 8 * d) 8
    contexts := (List.range 4).map fun d => rd p (0x24 + 2 * d) 2
    cellar := (List.range 4).map fun d => rd p (0x2C + 4 * d) 4
    streams := (of 8).map fun r => readStream r.body
    regions := (regionGroups l).map readRegion
    plans := (of 9).map fun r => readPlan r.body
    binds := (of 15).map fun r => readBind r.body
    routes := (of 13).map fun r => readRoute r.body
    tasks := ((of 14).head?).map fun r => readTasks r.body }

/-- A layout as the records with contents give it: a record of LENGTH 0 plays no part in the checks across records, and a constant whose
body is missing leaves its region's spill at 0. -/
def solidLayout (l : List LRec) : Layout :=
  let y := readLayout l
  let of (t : Nat) := l.filter fun r => r.typ == t && !hollow r
  { y with
    streams := (l.filter fun r => r.typ == 8).map fun r => if hollow r then { readStream [] with home := 4 } else readStream r.body
    regions := (regionGroups l).map fun g =>
      let x := readRegion (g.filter fun r => !(hollow r && (r.typ == 3 || r.typ == 12)))
      { x with constBytes := if g.any fun r => hollow r && (r.typ == 6 || r.typ == 7) then 0 else x.constBytes }
    plans := (of 9).map fun r => readPlan r.body
    binds := (of 15).map fun r => readBind r.body
    routes := (of 13).map fun r => readRoute r.body
    tasks := ((of 14).head?).map fun r => readTasks r.body }

/-! ### Checks of single records -/

/-- Number of set bits below `n`. -/
def popCount (n w : Nat) : Nat := ((List.range n).filter fun i => bitOf w i).length

/-- HEADER (R207, R104). -/
def headerErrs (total count : Nat) (r : LRec) : Errs :=
  err (!(r.len == 48) || !(rd r.body 0 4 == 0x534C5952) || !(rd r.body 4 1 == 1) || !(rd r.body 5 1 == 1) ||
    !(rd r.body 8 8 == total) || !(rd r.body 16 4 == count)) eFormat r.idx

/-- PARTITION (R208). -/
def partitionErrs (r : LRec) : Errs :=
  err (!(r.len == 64) || decide (15 < rd r.body 0 1) || decide (1 < rd r.body 1 1)) eFormat r.idx

/-- The format suits the kind (R166). -/
def streamFmtOk (s : StreamRec) : Bool :=
  if s.kind = 1 then s.fmt == 7 || s.fmt == 9 || (s.fmt == 5 && !bitOf s.sflags 0)
  else decide (1 ≤ s.fmt) && decide (s.fmt ≤ 11)

/-- Capture-fed. -/
def captureFed (s : StreamRec) : Bool := s.kind == 1 && bitOf s.sflags 0

/-- Ports of a mask. -/
def maskPorts (m : Nat) : List Nat := (List.range 16).filter fun i => bitOf m i

/-- STREAM (R166, R174, R177, R184, R209). -/
def streamErrs (regions : Nat) (r : LRec) : Errs :=
  let s := readStream r.body
  let cap := captureFed s
  let ports := (maskPorts s.source).length
  err (!(r.len == 32) || !(decide (1 ≤ s.kind) && decide (s.kind ≤ 3)) || decide (3 < s.home) || !streamFmtOk s ||
    (s.kind == 1 && bitOf s.sflags 0 && bitOf s.sflags 1) || s.channels == 0 ||
    (if cap then s.source == 0 || decide (s.channels < ports) || decide (8 * ports < s.channels) || (decide (1 < ports) && s.portMode == 0)
     else if s.kind = 3 then decide (regions ≤ s.source) else !(s.source == 0xFFFF)) ||
    !((List.range 15).any fun i => s.ringLength == 2 ^ (10 + i)) || (!(s.stateLength == 0) && !bitOf s.sflags 2) ||
    bitOf s.scale 0 ||
    (if s.kind = 1 then !(s.blockSamples % 4 == 0) || decide (s.blockSamples < 4) || decide (64 < s.blockSamples) else !(s.blockSamples == 0)) ||
    (if cap then decide (s.rate < 1000) || decide (96000 < s.rate) || decide (1 < s.portMode) else !(s.rate == 0) || !(s.portMode == 0)) ||
    !(decide (s.evtBind ≤ 7) || s.evtBind == 0xFF) ||
    (decide (s.evtBind ≤ 7) && !(s.kind == 2 && s.fmt == 10 && s.channels == 3)) ||
    (s.kind == 1 && !(s.maxRows == 0))) eFormat r.idx

/-- REGION (R211 to R213). -/
def regionErrs (r : LRec) : Errs :=
  let x := readRegion [r]
  let n := x.steps.length
  err (!(r.len == 48 + 16 * n + 32 * x.outputs.length) || n == 0 || decide (1024 < n) || x.outputs.isEmpty ||
    decide (16 < x.outputs.length) || decide (1 < x.seedKind) || decide (64 < x.pegs) ||
    (x.seedKind == 0 && !(x.seed == 0)) || x.reserve == 0 || decide (185000 < x.reserve) ||
    (x.steps.any fun t => decide (2147483647 < t.units) || t.cycles == 0 || t.fan == 0 || decide (8 < t.fan) || t.gmin == 0) ||
    (x.outputs.any fun o => hdrBad o.hdr)) eFormat r.idx

/-- PLACEMENT (R214). -/
def placeErrs (clusters : List Nat) (r : LRec) : Errs :=
  let p := readPlace r.body
  err (!(r.len == 16) || decide (3 < p.die) || p.required == 0 || decide (64 < p.required) || p.minCores == 0 ||
    decide (31 < p.minCores) || !((p.cand &&& clusters.getD p.die 0) == p.cand) ||
    decide (popCount 64 p.cand < p.required)) eFormat r.idx

/-- PROGRAM (R215). -/
def progErrs (r : LRec) : Errs :=
  let n := rd r.body 24 4
  err (!(r.len == 32 + n) || !(n % 16 == 0) || n == 0 || decide (65536 < n)) eFormat r.idx

/-- CONST (R216, R48). -/
def constErrs (r : LRec) : Errs := err (tensorBad r.body 0 || !(r.len == hdrLength (readHdr r.body 0))) eFormat r.idx

/-- CONSTREF by itself (R217). -/
def refErrs (r : LRec) : Errs :=
  let c := readConst r
  err (!(r.len == 80) || hdrBad c.hdr || !(c.hdr.elemBytes == hdrElems c.hdr) || decide (1 < c.refKind) ||
    (c.refKind == 1 && !(c.index == 0))) eFormat r.idx

/-- INTEGRITY by itself (R218). DESIGN CHOICE: PARTNER_CANDIDATES and PARTNER_SEED, for which the table states no value outside DUPLEX, are
held to 0 there as the partner's other fields are (log 76). -/
def integErrs (clusters : List Nat) (regions : Nat) (x : RegionRec) (r : LRec) : Errs :=
  let g := readInteg r.body
  let dup := g.mode == 3
  err (!(r.len == 32) || decide (3 < g.mode) ||
    (decide (g.mode ≤ 1) && !(g.tolerance == 0)) ||
    (if dup then decide (3 < g.pDie) || g.pRequired == 0 || decide (64 < g.pRequired) || g.pMinCores == 0 || decide (31 < g.pMinCores) ||
        !((g.pCand &&& clusters.getD g.pDie 0) == g.pCand) || decide (popCount 64 g.pCand < g.pRequired) ||
        (x.seedKind == 1 && g.pSeed == x.seed) || (x.places.any fun p => p.die == g.pDie)
     else !(g.pDie == 0xFF) || !(g.pRequired == 0) || !(g.pMinCores == 0) || !(g.pCand == 0) || !(g.pSeed == 0)) ||
    (if g.mode = 2 then decide (regions ≤ g.shadow) else !(g.shadow == 0xFFFF)) || ((g.mode == 1) != x.tuning.isSome)) eFormat r.idx

/-- One instruction of a verdict program is not valid (R254, R255). -/
def instrBad (count w : Nat) : Bool :=
  let op := fld w 31 26
  let z (hi lo : Nat) : Bool := !(fld w hi lo == 0)
  if op = 0x01 then z 21 18
  else if op = 0x02 then z 21 16
  else if op = 0x03 ∨ op = 0x04 then false
  else if op = 0x05 ∨ op = 0x06 then z 17 5
  else if 0x08 ≤ op ∧ op ≤ 0x0E then z 13 0
  else if op = 0x10 then z 21 8 || decide (0x7F < fld w 7 0)
  else if op = 0x11 then z 21 8 || decide (0x7E < fld w 7 0) || !(fld w 7 0 % 2 == 0)
  else if op = 0x12 then z 21 8 || decide (0x7C < fld w 7 0) || !(fld w 7 0 % 4 == 0)
  else if op = 0x13 then z 21 8 || decide (6 < fld w 7 0)
  else if 0x18 ≤ op ∧ op ≤ 0x1D then z 17 8 || decide (count ≤ fld w 7 0)
  else if op = 0x1E then z 25 8 || decide (count ≤ fld w 7 0)
  else if op = 0x20 then z 25 10 || fld w 9 8 == 0 || decide (0xF0 ≤ fld w 7 0)
  else true

/-- VERDICT (R219, R255). -/
def verdictErrs (r : LRec) : Errs :=
  let n := rd r.body 0 2
  let l := (readVerdict r.body).map (·.toNat)
  let last := fld (l.getLastD 0) 31 26
  err (!(r.len == 16 + 4 * n) || n == 0 || decide (256 < n) || (l.any fun w => instrBad n w) ||
    !(last == 0x20 || last == 0x1E)) eFormat r.idx

/-- Offsets of `n` tensors in an input area; none where one is faulty or the area has another length (R220). -/
def areaOk : Nat → List Byte → Bool
  | 0, b => b.isEmpty
  | n + 1, b => !(tensorBad b 0) && areaOk n (b.drop (hdrLength (readHdr b 0)))

/-- TUNING (R220, R63): the record, its areas and its proof's tag, for a region whose plan, where it is there, has `streams` streams. -/
def tuningErrs (progs : List LRec) (streams : Option Nat) (r : LRec) : Errs :=
  let t := readTuning r.body
  let i := rd r.body 32 4
  let st := rd r.body 36 4
  let p := rd r.body 40 4
  let po := 48 + roundUp i 16 + roundUp st 16
  let tag := shake256 16 ((progs.map fun q => q.head ++ q.body).flatten ++ sub r.body 48 i)
  err (!(r.len == po + roundUp p 16) || decide (t.interval < 10000000) || decide (3600000000000 < t.interval) ||
    decide (t.interval ≤ t.phase) || decide (p < 32) || !(zeros r.body (48 + i) (roundUp i 16 - i)) ||
    !(zeros r.body (48 + roundUp i 16 + st) (roundUp st 16 - st)) || !(zeros r.body (po + p) (roundUp p 16 - p)) ||
    (streams.any fun n => !(areaOk n t.inputs)) || !(sub r.body po 16 == tag)) eFormat r.idx

/-- FRAMEPLAN (R180, R221, R222). -/
def planErrs (l : Layout) (r : LRec) : Errs :=
  let p := readPlan r.body
  err (!(r.len == 32 + 16 * p.streams.length) || p.streams.isEmpty || decide (16 < p.streams.length) || decide (l.regions.length ≤ p.region) ||
    decide (3 < p.base) || decide (p.period < 50000) || decide (10000000000 < p.period) ||
    decide (p.period ≤ p.phase) || decide (p.deadline < 20000) || decide (min (8 * p.period) 10000000000 < p.deadline) ||
    (p.streams.any fun e => decide (l.streams.length ≤ e.stream) || decide (65536 < e.w) || e.h == 0 || decide (16777216 < e.h) ||
      decide (1000000000 < e.g)) ||
    (!(p.base == 0) && !(l.binds.any fun b => b.base == p.base))) eFormat r.idx ++
  err (p.streams.any fun e => e.w == 0) eZero r.idx

/-- TIMEBIND (R222). -/
def bindErrs (r : LRec) : Errs :=
  let b := readBind r.body
  err (!(r.len == 16) || b.base == 0 || decide (3 < b.base) ||
    (!b.waitLock && !(b.lockBound == 0)) || (if b.base = 3 then !(decide (b.appSource ≤ 2) || b.appSource == 0xFF) else !(b.appSource == 0xFF))) eFormat r.idx

/-- ROUTE (R223). -/
def routeErrs (regions : Nat) (r : LRec) : Errs :=
  let x := readRoute r.body
  err (!(r.len == 16) || x.event == 0 || decide (8 < x.event) || decide (63 < x.vector) ||
    !(x.region == 0xFFFF || decide (x.region < regions))) eFormat r.idx

/-- TASKS (R224, R350, R357). -/
def tasksErrs (regions : Nat) (r : LRec) : Errs :=
  let x := readTasks r.body
  err (!(r.len == 16 + 8 * x.tasks.length) || x.wdg == 0 || decide (7 < x.wdg) || x.tasks.isEmpty || decide (32 < x.tasks.length) ||
    !(decide (x.opn < x.cycle) && decide (x.cycle < x.close) && decide (x.close < 2 * x.cycle)) ||
    decide (x.close < 100) || decide (60000000 < x.close) ||
    (x.tasks.any fun t => decide (2 < t.source) || decide (t.max < t.min) || decide (64 < t.order) ||
      (if t.source = 0 then !(t.region == 0xFFFF) else decide (regions ≤ t.region)))) eFormat r.idx

/-! ### Checks across records -/

/-- Programs that do not continue the steps of their region, or the last one that does not end them (R215). A record without contents says
neither how many steps there are nor where the next program begins. -/
def coverErrs (steps : Option Nat) : List (LRec × ProgRec) → Option Nat → Errs
  | [], _ => []
  | (r, p) :: l, at_ =>
    if hollow r then coverErrs steps l none
    else
      err ((at_.any fun a => !(p.first == a)) || decide (p.last < p.first) ||
        (steps.any fun n => decide (n ≤ p.last) || (l.isEmpty && !(p.last + 1 == n)))) eFormat r.idx ++
      coverErrs steps l (some (p.last + 1))

/-- Two regions may be compared (R247). -/
def comparable (a b : List OutRec) : Bool :=
  a.map (fun o => (o.hdr.fmt, o.hdr.rank, o.hdr.axis, o.hdr.extents)) == b.map (fun o => (o.hdr.fmt, o.hdr.rank, o.hdr.axis, o.hdr.extents))

/-- The data area at its maximum extents, for the limit of R247 and for staging (R233). -/
def outBytes (o : OutRec) : Nat := hdrLength o.hdr

/-- A region's records together (R206, R215, R216, R218, R221, R247; log 35): `shadow` says whether a SHADOW region names it, `named`
how many plans name each region, `blank` whether a record of a type has no contents, `bare` whether the REGION record of an index has none. -/
def groupErrs (l : Layout) (shadow : Bool) (named : Nat → Nat) (blank bare : Nat → Bool) (n : Nat) (x : RegionRec) (g : List LRec) : Errs :=
  let i := (g.headD default).idx
  let at_ (t : Nat) : Nat := ((g.find? fun r => r.typ == t).map (·.idx)).getD i
  let two := decide (2 ≤ x.integ.mode)
  let other := if x.integ.mode = 2 then l.regions.getD x.integ.shadow default else x
  let otherBad := x.integ.mode == 2 && (!(other.integ.mode == 0) || other.verdict.isSome || !(named x.integ.shadow == 0) ||
    (!bare n && !bare x.integ.shadow && !(comparable x.outputs other.outputs)) ||
    other.places.any fun p => x.places.any fun q => p.die == q.die)
  let sized := !(g.any fun r => hollow r && (r.typ == 4 || r.typ == 6 || r.typ == 7)) && x.consts.all fun c => !(hdrBad c.hdr) && c.hdr.elemBytes == hdrElems c.hdr
  err (sized && !(x.constBytes == (x.consts.map (·.size)).sum)) eFormat i ++
  coverErrs (if bare n then none else some x.steps.length) ((g.filter fun r => r.typ == 5).map fun r => (r, readProg r.body)) (some 0) ++
  err (!shadow && !blank 10 && (x.verdict.isNone || decide (1 < named n) || (named n == 0 && !blank 9))) eFormat i ++
  err (otherBad || (two && decide (262144 < (x.outputs.map outBytes).sum))) eFormat (at_ 10)

/-- An output's DERIVED stream (R166, R213): its kind, producer, format and row; `bare` says which STREAM records have no contents. -/
def derivedBad (l : Layout) (bare : Nat → Bool) (g : Nat) (o : OutRec) : Bool :=
  !(o.derived == 0xFFFF) && !bare o.derived &&
  match l.streams[o.derived]? with
  | none => true
  | some s => !(s.kind == 3) || !(s.source == g) || !(s.fmt == o.hdr.fmt) || !(s.channels == prod ((hdrShape o.hdr).drop 1))

/-- DERIVED streams and outputs of a layout fit together (R209, R213): an output that names another stream than it may, or one that an
earlier output feeds, is its REGION's; a stream that no output feeds is its own, `all` saying that every REGION has its contents. -/
def derivedErrs (l : Layout) (bare : Nat → Bool) (all : Bool) (regionIdx streamIdx : List Nat) : Errs :=
  let feeds (g : Nat) : List Nat := ((l.regions.getD g default).outputs.map (·.derived)).filter fun i => !(i == 0xFFFF)
  (List.range l.regions.length).flatMap (fun g =>
    let before := (List.range g).flatMap feeds
    err ((l.regions.getD g default).outputs.any (derivedBad l bare g) || !(decide (feeds g).Nodup) || (feeds g).any fun i => decide (i ∈ before))
      eFormat (regionIdx.getD g noRec)) ++
  (List.range l.streams.length).flatMap (fun i =>
    err (all && (l.streams.getD i default).kind == 3 && !((List.range l.regions.length).any fun g => decide (i ∈ feeds g)))
      eFormat (streamIdx.getD i noRec))

/-- Streams whose ring is too short for an entry of a plan (R170, R209). -/
def ringErrs (l : Layout) (bare : Nat → Bool) (streamIdx : List Nat) : Errs :=
  (List.range l.streams.length).flatMap fun i =>
    let t := l.streams.getD i default
    err (!bare i && !(t.kind == 2) && l.plans.any fun p => p.streams.any fun e => e.stream == i && decide (t.ringLength < e.w + 5 * e.h))
      eFormat (streamIdx.getD i noRec)

/-- The constants of a stream in order: records with their contents. -/
def constRecs (l : List LRec) : List (LRec × ConstRec) := (l.filter fun r => r.typ == 6 || r.typ == 7).map fun r => (r, readConst r)

/-- A CONSTREF of REF_KIND 0 (R217): it names an earlier CONST with its DIGEST and SHAPE. -/
def ref0Errs (cs : List (LRec × ConstRec)) : Errs :=
  (List.range cs.length).flatMap fun k =>
    match cs[k]? with
    | none => []
    | some (r, c) =>
      if c.refKind = 0 ∧ hollow r = false then
        if k ≤ c.index then [(eFormat, r.idx)]
        else
          match cs[c.index]? with
          | some (q, t) =>
            if hollow q then []
            else if t.refKind = 2 ∧ t.digest = c.digest then err (!(t.hdr == c.hdr)) eFormat r.idx else [(eAbsent, r.idx)]
          | none => [(eAbsent, r.idx)]
      else []

/-- Every check that a stream's own bytes decide (R201 to R224, R255). A record of length 0 has no body to check; DEDUCED: nor is another
record held against what such a body would have said, so that the stream's status is E_ZERO where nothing else is wrong (R204; log 76).
Every check between records with contents is made all the same (R19, R225). -/
def streamChecks (b : List Byte) : Layout × List LRec × Errs :=
  let (l, e0) := splitRecs (b.length / 16 + 1) 0 b
  let y := solidLayout l
  let gs := regionGroups l
  let broken := orderErrs 0 0 0 0 l
  let rn := y.regions.length
  let empty (t : Nat) : Bool := l.any fun r => r.typ == t && hollow r
  let idxOf (t : Nat) : List Nat := (l.filter fun r => r.typ == t).map (·.idx)
  let isShadow (g : Nat) : Bool := y.regions.any fun x => x.integ.mode == 2 && x.integ.shadow == g
  let namedBy (g : Nat) : Nat := (y.plans.filter fun p => p.region == g).length
  let planStreamsOf (g : Nat) : Option Nat :=
    ((y.plans.find? fun p => p.region == g).map fun p => p.streams.length).orElse fun _ => if empty 9 then none else some 0
  let bareOf (t i : Nat) : Bool := (((l.filter fun r => r.typ == t)[i]?).map hollow).getD false
  let masks := if empty 2 then List.replicate 4 (2 ^ 64 - 1) else y.clusters
  let bound : Layout := if empty 15 then { y with binds := [1, 2, 3].map fun i => ⟨i, false, 0, 0xFF⟩ } else y
  let one (r : LRec) : Errs :=
    if r.typ = 1 then headerErrs b.length l.length r
    else if r.typ = 2 then partitionErrs r
    else if r.typ = 8 then streamErrs rn r
    else if r.typ = 4 then regionErrs r
    else if r.typ = 3 then placeErrs masks r
    else if r.typ = 5 then progErrs r
    else if r.typ = 6 then constErrs r
    else if r.typ = 7 then refErrs r
    else if r.typ = 11 then verdictErrs r
    else if r.typ = 9 then planErrs bound r
    else if r.typ = 15 then bindErrs r
    else if r.typ = 13 then routeErrs rn r
    else if r.typ = 14 then tasksErrs rn r
    else []
  let group (g : Nat) : Errs :=
    let rs := gs.getD g []
    let x := readRegion (rs.filter fun r => !(r.typ == 3 && hollow r))
    (if groupWhole broken rs then groupErrs y (isShadow g) namedBy empty (bareOf 4) g x rs else []) ++
    ((rs.filter fun r => !hollow r).flatMap fun r => if r.typ = 10 then integErrs masks rn x r
      else if r.typ = 12 then tuningErrs (rs.filter fun q => q.typ == 5) (planStreamsOf g) r else [])
  (y, l, e0 ++ l.flatMap recordErrs ++ broken ++ (l.filter fun r => !hollow r).flatMap one ++ (List.range gs.length).flatMap group ++
    derivedErrs y (bareOf 8) (!empty 4) (idxOf 4) (idxOf 8) ++ ringErrs y (bareOf 8) (idxOf 8) ++ ref0Errs (constRecs l) ++ dupBinds l)

/-- The status that refusals give, and the first record that gave rise to it (R19, R225). -/
def errStatus (e : Errs) : Nat × Nat :=
  let c := lowest (e.map fun x => (true, x.1))
  (c, if c = 0 then noRec else ((e.filter fun x => x.1 == c).map (·.2)).foldl min noRec)

end Sys2Proof.Machine
end

