-- ==== Sys2Proof/Machine/Admit.lean ====
section
/-! DEFINITION. Machine/Admit.lean: admission of a layout and what it reserves (R230 to R235, R259, R165, R174, R217). -/

namespace Sys2Proof.Machine

/-! ### One placement (R230, R231) -/

/-- The plan that drives a region: its own, or that of the region which it shadows (R218). -/
def drivingPlan (l : Layout) (g : Nat) : Option PlanRec :=
  match (List.range l.regions.length).find? fun h =>
      (l.regions.getD h default).integ.mode == 2 && (l.regions.getD h default).integ.shadow == g with
  | some h => l.plans.find? fun p => p.region == h
  | none => l.plans.find? fun p => p.region == g

/-- Usable capacity less working space; none where the space does not fit. -/
def pinRoom (r : RegionRec) (p : PlaceRec) : Option Nat :=
  let cap := p.required * (p.minCores * 131072 + 2097152)
  let work := p.required * r.workBytes
  if cap < work then none else some (cap - work)

/-- Bytes pinned: whole constants in order until the next does not fit. -/
def pinned (room : Nat) : List Nat → Nat → Nat
  | [], t => t
  | c :: r, t => if room < t + c then t else pinned room r (t + c)

/-- The spill of a placement. -/
def spillOf (r : RegionRec) (p : PlaceRec) : Nat := r.constBytes - pinned ((pinRoom r p).getD 0) (r.consts.map (·.size)) 0

/-- ENGINE cycles of a step with `n` healthy cores. -/
def stepCycles (t : StepRec) (u n : Nat) : Nat :=
  let g := max (ceilDiv u (n * t.fan)) t.gmin
  ceilDiv (ceilDiv u g) n * g * t.cycles

/-- bound_ns of R231. -/
def boundNs (r : RegionRec) (p : PlaceRec) (spill : Nat) : Nat :=
  let one (t : StepRec) : Nat :=
    let u := ceilDiv t.units p.required
    ((List.range 33).filter fun n => decide (p.minCores ≤ n)).foldl (fun w n => max w (stepCycles t u n)) 0 + t.overhead
  (800 + (r.steps.map one).sum) * 5 + ceilDiv ((spill + r.ioBytes) * 1000) r.reserve

/-- Tmin of a placement: with its DUPLEX copy's, or its shadow region's on that region's placement (R231). DESIGN CHOICE: the shadow
region's bound is that of its chosen placement, else of its first, and a later move of the shadow region leaves the main region's Tmin as it is
(log 92). -/
def tminOf (l : Layout) (r : RegionRec) (p : PlaceRec) (shadowOn : Option PlaceRec) : Nat :=
  let own := boundNs r p (spillOf r p)
  match placeRec r 3 with
  | some q => max own (boundNs r q (spillOf r q))
  | none =>
    if r.integ.mode = 2 then
      let sh := l.regions.getD r.integ.shadow default
      match shadowOn.orElse fun _ => sh.places.head? with
      | some q => max own (boundNs sh q (spillOf sh q))
      | none => own
    else own

/-- The SRAM of a placement suffices, and that of a DUPLEX copy (R230, R233). -/
def fitsSram (r : RegionRec) (p : PlaceRec) : Bool :=
  (pinRoom r p).isSome && ((placeRec r 3).map fun q => (pinRoom r q).isSome).getD true

/-- Status of a placement, 0 where it is usable (R233). -/
def placeStatus (s : State) (l : Layout) (g : Nat) (r : RegionRec) (p : PlaceRec) (shadowOn : Option PlaceRec) : Nat :=
  if !diePresent s p.die then eAbsent
  else if !fitsSram r p then eOvercommit
  else
    let t := tminOf l r p shadowOn
    match drivingPlan l g with
    | some q => if decide (q.deadline < t) || decide (q.period < t) then eOvercommit else 0
    | none => 0

/-- What admission decides for a region (R233): the runtime record with status 0, or the status that refuses it, then `chosen` is the first
placement with that status (R225). -/
def admitRegion (s : State) (l : Layout) (g : Nat) (shadowOn : Option PlaceRec) : RegionRt × Nat :=
  let r := l.regions.getD g default
  let codes := r.places.map fun p => placeStatus s l g r p shadowOn
  let usable := codes.map (· == 0)
  match (List.range r.places.length).find? fun k => codes.getD k 1 == 0 && ((r.places[k]?).bind (placeClusters s)).isSome with
  | some k =>
    let p := r.places.getD k default
    ({ chosen := k, usable := usable, clusters := (placeClusters s p).getD [], spill := spillOf r p
       tmin := tminOf l r p shadowOn, pClusters := ((placeRec r 3).bind (placeClusters s)).getD [] }, 0)
  | none =>
    let cs := codes.map fun c => if c = 0 then eOvercommit else c
    let c := lowest (cs.map fun c => (true, c))
    ({ chosen := cs.findIdx fun x => x == c }, c)

/-- Every region admitted: shadow regions first, so that their main regions count their bounds. -/
def admitRegions (s : State) (l : Layout) : List (RegionRt × Nat) :=
  let first := (List.range l.regions.length).map fun g => admitRegion s l g none
  (List.range l.regions.length).map fun g =>
    let r := l.regions.getD g default
    if r.integ.mode = 2 then
      let x := first.getD r.integ.shadow default
      admitRegion s l g (if x.2 = 0 then (l.regions.getD r.integ.shadow default).places[x.1.chosen]? else none)
    else first.getD g default

/-! ### What a layout takes (R210, R232, R233) -/

/-- The dies on which a region may run: usable placements and a partner's die. -/
def regionDies (r : RegionRec) (x : RegionRt) : List Nat :=
  ((List.range r.places.length).filterMap fun k => if x.usable.getD k false then (r.places[k]?).map (·.die) else none) ++
  (if r.integ.mode = 3 then [r.integ.pDie] else [])

/-- A region's streams. -/
def regionStreams (l : Layout) (g : Nat) : List Nat := ((drivingPlan l g).map fun p => p.streams.map (·.stream)).getD []

/-- The replica dies of a stream that are present (R208, R210). -/
def replicaDies (s : State) (l : Layout) (xs : List RegionRt) (i : Nat) : List Nat :=
  let all := (l.streams.getD i default).home :: (List.range l.regions.length).flatMap fun g =>
    if i ∈ regionStreams l g then regionDies (l.regions.getD g default) (xs.getD g default) else []
  [0, 1, 2, 3].filter fun d => decide (d ∈ all) && diePresent s d

/-- The cellar rate that a layout's regions reserve on a die. -/
def reserveOn (l : Layout) (xs : List RegionRt) (d : Nat) : Nat :=
  ((List.range l.regions.length).map fun g =>
    let r := l.regions.getD g default
    if d ∈ regionDies r (xs.getD g default) then r.reserve else 0).sum

/-- A partition's region records as admission left them. -/
def heldRegions (p : Part) (l : Layout) : List RegionRt := (List.range l.regions.length).map fun g => tblGet {} p.regions g

/-- The rate reserved on a die by the partitions other than `n`. -/
def reservedElse (s : State) (n d : Nat) : Nat :=
  (s.parts.map fun e => if e.1 = n then 0 else ((heldLayout e.2).map fun l => reserveOn l (heldRegions e.2 l) d).getD 0).sum

/-- A sum of fractions is above 1. -/
def above1 (l : List (Nat × Nat)) : Bool :=
  let q := l.foldl (fun (a : Nat × Nat) b => (a.1 * b.2 + b.1 * a.2, a.2 * b.2)) (0, 1)
  decide (q.2 < q.1)

/-- What a region takes of the time of each cluster that it runs on (R233). -/
def occupancy (l : Layout) (g : Nat) (x : RegionRt) : List (Nat × Nat) :=
  let r := l.regions.getD g default
  (((drivingPlan l g).map fun p => [(x.tmin, p.period)]).getD []) ++ ((r.tuning.map fun t => [(x.tmin, t.interval)]).getD [])

/-- Regions on a cluster: those whose chosen or partner placement takes it. -/
def regionsOn (l : Layout) (xs : List RegionRt) (d c : Nat) : List Nat :=
  (List.range l.regions.length).filter fun g =>
    let r := l.regions.getD g default
    let x := xs.getD g default
    (decide (c ∈ x.clusters) && ((r.places[x.chosen]?).map (·.die)) == some d) || (decide (c ∈ x.pClusters) && r.integ.pDie == d)

/-- Time and pegs of every cluster suffice (R233). -/
def clustersFit (l : Layout) (xs : List RegionRt) : Bool :=
  [0, 1, 2, 3].all fun d => (List.range 64).all fun c =>
    let gs := regionsOn l xs d c
    !(above1 (gs.flatMap fun g => occupancy l g (xs.getD g default))) &&
      decide (((gs.map fun g => (l.regions.getD g default).pegs).sum) ≤ 64)

/-! ### Cellar space (R169, R233) -/

/-- Bytes of a ring's row of `n` elements in the cellar (R39, R40). -/
def cellarRow (f n : Nat) : Nat := ((Fmt.ofCode f).map fun f => rowSize true f n).getD 0

/-- Ring bytes of a context. -/
def ringBytes (r : StreamRec) : Nat :=
  if r.kind = 1 then r.channels * cellarRow r.fmt r.ringLength else r.ringLength * cellarRow r.fmt r.channels

/-- Block-index bytes. -/
def indexBytes (r : StreamRec) : Nat := if r.kind = 1 then 16 * r.ringLength / max 1 r.blockSamples else 0

/-- The staging area of a DERIVED stream. -/
def stagingBytes (l : Layout) (i : Nat) : Nat :=
  (((l.regions.flatMap (·.outputs)).find? fun o => o.derived == i).map outBytes).getD 0

/-- Bytes that a stream takes on each replica die. -/
def streamBytes (l : Layout) (i : Nat) : Nat :=
  let r := l.streams.getD i default
  roundUp (ringBytes r) 64 + roundUp (indexBytes r) 64 + roundUp r.stateLength 64 + (if r.kind = 3 then roundUp (stagingBytes l i) 64 else 0)

/-- The CONST indices, among a stream's constants, that die `d` holds (R217). -/
def constsOn (l : Layout) (xs : List RegionRt) (d : Nat) : List Nat :=
  let all := l.regions.flatMap (·.consts)
  let starts := (List.range l.regions.length).map fun g => ((l.regions.take g).map fun r => r.consts.length).sum
  let used := (List.range l.regions.length).flatMap fun g =>
    let r := l.regions.getD g default
    if d ∈ regionDies r (xs.getD g default) then (List.range r.consts.length).map fun k =>
      let i := starts.getD g 0 + k
      let c := all.getD i default
      if c.refKind = 0 then c.index else i
    else []
  (used.filter fun i => (all.getD i default).refKind == 2).eraseDups

/-- cellar_needed of R233. -/
def cellarNeeded (s : State) (l : Layout) (xs : List RegionRt) (d : Nat) : Nat :=
  let all := l.regions.flatMap (·.consts)
  ((constsOn l xs d).map fun i => roundUp (all.getD i default).size 64).sum +
  ((List.range l.streams.length).map fun i => if d ∈ replicaDies s l xs i then streamBytes l i else 0).sum

/-- MiB of an AX die's data space: 14 GiB less the 2 MiB kept for NAP (R157, R465). -/
def cellarMiB : Nat := 14334

/-- Bytes that uploaded constants take on a die (R295). -/
def uploadBytes (s : State) (d : Nat) : Nat :=
  (s.seats.uploads.map fun u => if bitOf u.dies d then roundUp (constImage u.body).length 64 else 0).sum

/-- MiB that the partitions other than `n` hold on a die. -/
def cellarElse (s : State) (n d : Nat) : Nat :=
  (s.parts.map fun e => if e.1 = n then 0 else ((heldLayout e.2).map fun l => l.cellar.getD d 0).getD 0).sum

/-- What is taken of a die's data space beside partition `n`: the ranges of partitions and the uploaded constants, from and to. -/
def spaceTaken (s : State) (n d : Nat) : List (Nat × Nat) :=
  (s.parts.filterMap fun e => if e.1 = n then none else (heldLayout e.2).map fun l =>
    (e.2.cellBase.getD d 0, e.2.cellBase.getD d 0 + l.cellar.getD d 0 * 1048576)) ++
  s.seats.uploads.filterMap fun u =>
    if bitOf u.dies d then some (u.at_.getD d 0, u.at_.getD d 0 + roundUp (constCells u.body).length 64) else none

/-- A range of the data space meets nothing that is taken (R157). -/
def spaceClear (t : List (Nat × Nat)) (base size : Nat) : Bool :=
  decide (base + size ≤ cellarMiB * 1048576) && t.all fun e => decide (base + size ≤ e.1) || decide (e.2 ≤ base)

/-- The lowest place for a partition's range: at 0 or right after something taken. DESIGN CHOICE: a range is one piece, so that where
fragments alone leave room there is none (log 91). -/
def rangePlace (s : State) (n d size : Nat) : Option Nat :=
  let t := spaceTaken s n d
  if size = 0 then some 0
  else (((0 :: t.map (·.2)).filter fun b => spaceClear t b size).foldl (fun (m : Option Nat) b => some (min b (m.getD b))) none)

/-- Free MiB for a new range on a die. -/
def cellarFree (s : State) (n d : Nat) : Nat := cellarMiB - cellarElse s n d - ceilDiv (uploadBytes s d) 1048576

/-- Context slots that the partitions other than `n` hold on a die. -/
def slotsElse (s : State) (n d : Nat) : Nat :=
  (s.parts.map fun e => if e.1 = n then 0 else ((heldLayout e.2).map fun l => l.contexts.getD d 0).getD 0).sum

/-- Slots and cellar of one present die suffice (R165, R233). -/
def dieFits (s : State) (n : Nat) (l : Layout) (xs : List RegionRt) (d : Nat) : Bool :=
  let reps := ((List.range l.streams.length).filter fun i => decide (d ∈ replicaDies s l xs i)).length
  decide (reps ≤ l.contexts.getD d 0) && decide (l.contexts.getD d 0 ≤ 16384 - slotsElse s n d) &&
  decide (cellarNeeded s l xs d ≤ l.cellar.getD d 0 * 1048576) && decide (l.cellar.getD d 0 ≤ cellarFree s n d) &&
  (rangePlace s n d (l.cellar.getD d 0 * 1048576)).isSome

/-- No cluster of the layout belongs to another partition (R35). -/
def clustersOwn (s : State) (n : Nat) (l : Layout) : Bool :=
  s.parts.all fun e => e.1 == n || ((heldLayout e.2).map fun m =>
    (List.range 4).all fun d => (m.clusters.getD d 0 &&& l.clusters.getD d 0) == 0).getD true

/-! ### The judge's time (R259) -/

/-- S of R259: COUNT when no branch goes back, else 1,024. -/
def judgeSteps (v : List Word) : Nat :=
  let back := (List.range v.length).any fun i =>
    let w := (v.getD i 0).toNat
    let op := fld w 31 26
    decide (0x18 ≤ op) && decide (op ≤ 0x1E) && decide (fld w 7 0 ≤ i)
  if back then 1024 else v.length

/-- J / P and J / INTERVAL of a layout's regions. -/
def judgeLoad (l : Layout) : List (Nat × Nat) :=
  (List.range l.regions.length).flatMap fun g =>
    let r := l.regions.getD g default
    match r.verdict with
    | none => []
    | some v =>
      let j := (24 + ceilDiv (judgeSteps v) 2) * 5
      ((l.plans.filter fun p => p.region == g).map fun p => (2 * j, p.period)) ++ (r.tuning.toList.map fun t => (2 * j, t.interval))

/-- The whole package's judge time stays within a half. -/
def judgeFits (s : State) (n : Nat) (l : Layout) : Bool :=
  !(above1 (judgeLoad l ++ s.parts.flatMap fun e => if e.1 = n then [] else ((heldLayout e.2).map judgeLoad).getD []))

/-! ### The whole layout -/

/-- A CONSTREF of REF_KIND 1 is uploaded by this seat for this partition on every present die it needs (R217). -/
def uploaded (s : State) (seat : Seat) (n : Nat) (r : RegionRec) (c : ConstRec) : Bool :=
  s.seats.uploads.any fun u => u.seat == seat && u.part == n && u.digest == c.digest &&
    (r.places.map (·.die) ++ (if r.integ.mode = 3 then [r.integ.pDie] else [])).all fun d => !diePresent s d || bitOf u.dies d

/-- An uploaded constant whose SHAPE differs (R217). -/
def uploadShape (s : State) (seat : Seat) (n : Nat) (c : ConstRec) : Bool :=
  s.seats.uploads.all fun u => !(u.seat == seat && u.part == n && u.digest == c.digest) || readHdr u.body 0 == c.hdr

/-- Refusals of the CONSTREF records that name uploaded constants. -/
def ref1Errs (s : State) (seat : Seat) (n : Nat) (l : List LRec) : Errs :=
  (regionGroups l).flatMap fun g =>
    let r := readRegion (g.filter fun q => !(hollow q && q.typ == 3))
    (g.filter fun q => q.typ == 7).flatMap fun q =>
      let c := readConst q
      if c.refKind = 1 ∧ hollow q = false then err (!(uploaded s seat n r c)) eAbsent q.idx ++ err (!(uploadShape s seat n c)) eFormat q.idx else []

/-- Ports that other layouts' contexts take (R174). -/
def portsElse (s : State) (n : Nat) : Nat :=
  s.parts.foldl (fun m e => if e.1 = n then m else ((heldLayout e.2).map fun l =>
    l.streams.foldl (fun m t => if captureFed t then m ||| t.source else m) m).getD m) 0

/-- A port that feeds a second context, by STREAM record (R174). -/
def portErrs : Nat → List LRec → Errs
  | _, [] => []
  | m, r :: l =>
    let t := readStream r.body
    if captureFed t then err (!(m &&& t.source == 0)) eFormat r.idx ++ portErrs (m ||| t.source) l else portErrs m l

/-- Refusals that the state of the device decides (R174, R207, R217, R222, R224, R233, R259). What a record without contents would have asked
for is not counted (log 76). -/
def admitErrs (s : State) (seat : Seat) (n : Nat) (microcode : Nat) (y : Layout) (l : List LRec) (xs : List (RegionRt × Nat)) : Errs :=
  let regs := xs.map (·.1)
  let places (g : Nat) : List LRec := ((regionGroups l).getD g []).filter fun r => r.typ == 3
  let place (g k : Nat) : Nat := (((places g)[k]?).map (·.idx)).getD noRec
  let blank (t : Nat) : Bool := l.any fun r => r.typ == t && hollow r
  let binds := (l.filter fun r => r.typ == 15)
  err (decide (microcode < y.microcodeMin)) eState 0 ++ ref1Errs s seat n l ++ portErrs (portsElse s n) (l.filter fun r => r.typ == 8) ++
  (binds.flatMap fun r => let b := readBind r.body
    err (b.base == 3 && !(b.appSource == 0xFF) && !(b.appSource == s.time.app.source)) eState r.idx) ++
  (List.range xs.length).flatMap (fun g => let x := xs.getD g default; err (!(x.2 == 0) && !((places g).any hollow)) x.2 (place g x.1.chosen)) ++
  err (!(clustersOwn s n y) || !(clustersFit y regs) || !(judgeFits s n y) ||
    ([0, 1, 2, 3].any fun d => decide (185000 < reserveOn y regs d + reservedElse s n d)) ||
    ([0, 1, 2, 3].any fun d => diePresent s d && !blank 2 && !(dieFits s n y regs d))) eOvercommit noRec ++
  (l.filter fun r => r.typ == 14 && !hollow r).flatMap fun r => let t := readTasks r.body
    err (!((wdgUnit s t.wdg).holder == 0) || decide (slotsFree s < t.tasks.length)) eOvercommit r.idx

/-! ### Reserving (R228 step 3) -/

/-- The lowest free context slots of a die, `k` of them. -/
def freeSlots (s : State) (d k : Nat) : List Nat :=
  let used := (s.parts.flatMap fun e => e.2.slots.flatMap fun t => t.2).filterMap fun w => if w.1 = d then some w.2 else none
  ((List.range (used.length + k)).filter fun i => !(decide (i ∈ used))).take k

/-- Context slots for every replica: by stream, die and slot. -/
def slotPlan (s : State) (l : Layout) (xs : List RegionRt) : Tbl (List (Nat × Nat)) :=
  let on (d : Nat) : List Nat := (List.range l.streams.length).filter fun i => decide (d ∈ replicaDies s l xs i)
  let free := [0, 1, 2, 3].map fun d => (on d).zip (freeSlots s d (on d).length)
  ((List.range l.streams.length).map fun i =>
    (i, (List.range 4).filterMap fun d => ((free.getD d []).find? fun e => e.1 == i).map fun e => (d, e.2))).filter fun e => !e.2.isEmpty

/-- A die takes note of the clusters that a layout gives to partition `n` (R133). -/
def ownersOn (n : Nat) (l : Layout) (d : Nat) (s : State) : State :=
  modDie d (fun x =>
    let o := (List.range 64).foldl (fun t c => if bitOf (l.clusters.getD d 0) c then tblPut t c (n + 1) else t) x.owner
    { x with owner := o }) s

/-- Everything reserved in one step (R228 step 3): regions, slots, cellar ranges, clusters, watchdog unit and task slots. -/
def reserve (n : Nat) (l : Layout) (xs : List RegionRt) (s : State) : State :=
  let slots := slotPlan s l xs
  let bases := (List.range 4).map fun d => (rangePlace s n d (l.cellar.getD d 0 * 1048576)).getD 0
  let rs : Tbl RegionRt := ((List.range xs.length).map fun g => (g, xs.getD g default)).filter fun e => !(e.2 == {})
  let s := modPart n (fun p => { p with regions := rs, slots := slots, cellBase := bases }) s
  let s := (List.range 4).foldl (fun s d => ownersOn n l d s) s
  match l.tasks with
  | none => s
  | some t =>
    let free := ((List.range 64).filter fun i => !(taskOf s i).valid).take t.tasks.length
    let s := modWdg t.wdg (fun u => { u with holder := 4, part := n, opn := t.opn, close := t.close, cycle := t.cycle }) s
    (List.range t.tasks.length).foldl (fun s j =>
      let e := t.tasks.getD j default
      modTask (free.getD j 0) (fun _ =>
        ⟨true, t.wdg, e.source, e.min, e.max, e.order, 0, false, if e.source = 0 then j else e.region, n⟩) s) s

/-- Everything that a partition holds is released (R229, R236): clusters, contexts, cellar (zeroed), windows, unit, tasks. -/
def unreserve (n : Nat) (s : State) : State :=
  let p := part s n
  let s := p.slots.foldl (fun s t => t.2.foldl (fun s w => modDie w.1 (fun x => { x with ctx := tblErase x.ctx w.2 }) s) s) s
  let s := (List.range 4).foldl (fun s d =>
    let lo := p.cellBase.getD d 0
    let hi := lo + (((heldLayout p).map fun l => l.cellar.getD d 0).getD 0) * 1048576
    modDie d (fun x => { x with
      owner := x.owner.filter (fun e => !(e.2 == n + 1)), windows := x.windows.filter (fun w => !(w.part == n)),
      cellar := x.cellar.filter (fun c => decide (c.1 < lo) || decide (hi ≤ c.1)),
      poison := x.poison.filter (fun w => decide (8 * w < lo) || decide (hi ≤ 8 * w)),
      programs := x.programs.filter (fun e => !(e.1 == n)),
      pegs := x.pegs.filter (fun e => !(e.2.part == n)) }) s) s
  wdgPartFree n s

end Sys2Proof.Machine
end

