-- ==== Sys2Proof/Machine/Slivers.lean ====
section
/-! DEFINITION. Machine/Slivers.lean: where a region's constants lie in the cellar, what shelves and store rooms hold of them, and the
handing out of slivers (R109, R114, R115, R122, R124, R216, R217). -/

namespace Sys2Proof.Machine

/-! ### Constants in the cellar (R40, R41, R46, R216, R217) -/

/-- Offset, in a partition's range on a die, of the space of stream `i`; of the constants when `i` is the number of streams. -/
def streamOffset (s : State) (n : Nat) (l : Layout) (d i : Nat) : Nat :=
  ((List.range i).map fun j => if (slotOn s n j d).isSome then streamBytes l j else 0).sum

/-- Where each CONST of a partition lies on a die: constant index, address, contents. -/
def constPlaces (s : State) (n d : Nat) (l : Layout) (xs : List RegionRt) : List (Nat × Nat × List (Option Byte)) :=
  let all := l.regions.flatMap (·.consts)
  let base := (part s n).cellBase.getD d 0 + streamOffset s n l d l.streams.length
  ((constsOn l xs d).foldl (fun (a : Nat × List (Nat × Nat × List (Option Byte))) i =>
    let c := all.getD i default
    let b := constCells c.body
    (a.1 + roundUp b.length 64, a.2 ++ [(i, a.1, b)])) (base, [])).2

/-- The constants before a region's own in its layout. -/
def constStart (l : Layout) (g : Nat) : Nat := ((l.regions.take g).map fun r => r.consts.length).sum

/-- Where the constants of a region lie on a die, each with its header and the bytes it takes there: its own CONSTs, earlier ones that it
names, uploads (R217). -/
def regionConsts (s : State) (n d g : Nat) (l : Layout) : List (TensorHdr × Nat × Nat) :=
  let ps := constPlaces s n d l (heldRegions (part s n) l)
  let cs := (l.regions.getD g default).consts
  (List.range cs.length).filterMap fun k =>
    let c := cs.getD k default
    if c.refKind = 1 then
      (s.seats.uploads.find? fun u => u.part == n && u.digest == c.digest && seatNo u.seat == (part s n).seat).map fun u =>
        (c.hdr, u.at_.getD d 0, (constImage u.body).length)
    else
      (ps.find? fun p => p.1 == (if c.refKind = 0 then c.index else constStart l g + k)).map fun p => (c.hdr, p.2.1, p.2.2.length)

/-- A constant read from a cellar into the form of a shelf or store room: scale words up to a word boundary, elements in words and
containers; positions of blocks with M = 0 are not read (R39, R40, R46). -/
def constRead (m : List Host.Cell) (c : TensorHdr × Nat × Nat) : List (Option Byte) :=
  let f := (Fmt.ofCode c.1.fmt).getD .s8
  let shape := hdrShape c.1
  let b := blockOfCode c.1.block
  let ws := scalesIn m c.2.1 (hdrScales c.1)
  let k := roundUp (2 * ws.length) 4
  (padTo k (scaleBytes ws)).map some ++ areaCells false ⟨f, shape, c.1.axis, b, ws, elemsIn true m (c.2.1 + k) f shape c.1.axis b ws⟩

/-- The constants of a region one after another in that form, as the store room and sliver plans count their bytes. -/
def constsRead (s : State) (d : Nat) (cs : List (TensorHdr × Nat × Nat)) : List (Option Byte) := cs.flatMap (constRead (die s d).cellar)

/-- Poisoned words among a region's constants on a die (R158). -/
def constsPoison (s : State) (d : Nat) (cs : List (TensorHdr × Nat × Nat)) : Nat :=
  (cs.map fun c => poisonIn (die s d) c.2.1 c.2.2).sum

/-! ### Staging (R109, R122, R124) -/

/-- What of a region's constants the store rooms of some clusters hold is written from its cellar copy (R109, R122). -/
def stageStore (d n g : Nat) (cl : List Nat) (s : State) : State :=
  match heldLayout (part s n) with
  | none => s
  | some l =>
    let r := l.regions.getD g default
    if r.consts.isEmpty then s
    else
      let b := constsRead s d (regionConsts s n d g l)
      let put (m : List Host.Cell) : List Host.Cell :=
        (Config.storePlan (regionCode r)).foldl (fun m p => cellsWrite m p.2.1 ((b.drop p.1).take p.2.2)) m
      cl.foldl (fun s c => modDie d (fun x => { x with store := tblMod [] x.store c put }) s) s

/-- A region's clusters on placement `k` hold in their store rooms what its programs keep of its constants there (R109). -/
def stageOn (n g k : Nat) (cl : List Nat) (s : State) : State :=
  match (regionRec s n g).bind fun r => placeRec r k with
  | some p => stageStore p.die n g cl s
  | none => s

/-- The program of a step. -/
def progOf (r : RegionRec) (k : Nat) : ProgRec := (r.progs.find? fun p => decide (p.first ≤ k) && decide (k ≤ p.last)).getD default

/-- A core's shelf takes the program and what the sliver plan for `m` healthy cores pins to it (R109, R124 step 9). DESIGN CHOICE: the
program's code lies at address 0 (log 66). -/
def stageShelf (d i m : Nat) (p : ProgRec) (b : List (Option Byte)) (s : State) : State :=
  modCore d i (fun x =>
    let sh := memWrite x.shelf 0 p.code
    { x with shelf := if b.isEmpty then sh
        else (Config.pinPlan p.code m (i % 32)).foldl (fun m q => cellsWrite m q.2.1 ((b.drop q.1).take q.2.2)) sh }) s

/-- The shelves of cores `hs` of a cluster take the program of step `k` and its pinned constants. -/
def stageShelves (d n g c k : Nat) (hs : List Nat) (s : State) : State :=
  match heldLayout (part s n) with
  | none => s
  | some l =>
    let r := l.regions.getD g default
    let b := if r.consts.isEmpty then [] else constsRead s d (regionConsts s n d g l)
    hs.foldl (fun s i => stageShelf d (32 * c + i) hs.length (progOf r k) b s) s

/-- Poisoned words read for the copy of a frame that runs on a die (R158, R240). -/
def poisonRead (d : Nat) (id : FrameId) (n : Nat) (s : State) : State :=
  if n = 0 then s
  else
    let add (c : Copy) : Copy := if copyOn c && c.die == d then { c with cnt := { c.cnt with uncorrCellar := c.cnt.uncorrCellar + n } } else c
    modFrame id (fun f => { f with main := add f.main, twin := f.twin.map add }) s

/-- The shelves of a frame's cluster take the program of a step (R109); the poisoned words that this reads count in the frame (R158). -/
def stageProgram (d g c k : Nat) (hs : List Nat) (f : FrameId) (s : State) : State :=
  match heldLayout (part s f.part) with
  | none => s
  | some l => stageShelves d f.part g c k hs (poisonRead d f (constsPoison s d (regionConsts s f.part d g l)) s)

/-! ### Slivers (R110, R114, R117) -/

/-- A core takes slivers of a frame and works on them: it was healthy when the frame began, and no FENCE_CORE has taken it out since (R123,
R297). -/
def mayTake (w : Work) (k : Nat) : Bool := decide (k ∈ w.live)

/-- The next sliver to hand out, and the work once it is: one that a fenced core left, else the next in ascending index (R114, R123). -/
def nextSliver (w : Work) : Option (Nat × Work) :=
  match w.again with
  | i :: r => some (i, { w with again := r })
  | [] => if w.next < w.total then some (w.next, { w with next := w.next + 1 }) else none

/-- A core takes the next sliver of its cluster (R110, R114). -/
def handSliver (d c k : Nat) (s : State) : State :=
  let s := coreBusyCount d (32 * c + k) s
  match workOf s d c with
  | some w =>
    match (nextSliver w).filter fun _ => mayTake w k with
    | some (i, w') =>
      let s := setWork d c { w' with out := w.out + 1, since := if w.out = 0 then s.time.edges else w.since } s
      let s := modCore d (32 * c + k) (fun x => { x with
        frame := some w.frame, sliver := i + 1, busyAt := if x.sliver = 0 then s.time.edges else x.busyAt, size := min w.grain (w.units - w.grain * i), sig := w.seed }) s
      clusterCount d c 0x08 1 s
    | none => modCore d (32 * c + k) (fun x => { x with frame := none, sliver := 0, size := 0 }) s
  | none => s

/-- The first slivers of a step are handed out in ascending index (R114). DESIGN CHOICE: to the cores in ascending order; the spec does
not say which core gets which (log 66). -/
def handOut (d c : Nat) (w : Work) (s : State) : State :=
  w.live.foldl (fun s k => if (coreOf s d (32 * c + k)).halted then s else handSliver d c k s) (setWork d c w s)

/-- Steps begin until one has slivers; `n` bounds how many are left (R114, R117). `i` of `r` is the cluster's place; `x` the region's
records. A step that begins a program has it staged into the shelves (R109). -/
def beginSteps (d c i r : Nat) (f : FrameId) (g : Nat) (x : RegionRec) : Nat → Nat → State → State
  | n, k, s =>
    let old := workOf s d c
    let ran := (old.map (·.ran)).getD []
    let hs := (old.map (·.cores)).getD (healthyList (die s d) c)
    let live := (old.map (·.live)).getD hs
    match n, x.steps[k]? with
    | n + 1, some t =>
      let p := progOf x k
      let s := if p.first = k then stageProgram d g c k hs f s else s
      let u := clusterShare t.units r i
      let total := sliverCount t u hs.length
      let s := stepBegins d f.part g c total s
      if total = 0 then beginSteps d c i r f g x n (k + 1) (clusterCount d c 0x04 1 s)
      else handOut d c ⟨f, k, u, sliverGrain t u hs.length, p.sigSeed, p.sigFold, 0, total, 0, s.time.edges, ran, hs, live, []⟩ s
    | _, _ => setWork d c ⟨f, k, 0, 0, 0, 0, 0, 0, 0, 0, ran, hs, live, []⟩ s

end Sys2Proof.Machine
end

