-- ==== Sys2Proof/Machine/Move.lean ====
section
/-! DEFINITION. Machine/Move.lean: regions whose clusters no longer qualify (R128, R234). -/

namespace Sys2Proof.Machine

/-- A region's clusters on its chosen placement all still qualify. -/
def mainHolds (s : State) (n g : Nat) : Bool :=
  let x := regionRt s n g
  match (regionRec s n g).bind fun r => placeRec r x.chosen with
  | some p => diePresent s p.die && !x.clusters.isEmpty && x.clusters.all fun c => clQualifies (die s p.die) p.minCores c
  | none => true

/-- A DUPLEX copy's clusters all still qualify. -/
def partnerHolds (s : State) (n g : Nat) : Bool :=
  let x := regionRt s n g
  match (regionRec s n g).bind fun r => placeRec r 3 with
  | some p => diePresent s p.die && !x.pClusters.isEmpty && x.pClusters.all fun c => clQualifies (die s p.die) p.minCores c
  | none => true

/-- The placement of the main region that bounds a shadow region's, where `g` shadows (R231). -/
def shadowPlace (s : State) (n : Nat) (l : Layout) (r : RegionRec) : Option PlaceRec :=
  if r.integ.mode = 2 then (l.regions.getD r.integ.shadow default).places[(regionRt s n r.integ.shadow).chosen]? else none

/-- What is kept for region `g` once it is on clusters `cl` of placement `k`: its spill and bound are that placement's (R231, R234). -/
def movedTo (s : State) (n g k : Nat) (cl : List Nat) : RegionRt :=
  match regionRec s n g, (part s n).layout with
  | some r, some l =>
    let p := r.places.getD k default
    { regionRt s n g with chosen := k, clusters := cl, spill := spillOf r p, tmin := tminOf l r p (shadowPlace s n l r) }
  | _, _ => regionRt s n g

/-- A move of region `g` to clusters `cl` of placement `k` keeps the limits of R234. -/
def moveFits (s : State) (n g k : Nat) (cl : List Nat) : Bool :=
  match (part s n).layout with
  | none => false
  | some l => clustersFit l ((heldRegions (part s n) l).set g (movedTo s n g k cl))

/-- The placement that R128 moves a region to: the current one, else the first later usable one that qualifies. -/
def moveTarget (s : State) (n g : Nat) : Option (Nat × List Nat) :=
  let x := regionRt s n g
  match regionRec s n g with
  | none => none
  | some r =>
    ([0, 1, 2].filter fun k => decide (x.chosen ≤ k) && x.usable.getD k false).findSome? fun k =>
      ((r.places[k]?).bind (placeClusters s)).bind fun cl => if moveFits s n g k cl then some (k, cl) else none

/-- The frames of a region that wait: the real ones are REFUSED with a cause, the tuning ones of a partition that no longer
runs are dropped and counted as skipped (R128, R191). -/
def refuseWaiting (n : Nat) (g : Option Nat) (cause : Nat) (s : State) : State :=
  let l := s.frames.filter fun f => f.id.part == n && (g.isNone || g == some f.id.region) && f.phase == .waiting && f.attempt == 0
  l.foldl (fun s f =>
    if f.id.tuning then
      if cause = 5 then dropFrame f.id (modPart n (fun p => { p with skipped := up16 p.skipped }) s) else s
    else refuse f cause s) s

/-- A partition becomes FENCED (R128, R129): its unit stops, its waiting frames are REFUSED. -/
def fencePartition (n : Nat) (s : State) : State :=
  if (part s n).st = 4 then s else refuseWaiting n none 5 (setPartState n 4 (wdgPartStop n s))

/-- R128 for a region's main placement: the move begins, or the partition becomes FENCED. A fence that takes a cluster of a move in
progress out of qualifying begins the move anew. -/
def moveMain (n g : Nat) (s : State) : State :=
  if (part s n).st == 0 || (part s n).st == 4 || (part s n).st == 5 then s
  else
    match moveTarget s n g, regionRec s n g with
    | some (k, cl), some r =>
      let s := modRegion n g (fun _ => { movedTo s n g k cl with reload := some (tbSafe s + 50000000), moveNext := false }) s
      refuseWaiting n (some g) 4 (logError 13 (r.places.getD k default).die n g k s)
    | _, _ =>
      let d := (((regionRec s n g).bind fun r => placeRec r (regionRt s n g).chosen).map (·.die)).getD 0
      fencePartition n (logError 13 d n g 0xFF s)

/-- The clusters on which a DUPLEX copy can stand: the lowest-numbered qualifying PARTNER_CANDIDATES, within the limits of R234. -/
def partnerTarget (s : State) (n g : Nat) : Option (List Nat) :=
  ((regionRec s n g).bind fun r => placeRec r 3).bind fun p => (placeClusters s p).filter fun cl =>
    (regionRt s n g).pUsable && ((part s n).layout).any fun l => clustersFit l ((heldRegions (part s n) l).set g { regionRt s n g with pClusters := cl })

/-- R128 for a DUPLEX copy. -/
def movePartner (n g : Nat) (s : State) : State :=
  match (regionRec s n g).bind fun r => placeRec r 3 with
  | some _ =>
    let t := partnerTarget s n g
    modRegion n g (fun x => { x with pClusters := t.getD [], pReload := t.isSome, pMoveNext := false }) s
  | none => s

/-- A copy of the region is on its cores. -/
def regionBusy (s : State) (n g : Nat) : Bool :=
  s.frames.any fun f => f.id.part == n && !(f.phase == .waiting) &&
    (f.main.region == g || (f.twin.map (·.region)) == some g)

/-- Every region whose clusters a change on a die took out of qualifying goes through R128; where `defer`, a region of a RUNNING partition
with an unpublished started frame only after it (R297). -/
def moveRegions (d : Nat) (defer : Bool) (s : State) : State :=
  (List.range 16).foldl (fun s n =>
    match (part s n).layout with
    | none => s
    | some l => (List.range l.regions.length).foldl (fun s g =>
        let r := l.regions.getD g default
        let onD := ((placeRec r (regionRt s n g).chosen).map (·.die)) == some d
        let wait := defer && (part s n).st == 2 && regionBusy s n g
        let s := if onD && !mainHolds s n g then
            (if wait then modRegion n g (fun x => { x with moveNext := true }) s else moveMain n g s) else s
        if r.integ.mode == 3 && r.integ.pDie == d && !partnerHolds s n g then
          (if wait then modRegion n g (fun x => { x with pMoveNext := true }) s else movePartner n g s) else s) s) s

/-- A move deferred by a frame goes on once it has been published (R297). -/
def moveDeferred (n g : Nat) (s : State) : State :=
  if regionBusy s n g then s
  else
    let s := if (regionRt s n g).moveNext then
        let s := modRegion n g (fun x => { x with moveNext := false }) s
        if mainHolds s n g then s else moveMain n g s
      else s
    if (regionRt s n g).pMoveNext then
      let s := modRegion n g (fun x => { x with pMoveNext := false }) s
      if partnerHolds s n g then s else movePartner n g s
    else s

/-- The deferred moves of a partition's regions, a shadow region's among them. -/
def movesDeferred (n : Nat) (s : State) : State :=
  (List.range (((part s n).layout.map (·.regions.length)).getD 0)).foldl (fun s g => moveDeferred n g s) s

end Sys2Proof.Machine
end

