-- ==== Sys2Proof/Machine/TimeOps.lean ====
section
/-! DEFINITION. Machine/TimeOps.lean: the time bases, the servo and the steps as shared operations (R376 to R395). -/

namespace Sys2Proof.Machine

/-- Disciplined base 1 TB_NA, 2 TB_NB, else TB_APP (R375). -/
def baseOf (s : State) (b : Nat) : Base := if b = 1 then s.time.na else if b = 2 then s.time.nb else s.time.app

/-- `f` applied to a disciplined base. -/
def modBase (b : Nat) (f : Base → Base) (s : State) : State :=
  if b = 1 then { s with time := { s.time with na := f s.time.na } }
  else if b = 2 then { s with time := { s.time with nb := f s.time.nb } }
  else if b = 3 then { s with time := { s.time with app := f s.time.app } }
  else s

/-- The long count of a base in ns (R376). -/
def longOf (s : State) (b : Nat) : Nat := if b = 0 then tbSafe s else (baseOf s b).count

/-- SET of a base; TB_SAFE always is. -/
def baseSet (s : State) (b : Nat) : Bool := b == 0 || (baseOf s b).set

/-- One TIME clock edge of a disciplined base: 2.5 ns × (1 + FREQ × 10^-12) in units of 2^-32 ns; where that is no whole
number of units, `up` says to which side it is rounded (R378; log 5). -/
def baseEdge (up : Bool) (b : Base) : Base :=
  let num : Int := 5 * 2 ^ 31 * (1000000000000 + b.freq)
  let q := num / 1000000000000
  let q := if up && !(num % 1000000000000 == 0) then q + 1 else q
  let t := b.count * 2 ^ 32 + b.frac + q.toNat
  { b with count := t / 2 ^ 32 % 2 ^ 64, frac := t % 2 ^ 32 }

/-- One TIME clock edge passes: TB_SAFE by 2.5 ns (R377), the disciplined bases at their rates (R378). -/
def tick (s : State) : State :=
  { s with
    free := s.free + 3
    time := { s.time with
      edges := s.time.edges + 1
      na := baseEdge (Config.freeBool s.free) s.time.na
      nb := baseEdge (Config.freeBool (s.free + 1)) s.time.nb
      app := baseEdge (Config.freeBool (s.free + 2)) s.time.app } }

/-- A stamp of 34 bits placed on a long count (R381). -/
def extendStamp (ref : Int) (ns era : Nat) : Int :=
  let d : Int := ((era * 2 ^ 32 + ns : Nat) - ref) % 2 ^ 34
  ref + (if 2 ^ 33 ≤ d then d - 2 ^ 34 else d)

/-- The servo's source follows its flags: 68 for TB_NA, 69 for TB_NB (R330). -/
def servoLevel (b : Nat) (s : State) : State :=
  if b = 1 ∨ b = 2 then icuLevel (67 + b) ((baseOf s b).jump || (baseOf s b).shift || (baseOf s b).pathChg) s else s

/-- The long count changes by an amount; the wrap source is signalled when its upper word changes (R380). -/
def applyStep (b : Nat) (amount : Int) (s : State) : State :=
  let old := (baseOf s b).count
  let new := unsgn 64 (old + amount)
  let s := modBase b (fun x => { x with count := new }) s
  if new / 2 ^ 32 = old / 2 ^ 32 then s else icuEvent (64 + b) s

/-- A refused sample: the run of refusals goes on or begins (R385, R388). -/
def offsetRefused (b : Nat) (theta : Int) (s : State) : State :=
  let x := baseOf s b
  let run := if 0 < x.run ∧ (theta - x.refused).natAbs ≤ x.stepLimit then min (x.run + 1) 15 else 1
  let shift := x.shift || decide (x.nRefuse ≤ run)
  let s' := modBase b (fun x => { x with run := run, refused := theta, jump := true, jumps := up8 x.jumps, shift := shift }) s
  let s' := if shift && !x.shift then logError 11 b 255 1 0 s' else s'
  servoLevel b s'

/-- An accepted sample: the proportional and integral servo with its clamps (R385). -/
def servoAccept (theta : Int) (x : Base) : Base :=
  let integ := clampInt (-500000000) 500000000 (x.integ + x.ki * theta)
  let f := clampInt (-500000000) 500000000 (-(integ + x.kp * theta))
  { x with run := 0, jump := false, last := theta, history := (theta :: x.history).take 8, integ := integ,
           freq := clampInt (x.freq - 20000000) (x.freq + 20000000) f }

/-- An offset sample (R385). -/
def onOffset (b : Nat) (theta : Int) (s : State) : State :=
  let x := baseOf s b
  if !x.set then modBase b (fun x => { x with set := true }) (applyStep b (-theta) s)
  else if x.hold || x.pathChg then modBase b (fun x => { x with discarded := x.discarded + 1 }) s
  else if x.stepLimit < theta.natAbs then offsetRefused b theta s
  else servoLevel b (modBase b (servoAccept theta) s)

/-- An offset sample of TIM_OFFSET, whose lower word is held until this write (R384, R399). -/
def offsetWrite (b w : Nat) (s : State) : State :=
  let x := baseOf s b
  let s := modBase b (fun x => { x with offLo := 0 }) s
  if (b = 1 ∨ b = 2) ∧ x.feed = false then onOffset b (sgn 64 (w * 2 ^ 32 + x.offLo.toNat)) s else s

/-- A path sample (R392). -/
def pathStep (p : Int) (x : Base) : Base :=
  let near (q : Int) : Bool := decide ((p - q).natAbs ≤ x.pathStep)
  let x := { x with lastPath := p }
  if !x.set then { x with path := p }
  else if !x.pathChg then
    if near x.path then { x with path := p }
    else { x with pathChg := true, pathChgs := up8 x.pathChgs, pathFirst := p, pathRun := 1 }
  else if near x.pathFirst then
    if x.pathHold ≤ x.pathRun + 1 then { x with pathChg := false, path := p, pathRun := 0 }
    else { x with pathRun := x.pathRun + 1 }
  else { x with pathFirst := p, pathRun := 1 }

/-- A path sample of TB_NA or TB_NB, with the event logged when PATH_CHANGE is set (R392, R486). A run of length 1 already
ends it when PATH_HOLD is 1. -/
def onPath (b : Nat) (p : Int) (s : State) : State :=
  if b = 1 ∨ b = 2 then
    let had := (baseOf s b).pathChg
    let s := modBase b (pathStep p) s
    let s := if !had && (baseOf s b).pathChg then logError 11 b 255 2 0 s else s
    let x := baseOf s b
    let s := if x.pathChg && decide (x.pathHold ≤ x.pathRun) then
        modBase b (fun x => { x with pathChg := false, path := p, pathRun := 0 }) s else s
    servoLevel b s
  else s

/-- Locked within a bound (R386). -/
def lockedWithin (x : Base) (bound : Nat) : Bool :=
  x.set && !x.jump && !x.shift && !x.pathChg && x.history.length == 8 && x.history.all fun h => decide (h.natAbs ≤ bound)

/-- The time actions of R389: STEP, ADOPT, DISMISS, PATH_ACK. -/
inductive TimeAct | step (amount : Int) | adopt | dismiss | pathAck
  deriving DecidableEq, Repr

/-- The status of a time action (R389). -/
def timeActStatus (a : TimeAct) (b : Nat) (s : State) : Nat :=
  let x := baseOf s b
  lowest [(b == 0 || decide (3 < b), eFormat), (decide (1 ≤ b) && decide (b ≤ 3) && !x.set, eState),
    (match a with
     | .step n => (n == 0, eZero)
     | .adopt => (decide (1 ≤ b) && !x.shift, eState)
     | .dismiss => (false, 0)
     | .pathAck => (decide (1 ≤ b) && !x.pathChg, eState))]

/-- A step is accepted: it takes effect 50 µs later (R390). -/
def stepAccepted (b : Nat) (amount : Int) (s : State) : State :=
  modBase b (fun x => { x with pending := x.pending ++ [(tbSafe s + 50000, amount)], stepAmt := amount }) s

/-- The effect of an accepted time action (R389, R390). -/
def timeActEffect (a : TimeAct) (b : Nat) (s : State) : State :=
  match a with
  | .step n => stepAccepted b n s
  | .adopt => stepAccepted b (-(baseOf s b).refused) s
  | .dismiss => servoLevel b (modBase b (fun x => { x with shift := false, jump := false, run := 0 }) s)
  | .pathAck => servoLevel b (modBase b (fun x => { x with path := x.lastPath, pathChg := false, pathRun := 0 }) s)

/-- A time action from SAFETY_SET or TIM_CMD: a command completes with its status, a register write has none (R389, R399). -/
def timeAct (src : TimeSrc) (a : TimeAct) (b : Nat) (s : State) : Res :=
  match src with
  | .cmd h => command h (fun s =>
      finish h (lowest (safetyRights s h ++ [(true, timeActStatus a b s)])) (timeActEffect a b) s) s
  | .reg => .next (if timeActStatus a b s = 0 then timeActEffect a b s else s)

/-- One base changes by a commanded or propagated step: its flags and run clear, STEPS counts it, the amount is kept, and
the times that a forward step skipped or left less than 20 µs are noted (R389, R390, R395). -/
def stepOne (b : Nat) (amount : Int) (s : State) : State :=
  let old := (baseOf s b).count
  let s := applyStep b amount s
  let s := modBase b (fun x => { x with
    shift := false, jump := false, run := 0, steps := up8 x.steps, stepAmt := amount, stepAt := tbSafe s,
    stepLo := old, stepHi := if amount < 0 then old else x.count + 20000 }) s
  servoLevel b (logError 11 b 255 3 (unsgn 32 amount) s)

/-- The bases that a step of base `b` moves: TB_APP too when it takes `b` as its SOURCE and is SET (R390). -/
def stepBases (s : State) (b : Nat) : List Nat :=
  if (b = 1 ∨ b = 2) ∧ s.time.app.source + 1 = b ∧ s.time.app.set then [b, 3] else [b]

/-- The pending step of a base that is due (R390). -/
def dueStep (s : State) (b : Nat) : Option (Nat × Int) :=
  if 1 ≤ b ∧ b ≤ 3 then (baseOf s b).pending.head?.filter fun p => decide (p.1 ≤ tbSafe s) else none

/-- The writable fields of TIM_LIMIT; a field written 0 keeps its value (R399). -/
def limitWrite (v : Nat) (x : Base) : Base :=
  { x with stepLimit := if fld v 15 0 = 0 then x.stepLimit else fld v 15 0,
           nRefuse := if fld v 19 16 = 0 then x.nRefuse else fld v 19 16,
           pathStep := if fld v 31 20 = 0 then x.pathStep else fld v 31 20 }

/-- TIM_CTRL of a base; SOURCE is TB_APP's alone, and its change clears the run and the flags (R391, R399). -/
def ctrlWrite (b v : Nat) (x : Base) : Base :=
  let src := fld v 2 1
  if b = 3 then
    if src = x.source then { x with feed := bitOf v 0, hold := bitOf v 3 }
    else { x with feed := bitOf v 0, hold := bitOf v 3, source := src, run := 0, jump := false, shift := false }
  else { x with feed := bitOf v 0, hold := bitOf v 3 }

/-- A loaded partition's TIMEBIND that names another source for TB_APP (R391). -/
def sourceBound (s : State) (src : Nat) : Bool :=
  s.parts.any fun e => (e.2.layout.map fun l => l.binds.any fun b =>
    b.base == 3 && !(b.appSource == 0xFF) && !(b.appSource == src)).getD false

/-- TIME_CFG's writes of a base's registers (R411, R399). -/
def timeCfgEffect (b : Nat) (ctrl gain limit hold : Nat) (s : State) : State :=
  servoLevel b (modBase b (fun x =>
    let x := limitWrite limit (ctrlWrite b ctrl x)
    { x with kp := fld gain 15 0, ki := fld gain 31 16, pathHold := if hold % 256 = 0 then x.pathHold else hold % 256 }) s)

/-- The cross-domain comparison of a millisecond (R393). -/
def xdEffect (s : State) : State :=
  let diff := sgn 64 (unsgn 64 ((s.time.na.count : Int) - s.time.nb.count))
  let t := { s.time with xdDiff := clampInt (-2147483648) 2147483647 diff }
  if t.xdBound < diff.natAbs then
    let new := !t.xdAlarm
    let s := { s with time := { t with xdAlarm := true, xdWithin := 0, xdAlarms := if new then up8 t.xdAlarms else t.xdAlarms } }
    if new then icuLevel 70 true (logError 11 0 255 4 0 s) else s
  else
    let n : Nat := t.xdWithin + 1
    if t.xdAlarm && decide (16 ≤ n) then icuLevel 70 false { s with time := { t with xdAlarm := false, xdWithin := n } }
    else { s with time := { t with xdWithin := n } }

end Sys2Proof.Machine
end

