-- ==== Sys2Proof/Machine/Frames.lean ====
section
/-! DEFINITION. Machine/Frames.lean: the life of a frame from its launch to its end on a die (R181 to R192, R124). -/

namespace Sys2Proof.Machine

/-! ### Copies of a frame (R241) -/

/-- The copy stands on one of these clusters. -/
def meets (d : Nat) (cl : List Nat) (c : Copy) : Bool := c.die == d && c.clusters.any fun x => decide (x ∈ cl)

/-- The copies in flight on clusters of a die. -/
def framesOn (s : State) (d : Nat) (cl : List Nat) : List (FrameId × Bool) :=
  s.frames.flatMap fun f => ((copiesOf f).filter fun e => copyOn e.2 && meets d cl e.2).map fun e => (f.id, e.1)

/-- The clusters that a die's fence sequence holds: those struck and those of the frames struck (R124, R186). -/
def seqClusters (s : State) (d : Nat) : List Nat :=
  match (die s d).seq with
  | none => []
  | some q => q.errs.filterMap errCluster ++ (q.struck.flatMap fun i => (frameOf s i).toList).flatMap fun f =>
      ((copiesOf f).filter fun e => e.2.die == d && (e.2.aborted || copyOn e.2)).flatMap fun e => e.2.clusters

/-- The clusters are idle (R186). -/
def clustersFree (s : State) (d : Nat) (cl : List Nat) : Bool :=
  (framesOn s d cl).isEmpty && !((seqClusters s d).any fun x => decide (x ∈ cl))

/-- The copy that runs a region on its placement. -/
def mainCopy (s : State) (n g : Nat) : Copy :=
  let x := regionRt s n g
  let d := (((regionRec s n g).bind fun r => placeRec r x.chosen).map (·.die)).getD 0
  { region := g, place := x.chosen, die := d, clusters := x.clusters }

/-- The partner's copy: the shadow region, or the copy on the partner placement; none when it cannot run (R248). -/
def partnerCopy (s : State) (n g : Nat) : Option Copy :=
  let r := integOf s n g
  let x := regionRt s n g
  if r.mode = 2 then
    let c := mainCopy s n r.shadow
    if diePresent s c.die && !reloading s n r.shadow && !c.clusters.isEmpty then some c else none
  else if r.mode = 3 then
    if diePresent s r.pDie && x.pUsable && !x.pReload && !x.pClusters.isEmpty then
      some { region := g, place := 3, die := r.pDie, clusters := x.pClusters }
    else none
  else none

/-! ### Evidence of a copy (R250) -/

/-- The record that the die sends for a copy, its CX fields 0. -/
def dieEvidence (s : State) (f : Frame) (c : Copy) : EvRec :=
  let rt := regionRt s f.id.part c.region
  let spill := if c.place = 3 then ((regionRec s f.id.part c.region).bind fun r => (placeRec r 3).map (spillOf r)).getD 0 else rt.spill
  let m : Int := (f.deadline : Int) - (c.endS : Int)
  let m := if c.phase = .ended ∧ c.why = .deadline then min (-1) m else m
  let e : EvRec :=
    { kind := bit f.id.tuning, part := f.id.part, die := c.die, region := c.region, seq := f.id.seq
      sched := f.L % 2 ^ 32, start := c.startS % 2 ^ 32, endS := c.endS % 2 ^ 32
      eras := f.L / 2 ^ 32 % 4 + 4 * (c.startS / 2 ^ 32 % 4) + 16 * (c.endS / 2 ^ 32 % 4)
      attempt := f.attempt, displaced := min 255 f.displaced, fenceCause := f.fenceCause
      margin := clampInt (-2147483648) 2147483647 m
      saturations := min 0xFFFFFFFF c.cnt.sats, residue := min 65535 c.cnt.residue, t2 := min 65535 c.cnt.t2
      corrSram := min 65535 c.cnt.corrSram, corrCellar := min 65535 c.cnt.corrCellar
      uncorrSram := min 65535 c.cnt.uncorrSram, uncorrCellar := min 65535 c.cnt.uncorrCellar
      pegFaults := min 65535 c.cnt.pegFaults, signature := c.sig
      minHealthy := (c.clusters.map (healthy (die s c.die))).foldl min 32
      outCrc := c.crc.toNat, mode := (integOf s f.id.part f.id.region).mode
      shortMask := c.shortMask, staleMask := c.staleMask }
  setEflag 0 f.fenced <| setEflag 1 c.aborted <| setEflag 2 (!(c.shortMask == 0)) <| setEflag 3 (!(c.staleMask == 0)) <|
    setEflag 4 f.reanch <| setEflag 5 f.unsure <| setEflag 6 (!(spill == 0)) <|
    setEflag 7 (!(c.place == 0) && !(c.place == 3)) e

/-- The die sends a copy's record on EVIDENCE (R138, R250). -/
def sendEvidence (id : FrameId) (tw : Bool) (s : State) : State :=
  match (frameOf s id).bind fun f => (copyOf f tw).map fun c => (f, c) with
  | some (f, c) => inject (c.die + 1) 0 2 16 0 (evBytes (dieEvidence s f c)) (dieCount c.die 0x1008 1 s)
  | none => s

/-! ### Windows (R182) -/

/-- The TB_APP stamp of an index entry, on TB_APP's long count. -/
def entryStamp (s : State) (e : Nat × Nat × Nat × Nat) : Int :=
  extendStamp (longOf s 3) (e.2.1 % 2 ^ 32) (e.2.1 / 2 ^ 32 % 4)

/-- The stamp of sample `a`: its block's stamp plus its place times the nominal period; none before the first block. `l` are the entries
of the block index (R169). -/
def sampleStamp (s : State) (l : List (Nat × Nat × Nat × Nat)) (rate : Nat) (a : Int) : Option Int :=
  ((l.filter fun e => decide ((e.1 : Int) ≤ a)).getLast?).map fun e =>
    entryStamp s e + (if rate = 0 then 0 else (a - e.1) * 1000000000 / rate)

/-- The anchor: the newest sample whose stamp is no later than `t`; before every sample, the one before the first. -/
def anchorAt (s : State) (l : List (Nat × Nat × Nat × Nat)) (block rate : Nat) (t : Int) : Int :=
  let one (e : Nat × Nat × Nat × Nat) : Option Int :=
    let p := entryStamp s e
    if t < p then none
    else
      let k : Int := if rate = 0 then block else (t - p) * rate / 1000000000
      some ((e.1 : Int) + clampInt 0 (block - 1 : Int) k)
  (l.filterMap one).foldl max (-1)

/-- A launch instant on TB_APP. -/
def onApp (s : State) (base sched L : Nat) : Int :=
  if base = 3 then sched else (longOf s 3 : Int) + ((L : Int) - (tbSafe s : Int))

/-- The replica from which a plan's stream is judged for its main copy: the one on its die, else the first. -/
def planSlot (s : State) (n i d : Nat) : Option (Nat × Nat) :=
  ((slotOn s n i d).map fun c => (d, c)).orElse fun _ => (streamSlots s n i).head?

/-- The newest sample of stream `e` for launch `k`, the anchor it comes from, and whether the window was taken anew. -/
def windowOf (s : State) (n p k base sched L : Nat) (d : Nat) (e : PlanStream) : Int × Option (Nat × Int) × Bool :=
  match planSlot s n e.stream d with
  | none => (0, none, false)
  | some w =>
    let c := ctx s w.1 w.2
    let l := entriesOf (die s w.1) c
    let rate := ((streamRec s n e.stream).map (·.rate)).getD 0
    let t := onApp s base sched L - (e.g : Int)
    let held := ((tblGet {} (part s n).plans p).anchors.find? fun a => a.1 == e.stream).map (·.2)
    let fresh : Int := if c.kind = 3 then (c.writeCount : Int) - 1 else anchorAt s l c.blockSamples rate t
    if c.kind = 2 then (0, none, false)
    else
      match held with
      | none => (fresh, some (k, fresh), false)
      | some (k0, n0) =>
        let nk : Int := n0 + ((k - k0 : Nat) : Int) * e.h
        let off := match sampleStamp s l rate nk with
          | some x => decide ((e.w : Int) * 1000000000 < 2 * (x - t).natAbs * rate)
          | none => false
        if c.kind == 1 && !(rate == 0) && off then (fresh, some (k, fresh), true) else (nk, some (k0, n0), false)

/-- WINDOW_NEXT of every context of a plan advances at launch `k` (R182), but for a descriptor that reads faulty (R168). Answers the newest
samples and RE_ANCHORED. -/
def windowAdvance (n p k base sched L : Nat) (d : Nat) (s : State) : State × List Int × Bool :=
  let es := ((planRec s n p).map (·.streams)).getD []
  es.foldl (fun (s, ns, ra) e =>
    let (nk, a, r) := windowOf s n p k base sched L d e
    match a with
    | none => (s, ns ++ [nk], ra)
    | some a =>
      let s := modPart n (fun x => { x with plans := tblMod {} x.plans p fun q => { q with
        anchors := (e.stream, a) :: q.anchors.filter fun b => !(b.1 == e.stream) } }) s
      let s := (streamSlots s n e.stream).foldl (fun s w =>
        if ctxBad (ctx s w.1 w.2) then contextFault w.1 w.2 s
        else writeCtx w.1 w.2 (fun c => { c with windowNext := unsgn 64 (nk + e.h), flags := c.flags ||| 8 }) s) s
      (s, ns ++ [nk], ra || r)) (s, [], false)

/-! ### Starting (R183, R186, R188, R192) -/

/-- A frame that waits stands in its lead stream's queue: it has not been struck, or it was displaced in its replay (R190). -/
def inQueue (f : Frame) : Bool := f.attempt == 0 || f.main.why == .displaced

/-- The real frames waiting in a lead stream's queue. -/
def waitingOn (s : State) (n lead : Nat) : List Frame :=
  s.frames.filter fun f => f.id.part == n && f.lead == lead && f.phase == .waiting && !f.id.tuning && inQueue f

/-- A tuning frame of the region has started and its verdict is not yet there (R191). -/
def tuningPending (s : State) (n g : Nat) : Bool :=
  s.frames.any fun f => f.id.part == n && f.id.region == g && f.id.tuning && !(f.phase == .waiting && f.attempt == 0)

/-- A start slot's tuning frame of the region has not started (R192). -/
def startSlotOpen (s : State) (n g : Nat) : Bool :=
  s.frames.any fun f => f.id.part == n && f.id.region == g && f.id.tuning && f.startSlot && f.phase == .waiting

/-- The die of a plan's region holds a launch, and its copy of TB_SAFE has reached the instant (R28, R29). -/
def launchHeld (s : State) (d : Nat) (f : FrameId) : Bool := (die s d).launches.any fun e => e.1 == f && decide (e.2 ≤ dieTime s d)

/-- A copy waits to start; a partner's copy starts once its own die holds the launch. -/
def copyWaits (s : State) (f : Frame) (e : Bool × Copy) : Bool :=
  e.2.phase == .idle && (if e.1 then !(f.phase == .waiting) && !(f.phase == .fencing) else f.phase == .waiting) &&
  !(f.id.tuning && f.attempt == 0 && (tuningPending s f.id.part f.id.region || reloading s f.id.part f.id.region)) &&
  !(!f.id.tuning && startSlotOpen s f.id.part f.id.region) &&
  (f.id.tuning || !e.1 || !(f.attempt == 0) || launchHeld s e.2.die f.id)

/-- The order of starting: replays, tuning frames, real frames by launch (R186, R190 to R192, R127). -/
def startKey (f : Frame) (c : Copy) : Nat :=
  (if f.attempt ≠ 0 ∧ c.why ≠ .displaced then 0 else if f.id.tuning then 1 else 2) * 2 ^ 65 + f.L

/-- One waiting copy put in its place. -/
def insertKey (x : Nat × FrameId × Bool × Copy) : List (Nat × FrameId × Bool × Copy) → List (Nat × FrameId × Bool × Copy)
  | [] => [x]
  | y :: r => if x.1 < y.1 then x :: y :: r else y :: insertKey x r

/-- The copies that wait to start on a die, in their order. -/
def startOrder (s : State) (d : Nat) : List (Nat × FrameId × Bool × Copy) :=
  (s.frames.flatMap fun f => ((copiesOf f).filter fun e => e.2.die == d && copyWaits s f e).map fun e =>
    (startKey f e.2, f.id, e.1, e.2)).foldl (fun l x => insertKey x l) []

/-- The first copy whose clusters are idle and that no earlier one waits for. -/
def pickStart (s : State) (d : Nat) : List (Nat × FrameId × Bool × Copy) → List Nat → Option (FrameId × Bool)
  | [], _ => none
  | (_, id, tw, c) :: r, taken =>
    if clustersFree s d c.clusters && !(c.clusters.any fun x => decide (x ∈ taken)) then some (id, tw)
    else pickStart s d r (taken ++ c.clusters)

/-- The SCAN streams of a frame's plan. -/
def scanStreams (s : State) (f : Frame) : List Nat :=
  (planStreams s f.id.part f.plan).filter fun i => ((streamRec s f.id.part i).map fun r => bitOf r.sflags 2).getD false

/-- The verdict of an earlier frame over one of the frame's SCAN contexts is pending, whether that frame has started or waits (R88,
R188). -/
def scanPending (s : State) (f : Frame) : Bool :=
  s.frames.any fun g => !(g.id == f.id) && g.id.part == f.id.part && !g.id.tuning && (decide (g.L < f.L) || !(g.phase == .waiting)) &&
    (scanStreams s g).any fun i => decide (i ∈ scanStreams s f)

/-- The contexts that a start reads: die and slot. -/
def startSlots (s : State) (f : Frame) (c : Copy) : List (Nat × Nat) :=
  if f.id.tuning then []
  else (planStreams s f.id.part f.plan).filterMap fun i => (slotOn s f.id.part i c.die).map fun x => (c.die, x)

/-- A window holds positions that are missing or fill a gap (R94, R149, R183). -/
def windowShort (c : Ctx) (w : Nat) (newest : Int) : Bool :=
  decide (newest - w + 1 < 0) || decide ((c.writeCount : Int) ≤ newest) ||
  c.gaps.any fun a => decide (newest - w < (a : Int)) && decide ((a : Int) ≤ newest)

/-- The tuning frame's SCAN start state for a stream (R89): S24 values, the streams' parts in the plan's order (R220). -/
def tuneState (s : State) (f : Frame) (i : Nat) : List Int :=
  let before := ((scanStreams s f).takeWhile fun j => !(j == i)).map fun j => ((streamRec s f.id.part j).map (·.stateLength)).getD 0
  let len := ((streamRec s f.id.part i).map (·.stateLength)).getD 0 / 2
  let b := (((regionRec s f.id.part f.id.region).bind (·.tuning)).map (·.state)).getD []
  let b := sub b (before.sum / 2) len
  (List.range (b.length / 3)).map fun j => sgn 24 (rd b (3 * j) 3)

/-- What a start does with stream `i` of the plan, number `j`: SCAN's working copy, the alive count, the short and stale
marks, the rows of a MESSAGE stream taken, WRITE_COUNT kept (R88, R89, R178, R183). -/
def startStream (id : FrameId) (tw first : Bool) (d : Nat) (j : Nat) (e : PlanStream) (s : State) : State :=
  match frameOf s id, slotOn s id.part e.stream d with
  | some f, some sl =>
    let c := ctx s d sl
    if id.tuning then modCtx d sl (fun c => { c with scanTune := some (tuneState s f e.stream) }) s
    else
      let s := modCtx d sl (fun c => { c with scanOn := false }) s
      let s := if first then writeCtx d sl (fun c => { c with lastAlive := c.alive }) s else s
      let s := modCopy id tw (fun x => { x with seen := x.seen ++ [(e.stream, c.writeCount)] }) s
      if c.kind = 2 then
        if first && !tw then
          let room := ((streamRec s id.part e.stream).map (·.maxRows)).getD 0
          let l := (c.stamps.filter fun x => decide (c.taken ≤ x.1)).takeWhile fun x => decide (x.2 ≤ f.L)
          let upTo := (((l.take room).getLast?).map fun x => x.1 + 1).getD c.taken
          let s := (streamSlots s id.part e.stream).foldl (fun s w => modCtx w.1 w.2 (fun c => { c with taken := upTo }) s) s
          modFrame id (fun f => { f with taken := f.taken ++ [(e.stream, c.taken, upTo)] }) s
        else s
      else
        let short := windowShort c e.w (f.newest.getD j 0)
        let stale := first && !(id.seq == 0) && c.alive == c.lastAlive
        modCopy id tw (fun x => { x with
          shortMask := x.shortMask ||| (bit short * 2 ^ j), staleMask := x.staleMask ||| (bit stale * 2 ^ j) }) s
  | _, _ => s

/-- A copy starts on its clusters (R60, R113, R114, R119, R183, R187). -/
def runCopy (id : FrameId) (tw : Bool) (s : State) : State :=
  match (frameOf s id).bind fun f => (copyOf f tw).map fun c => (f, c) with
  | none => s
  | some (f, c) =>
    let first := f.attempt == 0 && f.displaced == 0
    let es := ((planRec s id.part f.plan).map (·.streams)).getD []
    let s := modCopy id tw (fun x => { x with
      phase := .running, why := .error, startS := dieTime s c.die, cnt := {}, aborted := false, shortMask := 0, sig := 0, ev := none
      crc := 0, total := 0, pieces := [], whole := none, seen := [] }) s
    let s := modFrame id (fun f => { f with
      phase := if tw then f.phase else .running, unsure := f.unsure || (die s c.die).unsure }) s
    let s := modDie c.die (fun x => { x with
      cores := x.cores.map fun e => if e.1 / 32 ∈ c.clusters then (e.1, { e.2 with draws := 0 }) else e }) s
    let s := (List.range es.length).foldl (fun s j => startStream id tw first c.die j (es.getD j default) s) s
    let s := resetPegs c.die id.part c.region c.clusters (dieCount c.die 0x1000 1 s)
    let r := (regionRec s id.part c.region).getD default
    (List.range c.clusters.length).foldl (fun s i =>
      beginSteps c.die (c.clusters.getD i 0) i c.clusters.length id c.region r (r.steps.length + 1) 0 s) s

/-- A waiting copy's turn to start: a frame that may not start is REFUSED (R88, R168, R188); a partner whose descriptor is
faulty at its own later start is missing. -/
def startCopy (id : FrameId) (tw : Bool) (s : State) : State :=
  match (frameOf s id).bind fun f => (copyOf f tw).map fun c => (f, c) with
  | none => s
  | some (f, c) =>
    let fresh := !tw && !id.tuning && inQueue f
    if fresh && decide (f.deadline ≤ tbSafe s) then refuse f 2 s
    else if fresh && scanPending s f then refuse f 3 s
    else
      let slots := if tw then startSlots s f c else (copiesOf f).flatMap fun e => startSlots s f e.2
      let bad := slots.filter fun e => ctxBad (ctx s e.1 e.2)
      if bad.isEmpty then runCopy id tw s
      else
        let s := bad.foldl (fun s e => contextFault e.1 e.2 s) s
        if tw then modFrame id (fun f => { f with twin := none, twinGone := true }) s else refuse f 8 s

/-- FRAME_START on a die: the first waiting copy whose clusters are idle starts (R186, R192). -/
def startOne (d : Nat) (s : State) : State :=
  match pickStart s d (startOrder s d) [] with
  | some (id, tw) => startCopy id tw s
  | none => s

/-- Starts on the dies of a frame's copies. -/
def startFor (id : FrameId) (s : State) : State :=
  let s := startOne (((frameOf s id).map (·.main.die)).getD 0) s
  match (frameOf s id).bind (·.twin) with
  | some c => startOne c.die s
  | none => s

/-! ### Stopping (R107, R119, R187, R190) -/

/-- A displaced frame goes back to the head of its queue; a queue that then holds more than four loses its newest (R190). -/
def requeue (id : FrameId) (s : State) : State :=
  match frameOf s id with
  | none => s
  | some f =>
    let s := modPart id.part (fun p => { p with displaced := up16 p.displaced }) s
    let s := modFrame id (fun f => { f with phase := .waiting }) s
    let l := (waitingOn s id.part f.lead).filter fun g => !(g.id == id)
    if 4 ≤ l.length then
      match l.foldl (fun (b : Option Frame) g => match b with
        | none => some g
        | some x => if x.L < g.L then some g else some x) none with
      | some g => refuse g 1 s
      | none => s
    else s

/-- A stopping copy has reached its last batch boundary. -/
def copyStopped (id : FrameId) (tw : Bool) (s : State) : State :=
  match (frameOf s id).bind fun f => (copyOf f tw).map fun c => (f, c) with
  | none => s
  | some (_, c) =>
    let s := dropWork id c s
    match c.why with
    | .displaced =>
      let s := modFrame id (fun f => { f with displaced := f.displaced + 1 }) s
      let s := modCopy id tw (fun x => { x with phase := .idle }) s
      startOne c.die (if tw then s else requeue id s)
    | .deadline =>
      let s := modCopy id tw (fun x => { x with phase := .ended, endS := dieTime s c.die }) s
      let s := modFrame id (fun f => { f with
        unsure := f.unsure || (die s c.die).unsure, phase := if tw || f.phase == .fencing then f.phase else .ended }) s
      startOne c.die (sendEvidence id tw s)
    | .error =>
      let s := modCopy id tw (fun x => { x with phase := .ended, aborted := true, endS := dieTime s c.die }) s
      let s := modFrame id (fun f => { f with
        unsure := f.unsure || (die s c.die).unsure, phase := .fencing }) (dieCount c.die 0x1004 1 s)
      sendEvidence id tw s

/-- Some core of the copy is inside a batch. -/
def copyBusy (s : State) (id : FrameId) (c : Copy) : Bool :=
  (copyCores c).any fun i => (coreOf s c.die i).frame == some id && (coreOf s c.die i).inBatch

/-- A stopping copy none of whose cores is inside a batch has stopped. -/
def copySettle (id : FrameId) (tw : Bool) (s : State) : State :=
  match (frameOf s id).bind fun f => copyOf f tw with
  | some c => if c.phase = .stopping ∧ copyBusy s id c = false then copyStopped id tw s else s
  | none => s

/-- A copy on its cores is told to stop at its batch boundary; an error outweighs the other reasons. -/
def stopCopy (id : FrameId) (tw : Bool) (why : StopWhy) (s : State) : State :=
  match (frameOf s id).bind fun f => copyOf f tw with
  | some c =>
    if c.phase = .running then copySettle id tw (modCopy id tw (fun x => { x with phase := .stopping, why := why }) s)
    else if c.phase = .stopping ∧ why = .error then modCopy id tw (fun x => { x with why := .error }) s
    else s
  | none => s

/-! ### Errors (R122, R124, R127) -/

/-- The count of a copy's record in which an error appears (R240). -/
def errCounts (e : FabErr) (n : Counts) : Counts :=
  match e with
  | .residue _ _ => { n with residue := n.residue + 1 }
  | .shelfUe _ _ => { n with uncorrSram := n.uncorrSram + 1 }
  | .storeUe _ => { n with uncorrSram := n.uncorrSram + 1 }
  | .peg _ _ => { n with pegFaults := n.pegFaults + 1 }
  | .pegNone _ => { n with pegFaults := n.pegFaults + 1 }
  | .cellarUe _ _ => { n with uncorrCellar := n.uncorrCellar + 1 }
  | _ => n

/-- The error log of an error that fences nothing (R486); with no cluster in it, DETAIL1 is free (log 106). -/
def errLog (d prt : Nat) (e : FabErr) (fences : Bool) (s : State) : State :=
  let named (kind : Nat) (c : Option Nat) (s : State) : State :=
    match c with
    | some c => logError 2 d prt kind c s
    | none => logError 2 d prt kind (Config.freeNat s.free) (drawn s)
  match e with
  | .pegNone c => named 1 c s
  | .storeUe c => if fences then s else logError 2 d prt 2 c s
  | .cellarUe _ c => named 3 c s
  | _ => s

/-- A hardware-detected error at its instant D (R122, R124 steps 1 and 2): the core halts, the alarm pair rises, every frame
in flight on the struck cluster stops. `by_` is the frame in which it was detected; an error of a cluster with none given is that of the
frame there (R240). -/
def hwError (d : Nat) (e : FabErr) (by_ : Option (FrameId × Bool)) (s : State) : State :=
  let u := errUnit (die s d) e
  let s := match e with
    | .storeUe c => modDie d (fun x => { x with srSeen := withElem c x.srSeen }) s
    | _ => s
  let s := match u with
    | some (.core c k, _) => modCore d (32 * c + k) (fun x => { x with halted := true, inBatch := false }) s
    | _ => s
  let l := ((errCluster e).toList.flatMap fun c => framesOn s d [c])
  let by_ := by_.orElse fun _ => l.head?
  let l := by_.toList ++ l.filter fun x => !(some x == by_)
  let prt := ((l.head?.map (·.1.part)).getD 255)
  let s := errLog d prt e u.isSome s
  let s := match by_ with
    | some (id, tw) => modCopy id tw (fun x => { x with
        cnt := errCounts e x.cnt, sig := match e with | .signature _ _ => 2 | _ => x.sig }) s
    | none => s
  let s := l.foldl (fun s x => modFrame x.1 (fun f => { f with
    struckAt := if f.struckAt.any (fun e => e.1 == d) then f.struckAt else f.struckAt ++ [(d, tbSafe s)], fenced := f.fenced || u.isSome,
    fenceCause := if f.fenced then f.fenceCause else (u.map (·.2)).getD 0 }) s) s
  let s := alarmRaise d (seqAdd d e u (l.map (·.1)) s)
  l.foldl (fun s x => stopCopy x.1 x.2 .error s) s

/-! ### Launching (R181, R189) -/

/-- The partition runs the plan: START began it and STOP has not ended it. -/
def planRuns (s : State) (n p : Nat) : Bool := (part s n).plans.any fun e => e.1 == p

/-- What the scheduler keeps for a plan. -/
def planRt (s : State) (n p : Nat) : PlanRt := tblGet {} (part s n).plans p

/-- `f` applied to it. -/
def modPlan (n p : Nat) (f : PlanRt → PlanRt) (s : State) : State :=
  modPart n (fun x => { x with plans := tblMod {} x.plans p f }) s

/-- The name of the frame of launch `k` of a plan. -/
def launchId (s : State) (n p k : Nat) : FrameId := ⟨n, ((planRec s n p).getD default).region, false, k % 2 ^ 64, (part s n).runs⟩

/-- What a launch CMD says: the frame and its TB_SAFE instant (R29). -/
def launchArgs (f : FrameId) (instant : Nat) : List Nat := [f.part, f.region, bit f.tuning, f.seq, f.run, instant]

/-- A launch is on its way to a die, or there. -/
def launchSent (s : State) (d : Nat) (f : FrameId) (L : Nat) : Bool :=
  diePresent s d && (((die s d).launches.any fun e => e.1 == f) ||
    (die s d).cmds.any fun c => c.kind == cmdLaunch && c.args == launchArgs f L)

/-- The launch of a plan that is due: number, time on its base, TB_SAFE instant. The die launches it on its own copy of TB_SAFE; where it
was sent to no die that is there, the instant passes at the companion (R28, R29). -/
def dueLaunch (s : State) (n p : Nat) : Option (Nat × Nat × Nat) :=
  match planRec s n p with
  | none => none
  | some r =>
    let d := (mainCopy s n r.region).die
    if !planRuns s n p then none
    else (planRt s n p).converted.head?.filter fun e =>
      if launchSent s d (launchId s n p e.1) e.2.2 then launchHeld s d (launchId s n p e.1) else decide (e.2.2 ≤ tbSafe s)

/-- A launch has fired. -/
def launchFired (n p k : Nat) (s : State) : State :=
  modPlan n p (fun x => { x with launched := k + 1, converted := x.converted.filter fun e => !(e.1 == k) }) s

/-- The frame of launch `k`. -/
def mkFrame (s : State) (n p k sched L : Nat) (newest : List Int) (reanch : Bool) : Frame :=
  let r := (planRec s n p).getD default
  let gone := decide (2 ≤ (integOf s n r.region).mode)
  let main := mainCopy s n r.region
  { id := launchId s n p k, plan := p, lead := (r.streams.headD default).stream, base := r.base
    sched := sched % 2 ^ 64, L := L, deadline := L + r.deadline
    gen := (((seatOfNo (part s n).seat).map fun x => (seatOf s x).gen)).getD 0
    main := main, twin := partnerCopy s n r.region
    unsure := (die s main.die).unsure || (partnerCopy s n r.region).any fun c => (die s c.die).unsure
    twinGone := gone && (partnerCopy s n r.region).isNone
    newest := newest, reanch := reanch }

/-- Why a launch is refused at once (R193): FENCED, its die gone, reloading. -/
def launchCause (s : State) (n : Nat) (f : Frame) : Option Nat :=
  if (part s n).st = 4 then some 5
  else if !diePresent s f.main.die then some 6
  else if reloading s n f.id.region then some 4
  else none

/-- A launch that falls due: refused, started, waiting, or refused for a full queue (R186, R189, R193). DESIGN CHOICE: a launch whose own
clusters are idle starts although the queue that its lead stream shares with other plans holds four frames; R189 read by itself refuses
it (log 67). -/
def launchFrame (f : Frame) (s : State) : State :=
  match launchCause s f.id.part f with
  | some c => refuse f c s
  | none =>
    let s' := { s with frames := s.frames ++ [f] }
    if pickStart s' f.main.die (startOrder s' f.main.die) [] = some (f.id, false) then startFor f.id s'
    else if 4 ≤ (waitingOn s f.id.part f.lead).length then refuse f 1 s
    else s'

/-- A launch REFUSED with cause 0x07; the windows advance (R182, R193, R395). -/
def skipLaunch (n p k sched L : Nat) (s : State) : State :=
  let d := ((planRec s n p).map fun r => (mainCopy s n r.region).die).getD 0
  let base := ((planRec s n p).map (·.base)).getD 0
  let (s, ns, _) := windowAdvance n p k base sched L d s
  refuse (mkFrame s n p k sched L ns false) 7 s

/-- FRAME_LAUNCH (R181, R182, R186, R189). -/
def execFrameLaunch (part : Fin 16) (plan : Nat) (s : State) : Res :=
  let n : Nat := part
  .next (match dueLaunch s n plan, planRec s n plan with
  | some (k, sched, L), some r =>
    let s := launchFired n plan k s
    let c := mainCopy s n r.region
    let (s, ns, ra) := windowAdvance n plan k r.base sched L c.die s
    launchFrame (mkFrame s n plan k sched L ns ra) s
  | _, _ => s)

/-- FRAME_START (R186). -/
def execFrameStart (die : Fin 4) (s : State) : Res := .next (startOne die s)

/-- DEADLINE_EXPIRY (R187): a frame still running at its deadline stops at its batch boundary. -/
def execDeadlineExpiry (f : FrameId) (s : State) : Res :=
  .next (match frameOf s f with
  | some x => (copiesOf x).foldl (fun s e =>
      if e.2.phase = .running ∧ x.deadline ≤ dieTime s e.2.die then stopCopy f e.1 .deadline s else s) s
  | none => s)

/-- WAIT_DEADLINE_EXPIRY (R188): a waiting frame whose deadline passes is REFUSED. -/
def execWaitDeadlineExpiry (f : FrameId) (s : State) : Res :=
  .next (match frameOf s f with
  | some x => if x.phase = .waiting ∧ inQueue x = true ∧ f.tuning = false ∧ x.deadline ≤ tbSafe s then refuse x 2 s else s
  | none => s)

/-! ### Tuning slots (R190 to R192, R246) -/

/-- Real frames running on the clusters of a tuning frame that may start stop for it (R190). -/
def preempt (n g : Nat) (s : State) : State :=
  match s.frames.find? fun f => f.id.part == n && f.id.region == g && f.id.tuning && copyWaits s f (false, f.main) with
  | some f =>
    let s := (framesOn s f.main.die f.main.clusters).foldl (fun s e => if e.1.tuning then s else stopCopy e.1 e.2 .displaced s) s
    startOne f.main.die s
  | none => s

/-- A slot of a region opens at `S` (R190, R191). DESIGN CHOICE: a slot of a partition that is LOADED and was never started is skipped and
counted as one of a STOPPED partition (log 68). -/
def openSlot (n g S : Nat) (start extra : Bool) (s : State) : State :=
  let q := (regionRt s n g).slotNo
  let s := modRegion n g (fun x => { x with slotNo := q + 1 }) s
  if !((part s n).st == 2) || reloading s n g then modPart n (fun p => { p with skipped := up16 p.skipped }) s
  else
    let c := mainCopy s n g
    let p := (planOfRegion s n g).getD 0
    let r := (planRec s n p).getD default
    let late := (s.frames.any fun f => f.id.part == n && f.id.region == g && f.id.tuning) || (seqClusters s c.die).any fun x => decide (x ∈ c.clusters)
    let f : Frame := { id := ⟨n, g, true, q, (part s n).runs⟩, plan := p, lead := (r.streams.headD default).stream, L := S, deadline := S + r.deadline
                       gen := ((seatOfNo (part s n).seat).map fun x => (seatOf s x).gen).getD 0
                       main := c, startSlot := start, extraSlot := extra }
    let s := if late then modPart n (fun p => { p with delayed := up16 p.delayed }) s else s
    preempt n g { s with frames := s.frames ++ [f] }

/-- The scheduled slots' times: the first S ≡ PHASE mod INTERVAL after `t`. -/
def slotAfter (t : TuningRec) (now : Nat) : Nat :=
  let i := max 1 t.interval
  now + i - (now + i - t.phase % i) % i

/-- TUNING_SLOT_OPEN (R28, R190, R191): the region's next scheduled slot is due on its die's copy of TB_SAFE. -/
def execTuningSlotOpen (part : Fin 16) (region : Nat) (s : State) : Res :=
  let n : Nat := part
  .next (match (regionRec s n region).bind (·.tuning) with
  | some t =>
    let S := (regionRt s n region).nextSlot
    let d := (mainCopy s n region).die
    let now := if diePresent s d then dieTime s d else tbSafe s
    if S = 0 || now < S then s
    else openSlot n region S false false (modRegion n region (fun x => { x with nextSlot := S + max 1 t.interval }) s)
  | none => s)

/-- The extra slot that a failed tuning frame calls for opens at its verdict (R246). -/
def extraSlot (n g : Nat) (s : State) : State :=
  if (regionRt s n g).extra then openSlot n g (tbSafe s) false true (modRegion n g (fun x => { x with extra := false }) s) else s

/-- A frame is published; a move that waited for it, its region's extra slot and a tuning frame that waited for this verdict
go on (R191, R246, R297). -/
def publishAll (f : Frame) (verdict reason refuse steps : Nat) (r : EvRec) (data : List Byte) (s : State) : State :=
  let s := publish f verdict reason refuse steps r data (dropCopies f.id s)
  let s := movesDeferred f.id.part s
  if f.id.tuning then preempt f.id.part f.id.region (extraSlot f.id.part f.id.region s) else s

end Sys2Proof.Machine
end

