-- ==== Sys2Proof/Machine/Cap.lean ====
section
/-! DEFINITION. Machine/Cap.lean: the capture block and every feed of a stream context (R149, R166 to R179, R184, R185,
R198). -/

namespace Sys2Proof.Machine

/-- TDM port `p`. -/
def capPort (s : State) (p : Nat) : CapPort := tblGet {} s.cap.ports p

/-- `f` applied to a TDM port. -/
def modCap (p : Nat) (f : CapPort → CapPort) (s : State) : State :=
  { s with cap := { s.cap with ports := tblMod {} s.cap.ports p f } }

/-- Sources 88 to 103 follow FS_LOST and OVERFLOW (R330). -/
def capLevel (p : Nat) (s : State) : State := icuLevel (88 + p) ((capPort s p).fsLost || (capPort s p).overflow) s

/-- EVT input `i`. -/
def evtIn (s : State) (i : Nat) : EvtIn := tblGet ⟨[], 0⟩ s.cap.evts i

/-- `f` applied to an EVT input. -/
def modEvt (i : Nat) (f : EvtIn → EvtIn) (s : State) : State :=
  { s with cap := { s.cap with evts := tblMod ⟨[], 0⟩ s.cap.evts i f } }

/-- The level sources of the capture block follow its registers. -/
def capLevels (s : State) : State :=
  let s := (List.range 16).foldl (fun s p => capLevel p s) s
  (List.range 8).foldl (fun s i => icuLevel (104 + i) (!(evtIn s i).edges.isEmpty) s) s

/-- NAP leaves of the capture block its configuration alone: status, counts, stamps and stores return to 0 (R13, R198). A master port goes
on; a slave port waits for its FS again. -/
def capNap (s : State) : State :=
  let port (x : CapPort) : CapPort :=
    { enable := x.enable, master := x.master, lastSlot := x.lastSlot, blockQ := x.blockQ, rate := x.rate, running := x.enable && x.master }
  capLevels { s with cap := { s.cap with
    ports := s.cap.ports.map (fun e => (e.1, port e.2)), evts := [], inStamp := 0, inNew := false } }

/-- A D reset of any die returns the whole capture block to its Reset values, its configuration with it (R13, R14, R198, R469; log 78). -/
def capDReset (s : State) : State :=
  capLevels (if s.cap.ppsOut then emit (.ppsOut false) { s with cap := {} } else { s with cap := {} })

/-! ### What the companion sends to a ring (R20, R146, R149, R169, R175, R177, R178) -/

/-- The stream's context as its first present replica has it: every replica has the same form (R210). -/
def feedForm (s : State) (n i : Nat) : Ctx := (((streamSlots s n i).find? fun w => diePresent s w.1).map fun w => ctx s w.1 w.2).getD default

/-- What the companion keeps of a stream that it feeds. -/
def feedOf (s : State) (n i : Nat) : Feed := tblGet {} (part s n).feeds i

/-- `f` applied to it. -/
def modFeed (n i : Nat) (f : Feed → Feed) (s : State) : State := modPart n (fun p => { p with feeds := tblMod {} p.feeds i f }) s

/-- Bytes of a ring, or of the block index behind it, sent to every replica from the companion's copy: from the 64-byte unit in which they
begin to their end, since a WRITE names a unit (R137, R210). `o` is their offset from the ring's base. -/
def feedWrite (n i o len : Nat) (s : State) : State :=
  let u := o / 64 * 64
  let b := memRead (feedOf s n i).image u (o + len - u)
  (streamSlots s n i).foldl (fun s w =>
    if diePresent s w.1 then writePackets 0 (w.1 + 1) (b.length / 512 + 1) (ringAt (ctx s w.1 w.2) + u) b s else s) s

/-- Samples or rows from number `a` on go to every replica, part by part (R169). -/
def feedRows (n i a : Nat) (rows : List (List Int)) (s : State) : State :=
  let c := feedForm s n i
  let s := modFeed n i (fun x => { x with image := ringFill c 0 a rows x.image }) s
  (ringParts c a rows.length).foldl (fun s q => feedWrite n i q.1 (partBytes c rows q).length s) s

/-- The forward gap before a block, in blocks (R149, R177). -/
def feedAhead (s : State) (n i seq : Nat) : Nat := (seq + 65536 - (feedOf s n i).seq) % 65536

/-- The number of the first sample of a fed block, and the offset of its index entry from the ring's base (R169, R175, R177). -/
def blockPlace (s : State) (n i seq : Nat) : Nat × Nat :=
  let c := feedForm s n i
  let b := max 1 c.blockSamples
  let first := (feedOf s n i).next + feedAhead s n i seq * b
  (first, indexAt c - ringAt c + 16 * (first / b % max 1 (indexLen c)))

/-- Where bytes up to an offset from the ring's base end at each present replica. -/
def feedEnd (s : State) (n i upTo : Nat) : List (Nat × Nat) :=
  ((streamSlots s n i).filter fun w => diePresent s w.1).map fun w => (w.1, ringAt (ctx s w.1 w.2) + upTo)

/-- A sample block leaves for every replica: its samples, then its block-index entry (R175, R177). Blocks missing before it are zeros in the
companion's copy. -/
def feedBlock (n i seq stamp : Nat) (rows : List (List Int)) (s : State) : State :=
  let c := feedForm s n i
  let b := max 1 c.blockSamples
  let (first, o) := blockPlace s n i seq
  let k := min (feedAhead s n i seq * b) (c.ringLength - b)
  let s := modFeed n i (fun x => { x with
    next := first + b, seq := (seq + 1) % 65536
    image := memWrite (ringFill c 0 (first - k) (zeroRows c k) x.image) o (entryBytes first stamp seq c.scale) }) s
  feedWrite n i o 16 (feedRows n i first rows s)

/-- Rows of a MESSAGE ring that are not free: those held at its first present replica, and those still on their way to it (R178). -/
def feedHeld (s : State) (n i : Nat) : Nat :=
  match (streamSlots s n i).find? fun w => diePresent s w.1 with
  | some w => (ctx s w.1 w.2).stamps.length + (((die s w.1).feeds.filter fun m => m.slot == w.2).map (·.rows)).sum
  | none => 0

/-- The offset from the ring's base at which the next message rows end (R169). -/
def messageEnd (s : State) (n i : Nat) (rows : List (List Int)) : Nat :=
  let c := feedForm s n i
  let q := ((ringParts c (feedOf s n i).next rows.length).getLast?).getD default
  q.1 + (partBytes c rows q).length

/-- Message rows leave for every replica with the TB_SAFE instant of their acceptance (R178). -/
def feedMessage (n i at_ : Nat) (rows : List (List Int)) (s : State) : State :=
  let first := (feedOf s n i).next
  let upTo := messageEnd s n i rows
  let s := (streamSlots s n i).foldl (fun s w =>
    if diePresent s w.1 then modDie w.1 (fun x => { x with feeds := x.feeds ++ [⟨w.2, first, rows.length, at_, ringAt (ctx s w.1 w.2) + upTo⟩] }) s
    else s) s
  feedRows n i first rows (modFeed n i (fun x => { x with next := first + rows.length }) s)

/-! ### What a die does with a feed that arrives (R149, R168, R176 to R179) -/

/-- Zeros written for `n` numbers before `upTo` (R149, R179). -/
def gapWrite (d : Nat) (c : Ctx) (upTo n : Nat) (s : State) : State :=
  (ringParts c (upTo - n) n).foldl (fun s q => cellarWrite d (ringAt c + q.1) (partBytes c (zeroRows c n) q) s) s

/-- A feed of a context: taken, or discarded and counted where the descriptor is faulty (R168, R477). -/
def feedCtx (d c : Nat) (f : State → State) (s : State) : State :=
  if ctxBad (ctx s d c) then dieCount d 0x1018 1 (contextFault d c s) else f s

/-- The block of an index entry has arrived: the numbers missing before it are zeros and a gap, and the descriptor moves on; an entry
that is no newer changes nothing (R149, R175, R176). -/
def takeBlock (d sl : Nat) (e : Nat × Nat × Nat × Nat) (s : State) : State :=
  let c := ctx s d sl
  if e.1 < c.writeCount then s
  else feedCtx d sl (fun s =>
    let n := e.1 - c.writeCount
    let s := gapWrite d c e.1 (min n (c.ringLength - c.blockSamples)) s
    writeCtx d sl (fun c =>
      let c := ctxGap n c
      ctxPrune { c with
        writeCount := wrapAt 64 (e.1 + c.blockSamples), nextSeq := (e.2.2.1 + 1) % 65536, alive := (c.alive + 1) % 65536
        lastStamp := e.2.1 % 2 ^ 32, lastEra := e.2.1 / 2 ^ 32 % 4 }) s) s

/-- The rows of a message have arrived (R176, R178). Numbers lost before them stay free of rows (R149). DEDUCED: the row of a bound EVT input
raises ALIVE as a message command does (log 95). -/
def takeMessage (d : Nat) (m : MsgFeed) (s : State) : State :=
  let s := modDie d (fun x => { x with feeds := x.feeds.filter fun y => !(y.slot == m.slot && decide (y.first ≤ m.first)) }) s
  feedCtx d m.slot (fun s => writeCtx d m.slot (fun c =>
    ctxPrune { c with
      writeCount := wrapAt 64 (m.first + m.rows), alive := (c.alive + 1) % 65536
      stamps := c.stamps ++ (List.range m.rows).map fun i => (m.first + i, m.at_) }) s) s

/-- Bytes up to a data address have been written by the companion: a SAMPLE context whose index entry they end with, or the MESSAGE context
whose rows they complete, takes its feed. -/
def feedArrives (d upTo : Nat) (s : State) : State :=
  match (die s d).feeds.find? fun m => m.endAt == upTo with
  | some m => takeMessage d m s
  | none =>
    match (die s d).ctx.find? fun e => e.2.kind == 1 && decide (indexAt e.2 + 16 ≤ upTo) && decide (upTo ≤ indexAt e.2 + 16 * indexLen e.2) &&
        (upTo - indexAt e.2) % 16 == 0 with
    | some e => takeBlock d e.1 (entryRead (cellarBytes s d (upTo - 16) 16)) s
    | none => s

/-! ### Capture (R171 to R175) -/

/-- The partition and stream that a port feeds (R174). -/
def portStream (s : State) (p : Nat) : Option (Nat × Nat) :=
  s.parts.findSome? fun e => (e.2.layout).bind fun l =>
    ((List.range l.streams.length).find? fun i => captureFed (l.streams.getD i default) && bitOf (l.streams.getD i default).source p).map
      fun i => (e.1, i)

/-- Blocks of a stream that still wait to leave the companion: the WRITE packets of index entries queued at node 0 (R175; log 30). -/
def capWaiting (s : State) (n i : Nat) : Nat :=
  let on (w : Nat × Nat) : Nat :=
    let c := ctx s w.1 w.2
    (((portOf s 0 true).waiting ++ (portOf s 0 false).waiting).filter fun e =>
      e.1.type == 1 && e.1.dst == w.1 + 1 && decide (indexAt c ≤ 64 * e.1.addr) && decide (64 * e.1.addr < indexAt c + 16 * indexLen c)).length
  ((streamSlots s n i).map on).foldl max 0

/-- Samples side by side: one row holds the samples of all ports in ascending order (R174). -/
def joinRows : List (List (List Int)) → List (List Int)
  | [] => []
  | [a] => a
  | a :: r => (a.zip (joinRows r)).map fun e => e.1 ++ e.2

/-- How far a stamp may lie from the edge: ±5 ns in slave mode, ±1.25 ns, as a whole number of ns, in master mode (R172). -/
def edgeError (s : State) (ns : Nat) : Int := (Config.freeNat s.free % (2 * ns + 1) : Nat) - (ns : Int)

/-- The samples have the shape of a block of the port, and each fits its context's format. -/
def blockShape (r : StreamRec) (x : CapPort) (l : List (List Int)) : Bool :=
  let f := (Fmt.ofCode r.fmt).getD .s24
  l.length == r.blockSamples &&
    l.all fun w => w.length == x.lastSlot + 1 && w.all fun v => decide (Fmt.lo f ≤ v) && decide (v ≤ Fmt.hi f)

/-- The FS edges of a block of `b` samples can lie so: the first one `back` ns ago. In master mode it is on the grid of the rate since a
whole second of TB_APP, to the nearest ns and TIME edge, and not before the last step of TB_APP, which ends the block in progress; a slave's
period differs by at most 1 % (R172, R173, R390). -/
def edgesFit (s : State) (x : CapPort) (b back : Nat) : Bool :=
  let r := max 1 x.rate
  let span := back * r
  if x.master then
    let t := ((longOf s 3 : Int) - back) % 1000000000
    let off := (t.toNat * r) % 1000000000
    (decide (off ≤ 2 * r) || decide (1000000000 ≤ off + 2 * r)) && decide ((b - 1) * 1000000000 ≤ span + 4 * r) &&
      decide (span ≤ b * 1000000000) && decide (s.time.app.stepAt + back ≤ tbSafe s)
  else decide ((b - 1) * 990000000 ≤ span) && decide (span ≤ b * 1010000000)

/-- Blocks that were gathered at one time: their first FS edges lie less than half a sample period apart (R174). -/
def sameInstant (x : CapPort) (a b : Int) : Bool := decide (2 * (a - b).natAbs * max 1 x.rate < 1000000000)

/-- CAPTURE_BLOCK (R172, R175): a port completes a block. It is dropped when 32 blocks wait;
a context of several ports takes its block when all of them have theirs of one time. DESIGN CHOICE: the joined block carries the sequence
number of the lowest port's block (log 94). -/
def execCaptureBlock (port : Fin 16) (block : CapBlock) (s : State) : Res :=
  let p : Nat := port
  .next (match portStream s p with
  | none => s
  | some (n, i) =>
    let r := (streamRec s n i).getD default
    let x := capPort s p
    if !x.enable || !x.running || !blockShape r x block.samples || !edgesFit s x r.blockSamples block.back then s
    else
      let ports := maskPorts r.source
      let s := modCap p (fun x => { x with nextSeq := (x.nextSeq + 1) % 65536 }) s
      if 32 ≤ capWaiting s n i then
        let s := modCap p (fun x => { x with dropped := up8 x.dropped, overflow := true }) s
        capLevel p (ports.foldl (fun s q => modCap q (fun x => { x with held := none }) s) s)
      else
        let at_ : Int := (tbSafe s : Int) - block.back
        let s := ports.foldl (fun s q => modCap q (fun y => { y with held := y.held.filter fun h => sameInstant x h.at_ at_ }) s) s
        let s := modCap p (fun y => { y with held := some ⟨x.nextSeq, at_, block.samples⟩ }) s
        let held := ports.filterMap fun q => (capPort s q).held
        if held.length < ports.length then s
        else
          let stamp := unsgn 34 ((longOf s 3 : Int) - block.back + edgeError s (if x.master then 1 else 5))
          let s := drawn s
          let s := ports.foldl (fun s q => modCap q (fun x => { x with held := none, blocks := wrapAt 16 (x.blocks + 1) }) s) s
          feedBlock n i ((held.head?.map (·.seq)).getD 0) stamp (joinRows (held.map (·.rows))) s)

/-- FS_LOST (R173): the block in progress ends, no sample is written until FS is regular; while the port waits for that, FS can be lost
again. -/
def execFsLost (port : Fin 16) (s : State) : Res :=
  let p : Nat := port
  let x := capPort s p
  .next (if x.enable && !x.master then
    capLevel p (modCap p (fun x => { x with fsLost := true, running := false, faults := up8 x.faults, held := none }) s)
  else s)

/-- FS has been regular for 16 periods: samples are taken again. The blocks not taken leave a gap of at least one block in
the sequence; how many is not stated, so free (R173; log 31). -/
def execFsRegular (port : Fin 16) (s : State) : Res :=
  let p : Nat := port
  let x := capPort s p
  .next (if x.enable && !x.master && !x.running then
    let gap := 1 + Config.freeNat s.free % 32767
    drawn (modCap p (fun x => { x with running := true, nextSeq := (x.nextSeq + gap) % 65536 }) s)
  else s)

/-! ### Events and pulses (R184, R185) -/

/-- The MESSAGE streams bound to an EVT input. -/
def evtStreams (s : State) (i : Nat) : List (Nat × Nat) :=
  s.parts.flatMap fun e => match e.2.layout with
    | none => []
    | some l => ((List.range l.streams.length).filter fun j =>
        (l.streams.getD j default).kind == 2 && (l.streams.getD j default).evtBind == i).map fun j => (e.1, j)

/-- A row of a bound input: nanoseconds as an S32 pattern, era, direction (R184). -/
def evtRow (stamp : Nat) (rising : Bool) : List Int := [sgn 32 stamp, (stamp / 2 ^ 32 % 4 : Nat), if rising then 1 else -1]

/-- The row goes to the stream where its ring has room (R178, R184; log 32). -/
def evtAppend (n j stamp : Nat) (rising : Bool) (s : State) : State :=
  if feedHeld s n j < (feedForm s n j).ringLength then feedMessage n j (tbSafe s) [evtRow stamp rising] s else s

/-- EVT_EDGE (R184): an edge selected in CAP_EVT_CFG is stamped on TB_APP and kept, or dropped as the 17th; a bound MESSAGE
context takes a row. -/
def execEvtEdge (i : Fin 8) (rising : Bool) (s : State) : Res :=
  let k : Nat := i
  .next (if !bitOf (tblGet 0 s.cap.edgeSel k) (if rising then 0 else 1) then s
  else
    let stamp := unsgn 34 ((longOf s 3 : Int) + edgeError s 5)
    let s := drawn s
    let s := modEvt k (fun e => if 16 ≤ e.edges.length then { e with lost := up16 e.lost } else { e with edges := e.edges ++ [(stamp, rising)] }) s
    let s := icuLevel (104 + k) true s
    (evtStreams s k).foldl (fun s e => evtAppend e.1 e.2 stamp rising s) s)

/-- The offset sample of a PPS_IN edge: ns since the last whole second of TB_APP, brought between −0.5 and 0.5 s (R385). -/
def ppsOffset (stamp : Nat) : Int :=
  let x := stamp % 1000000000
  if 500000000 ≤ x then (x : Int) - 1000000000 else x

/-- PPS_IN_EDGE (R185): the edge selected by IN_EDGE is stamped on TB_APP; with SOURCE PPS_IN it is an offset sample. -/
def execPpsInEdge (rising : Bool) (s : State) : Res :=
  .next (if rising == s.cap.inEdge then s
  else
    let at_ : Int := (longOf s 3 : Int) + edgeError s 5
    let s := drawn s
    let s := icuEvent 112 { s with cap := { s.cap with inStamp := unsgn 34 at_, inNew := true } }
    if s.time.app.source = 2 then onOffset 3 (ppsOffset (unsgn 64 at_)) s else s)

/-- The base of PPS_OUT: OUT_BASE 0 TB_APP, 1 TB_NA, 2 TB_NB, 3 TB_SAFE (R198). -/
def ppsBase (s : State) : Nat := if s.cap.outBase = 0 then 3 else if s.cap.outBase = 3 then 0 else s.cap.outBase

/-- PPS_OUT rises at a whole second of the selected base, within 4 ns (R185, R379). -/
def execPpsOutRise (s : State) : Res :=
  let x := longOf s (ppsBase s) % 1000000000
  .next (if s.cap.outEn && !s.cap.ppsOut && (decide (x ≤ 4) || decide (999999996 ≤ x)) then
    emit (.ppsOut true) { s with cap := { s.cap with ppsOut := true, outFell := s.time.edges } }
  else s)

/-- OUT_WIDTH in ms; 0 and values above 100 are 100 (R198). -/
def ppsWidth (s : State) : Nat := if s.cap.outWidth = 0 ∨ 100 < s.cap.outWidth then 100 else s.cap.outWidth

/-- PPS_OUT falls OUT_WIDTH ms after it rose (R185). -/
def execPpsOutFall (s : State) : Res :=
  .next (if s.cap.ppsOut && decide (s.cap.outFell + ppsWidth s * 400000 ≤ s.time.edges) then
    emit (.ppsOut false) { s with cap := { s.cap with ppsOut := false } }
  else s)

/-! ### Feeds of a seat (R177, R178, R295) -/

/-- The stream that a package-wide context index names in a partition (R165). -/
def ctxStream (s : State) (n i : Nat) : Option Nat :=
  ((part s n).slots.find? fun t => t.2.any fun w => w == (i / 16384, i % 16384)).map (·.1)

/-- The context index belongs to a partition of the other PCIe seat (R292). -/
def ctxForeign (s : State) (h : Hdr) (i : Nat) : Bool :=
  (h.seat == .a || h.seat == .b) && s.parts.any fun e =>
    !(e.2.st == 0) && !(e.2.seat == seatNo h.seat) && e.2.slots.any fun t => t.2.any fun w => w == (i / 16384, i % 16384)

/-- A FENCED partition takes no feed and no result ring (R129). -/
def fencedBad (s : State) (h : Hdr) : Bool × Nat := (decide (h.part ≤ 15) && (part s h.part).st == 4, eState)

/-- The statuses that a feed's context decides: another seat's, not of this partition, its die gone, faulty (R292, R295). -/
def feedChecks (s : State) (h : Hdr) (i : Nat) (wrong : StreamRec → Bool) : List (Bool × Nat) :=
  let st := (ctxStream s h.part i).bind fun j => streamRec s h.part j
  let there := diePresent s (i / 16384)
  [fencedBad s h, (ctxForeign s h i, eRights), (st.isNone || !there, eAbsent), ((st.map wrong).getD false, eState),
   (st.isSome && there && ctxBad (ctx s (i / 16384) (i % 16384)), eState)]

/-- A feed that comes as far as its descriptor and finds it faulty. -/
def feedRead (s : State) (h : Hdr) (i : Nat) (wrong : StreamRec → Bool) : Bool :=
  match (ctxStream s h.part i).bind fun j => streamRec s h.part j with
  | some r => lowest (partChecks s h false ++ [onlyAB h, fencedBad s h]) == 0 && diePresent s (i / 16384) && !wrong r &&
      ctxBad (ctx s (i / 16384) (i % 16384))
  | none => false

/-- A feed: it completes when its last bytes have reached every replica (R288); or it is refused, and where its context is found faulty
counted, the first detection an alarm (R168). -/
def feedEnds (h : Hdr) (i : Nat) (f : State → State) (left : List (Nat × Nat)) (status : Nat) (read : Bool) (s : State) : State :=
  if status = stOk then awaits h 0 left none (f s)
  else
    let s := if read then
        dieCount (i / 16384) 0x1018 1 (contextFault (i / 16384) (i % 16384) s) else s
    complete h status s

/-- Rows of elements packed under R39, each padded to a word (R41). -/
def readRows (b : List Byte) (fmt n rows : Nat) : List (List Int) :=
  let f := (Fmt.ofCode fmt).getD .s8
  (List.range rows).map fun r => (List.range n).map fun i => readElem b f 0 r n i

/-- Bytes of such rows. -/
def rowsLen (fmt n rows : Nat) : Nat := ((Fmt.ofCode fmt).map fun f => 4 * rowWords f n * rows).getD 0

/-- The number and the record of the stream whose context a feed names. -/
def feedStream (s : State) (h : Hdr) (i : Nat) : Option (Nat × StreamRec) :=
  (ctxStream s h.part i).bind fun j => (streamRec s h.part j).map fun r => (j, r)

/-- FEED_SAMPLES (R177, R288, R295). -/
def execFeedSamples (h : Hdr) (ctx_ seq stamp era : Nat) (data : List Byte) (s : State) : Res :=
  command h (fun s =>
    let x := feedStream s h ctx_
    let wrong (r : StreamRec) : Bool := !(r.kind == 1 && bitOf r.sflags 1)
    let pre := partChecks s h false ++ [onlyAB h] ++ feedChecks s h ctx_ wrong ++
      [(decide (65535 < ctx_) || decide (65535 < seq) || decide (3 < era), eFormat)]
    let st := lowest (pre ++ [(data.isEmpty, eZero),
      (x.any fun e => !data.isEmpty && !(data.length == rowsLen e.2.fmt e.2.channels e.2.blockSamples), eFormat),
      (x.any fun e => decide (32767 < feedAhead s h.part e.1 seq), eFormat)])
    let (f, left) : (State → State) × List (Nat × Nat) := match x with
      | some (j, r) => (feedBlock h.part j seq (stamp % 2 ^ 32 + era * 2 ^ 32) (readRows data r.fmt r.channels r.blockSamples),
          feedEnd s h.part j ((blockPlace s h.part j seq).2 + 16))
      | none => (id, [])
    feedEnds h ctx_ f left st (feedRead s h ctx_ wrong) s) s

/-- FEED_MESSAGE (R178, R288, R295). -/
def execFeedMessage (h : Hdr) (ctx_ rows : Nat) (data : List Byte) (s : State) : Res :=
  command h (fun s =>
    let x := feedStream s h ctx_
    let wrong (r : StreamRec) : Bool := !(r.kind == 2) || decide (r.evtBind ≤ 7)
    let pre := partChecks s h false ++ [onlyAB h] ++ feedChecks s h ctx_ wrong ++
      [(decide (65535 < ctx_), eFormat)]
    let st := lowest (pre ++ [(x.any fun e => !(data.length == rowsLen e.2.fmt e.2.channels rows), eFormat),
      (x.any fun e => decide (e.2.ringLength < feedHeld s h.part e.1 + rows), eOvercommit)])
    let (f, left) : (State → State) × List (Nat × Nat) := match x with
      | some (j, r) =>
        let l := readRows data r.fmt r.channels rows
        if rows = 0 then (id, []) else (feedMessage h.part j (tbSafe s) l, feedEnd s h.part j (messageEnd s h.part j l))
      | none => (id, [])
    feedEnds h ctx_ f left st (feedRead s h ctx_ wrong) s) s

/-! ### CMD packets over contexts (R146, R150, R179) -/

/-- The descriptor that 64 bytes give to the context of stream `i` (R167); the die adds its own DCRC. -/
def readDesc (b : List Byte) (i : Nat) : Ctx :=
  { stream := i, kind := rd b 0 1, part := rd b 1 1, fmt := rd b 2 1, flags := rd b 3 1, channels := rd b 4 2, source := rd b 6 2
    ringBase := rd b 8 4, ringLength := rd b 12 4, stateBase := rd b 16 4, stateLength := rd b 20 4
    writeCount := rd b 24 8, windowNext := rd b 32 8, alive := rd b 40 2, lastAlive := rd b 42 2, scale := rd b 44 2
    nextSeq := rd b 46 2, blockSamples := rd b 48 2, lastStamp := rd b 52 4, lastEra := rd b 56 1 }

/-- What a descriptor CMD says (R146, R150). -/
def descArgs (slot : Nat) (desc : List Byte) : List Nat := [slot, ofLe desc]

/-- DESCRIPTOR_WRITE (R146, R167, R168). -/
def execDescriptorWrite (die_ : Fin 4) (slot : Nat) (desc : List Byte) (s : State) : Res :=
  let d : Nat := die_
  .next (if desc.length = 64 ∧ slot < 16384 then
    cmdArrives d cmdDescriptor (descArgs slot desc)
      (fun s => writeCtx d slot (fun _ => readDesc desc ((ctxStream s (rd desc 1 1) (16384 * d + slot)).getD 0)) s) s
  else s)

/-- SCAN_STATE_RESET (R88, R146): both copies of the SCAN state of a context are zero again. -/
def execScanStateReset (die_ : Fin 4) (slot : Nat) (s : State) : Res :=
  let d : Nat := die_
  .next (if slot < 16384 then
    cmdArrives d cmdScanReset [slot] (fun s =>
      let c := ctx s d slot
      modCtx d slot (fun c => { c with scanOn := false }) (cellarWrite d (scanAt c false) (zeroBytes c.stateLength) s)) s
  else s)

/-- The rows that stand in a DERIVED context's staging area (R179). -/
def stagedRows (x : Die) (c : Ctx) (rows : Nat) : List (List Int) :=
  let h := readHdr (memRead x.cellar (stageAt c) 32) 0
  let t := readTensor (memRead x.cellar (stageAt c) (hdrLength h)) 0 h
  (List.range rows).map fun i => (List.range c.channels).map fun j => Tensor.el t (i * c.channels + j)

/-- A commit at its die (R168, R176, R179): the staged rows, or zeros as a gap, are appended to the DERIVED ring. -/
def commitRows (d sl rows : Nat) (gap : Bool) (s : State) : State :=
  feedCtx d sl (fun s =>
    let c := ctx s d sl
    if gap then
      let k := min rows c.ringLength
      writeCtx d sl (ctxGap rows) (gapWrite d c (c.writeCount + rows) k s)
    else
      let l := (stagedRows (die s d) c rows)
      let s := (ringParts c c.writeCount rows).foldl (fun s q => cellarWrite d (ringAt c + q.1) (partBytes c l q) s) s
      writeCtx d sl (fun c => ctxPrune { c with
        writeCount := wrapAt 64 (c.writeCount + rows), alive := (c.alive + 1) % 65536 }) s) s

/-- DERIVED_COMMIT (R179). -/
def execDerivedCommit (die_ : Fin 4) (slot rows : Nat) (gap : Bool) (s : State) : Res :=
  let d : Nat := die_
  .next (if slot < 16384 ∧ (ctx s d slot).kind = 3 then cmdArrives d cmdDerived [slot, rows, bit gap] (commitRows d slot rows gap) s else s)

end Sys2Proof.Machine
end

