-- ==== Sys2Proof/Machine/Engine.lean ====
section
/-! DEFINITION. Machine/Engine.lean: a core at work: engine batches and their operators, the residue check, DMA (R60, R74, R89, R93, R94,
R106 to R111, R115). -/

namespace Sys2Proof.Machine

/-! ### Cores at work -/

/-- The copy that a core serves, while it is on its cores. -/
def coreCopy (s : State) (d i : Nat) : Option (Frame × Bool × Copy) :=
  (coreOf s d i).frame.bind fun id => (frameOf s id).bind fun f =>
    ((copiesOf f).find? fun e => copyOn e.2 && e.2.die == d && decide (i / 32 ∈ e.2.clusters)).map fun e => (f, e.1, e.2)

/-- A core that can go on with its sliver; a core without one, as one that was fenced before, moves and operates nothing (R123). -/
def coreActs (s : State) (d i : Nat) : Option (Frame × Bool × Copy) :=
  let c := coreOf s d i
  if c.halted || c.waitPeg.isSome || c.sliver == 0 then none else coreCopy s d i

/-- Counts of a copy changed. -/
def modCounts (id : FrameId) (tw : Bool) (f : Counts → Counts) (s : State) : State := modCopy id tw (fun c => { c with cnt := f c.cnt }) s

/-! ### What operators read of a stream (R89, R93, R94, R178, R183, R220) -/

/-- Input tensor `j` of a TUNING record: its offset in the input area. -/
def tuneOffset (b : List Byte) : Nat → Nat
  | 0 => 0
  | j + 1 => tuneOffset b j + hdrLength (readHdr b (tuneOffset b j))

/-- A tuning frame's input for stream `j` of its plan (R220). -/
def tuneTensor (s : State) (f : Frame) (j : Nat) : Tensor :=
  let b := (((regionRec s f.id.part f.id.region).bind (·.tuning)).map (·.inputs)).getD []
  readTensor b (tuneOffset b j) (readHdr b (tuneOffset b j))

/-- The place of a stream in a frame's plan. -/
def planPlace (s : State) (f : Frame) (st : Nat) : Nat := (planStreams s f.id.part f.plan).idxOf st

/-- The context of a stream on a die. -/
def streamCtx (s : State) (n d st : Nat) : Ctx := ((slotOn s n st d).map (ctx s d)).getD default

/-- What a copy's operators read of a stream: the window of the frame (R182), the MESSAGE rows that it took (R178), or the input of its
TUNING record. -/
def streamIn (s : State) (f : Frame) (c : Copy) (st : Nat) : StreamIn :=
  let j := planPlace s f st
  let x := streamCtx s f.id.part c.die st
  if f.id.tuning then
    let t := tuneTensor s f j
    let rows := x.kind == 2
    let n := if rows then Tensor.ext t 0 else Tensor.ext t 1
    { fmt := t.fmt, chans := if rows then Tensor.ext t 1 else Tensor.ext t 0, block := t.block, scale := Tensor.word t 0
      w := n, newest := (n : Int) - 1, rows := rows }
  else
    let p := (((planRec s f.id.part f.plan).map (·.streams)).getD []).getD j default
    let base : StreamIn := { fmt := ctxFmt x, chans := x.channels, block := x.blockSamples, scale := BitVec.ofNat 16 x.scale &&& 0xFFFE
                             w := p.w, newest := f.newest.getD j 0 }
    if x.kind = 2 then
      match f.taken.find? fun t => t.1 == st with
      | some t => { base with w := t.2.2 - t.2.1, newest := (t.2.2 : Int) - 1, rows := true }
      | none => { base with w := 0, newest := -1, rows := true }
    else base

/-- The element of a tuning frame's input that stands for sample `a` of channel `ch` (R220). -/
def tunePlace (r : StreamIn) (a ch : Nat) : Nat := if r.rows then a * r.chans + ch else ch * r.w + a

/-- Sample `a` of channel `ch` of a stream as a copy reads it, with its scale word, and whether the ring held it at the start (R183). -/
def streamSample (s : State) (f : Frame) (c : Copy) (st : Nat) (a : Int) (ch : Nat) : Int × BitVec 16 × Bool :=
  if f.id.tuning then
    let t := tuneTensor s f (planPlace s f st)
    let r := streamIn s f c st
    if 0 ≤ a ∧ a ≤ r.newest then
      let p := tunePlace r a.toNat ch
      (Tensor.el t p, Tensor.word t p, true)
    else (0, r.scale, false)
  else
    let seen := ((c.seen.find? fun e => e.1 == st).map (·.2)).getD 0
    ringSample (die s c.die) (streamCtx s f.id.part c.die st) seen a ch

/-- Poisoned words and T2 codes 0b10 among what an operator reads of its stream: ring elements and the block-index entries beside them, the
state of SCAN, a tuning frame's input (R38, R158, R220). -/
def streamFaults (s : State) (f : Frame) (c : Copy) (op : Operator Tensor) : Nat × Nat :=
  let scan : Nat := match op with
    | .scan _ st _ _ _ _ _ _ =>
      let y := streamCtx s f.id.part c.die st
      if f.id.tuning then 0 else poisonIn (die s c.die) (scanAt y y.scanOn) (y.stateLength / 2)
    | _ => 0
  match streamReads (streamIn s f c) op with
  | none => (scan, 0)
  | some (st, l) =>
    if f.id.tuning then
      let t := tuneTensor s f (planPlace s f st)
      let r := streamIn s f c st
      let cells := (l.filter fun a => decide (0 ≤ a) && decide (a ≤ r.newest)).flatMap fun a =>
        (List.range r.chans).map fun ch => tunePlace r a.toNat ch
      (0, (cells.filter fun p => t2Bad t.fmt (t.elems.getD p 0) && !(scaleM (Tensor.word t p) == 0)).length)
    else
      let x := die s c.die
      let y := streamCtx s f.id.part c.die st
      let seen := ((c.seen.find? fun e => e.1 == st).map (·.2)).getD 0
      let cells := (l.filter fun a => ringHas y a && decide (a < (seen : Int))).flatMap fun a =>
        (List.range y.channels).map fun ch => (a.toNat, ch)
      ((x.poison.filter fun w => cells.any fun e => ringInWord y e.1 e.2 w || entryInWord y e.1 w).length,
       (cells.filter fun e => t2Bad (ctxFmt y) (ringRaw x y e.1 e.2)).length)

/-- The SCAN state from which an operator goes on: a frame's working copy where it has one, else the committed copy; a tuning frame's
scratch copy (R88, R89). -/
def scanFrom (s : State) (f : Frame) (c : Copy) (st : Nat) : List Int :=
  let y := streamCtx s f.id.part c.die st
  if f.id.tuning then y.scanTune.getD [] else scanRead (die s c.die) y y.scanOn

/-- The state that a SCAN leaves, in the frame's working copy or the tuning frame's scratch copy (R88, R89). -/
def keepScan (f : Frame) (c : Copy) (o : Option (Nat × List Int)) (s : State) : State :=
  match o with
  | some (st, h) =>
    match slotOn s f.id.part st c.die with
    | some sl =>
      if f.id.tuning then modCtx c.die sl (fun x => { x with scanTune := some h }) s
      else
        let y := ctx s c.die sl
        modCtx c.die sl (fun x => { x with scanOn := true }) (cellarWrite c.die (scanAt y true) (scanBytes y h) s)
    | none => s
  | none => s

/-- The next output instant that a RESAMPLE leaves with its context (R93). -/
def keepNext (f : Frame) (c : Copy) (o : Option (Nat × Nat)) (s : State) : State :=
  match o with
  | some (st, n) =>
    match slotOn s f.id.part st c.die with
    | some sl => if f.id.tuning then s else modCtx c.die sl (fun x => { x with resampleNext := n }) s
    | none => s
  | none => s

/-! ### Jobs (R60, R106, R108, R109, R114, R115) -/

/-- The pinned seed of a copy's draws on a core, where its region's record pins them (R60, R218). -/
def pinOf (s : State) (f : Frame) (c : Copy) (i : Nat) : Option Pin :=
  (regionRec s f.id.part c.region).bind fun r =>
    if r.seedKind = 1 then some ⟨if c.place = 3 then r.integ.pSeed else r.seed, f.id.seq, i⟩ else none

/-- Elements of the first output struck on their way out of the engine, each compared with its residue (R108). -/
def strikeOuts (outs : List Tensor) (k : Wk) : List Tensor × Wk :=
  match outs with
  | [] => ([], k)
  | t :: r =>
    let hits := k.ups.filter fun u => u.2.1 == .element && decide (u.1 < t.elems.length)
    let t := hits.foldl (fun t u => { t with elems := t.elems.set u.1 (t.elems.getD u.1 0 + u.2.2) }) t
    (t :: r, hits.foldl (fun k u => Wk.check u.2.2 k) k)

/-- Output lanes of an engine: 8, or 4 where the operand pair runs as S16 × S16 or S24 × S16 (R61, R105). -/
def laneCount (w a : Fmt) : Nat := if (pairMax w a).any fun p => decide (1073741824 ≤ p) then 4 else 8

/-- The lanes after some outputs, with `n` lanes in use of each engine. DESIGN CHOICE: output position `p` is formed in lane `p` mod *n* of
engine `p` / *n* mod 4 (log 70). -/
def lanesAfter (n : Nat) (l : List Lane) (k : Wk) (t : Tbl Lane) : Tbl Lane :=
  (List.range l.length).foldl (fun t p =>
    let v := l.getD p {}
    tblPut t (8 * (p / max 1 n % 4) + p % max 1 n) { v with acc := v.acc + upsetAt k p .acc }) t

/-- A memory that stays within the shelf's 128 KiB (R109), else what it was. -/
def inShelf (old new : List Host.Cell) : List Host.Cell := if new.getLast?.any fun c => decide (131072 ≤ c.1) then old else new

/-- What a job leaves with its core and its frame. -/
def jobLeaves (d i : Nat) (f : Frame) (tw : Bool) (n : Nat) (r : OpRes) (shelf : List Host.Cell → List Host.Cell) (s : State) : State :=
  let s := { s with free := r.wk.free }
  let s := modCore d i (fun x => { x with
    outs := r.outs, draws := r.wk.draws, lanes := lanesAfter n r.lanes r.wk x.lanes, shelf := inShelf x.shelf (shelf x.shelf) }) s
  let mask := match r.short with
    | some st => 2 ^ planPlace s f st
    | none => 0
  modCopy f.id tw (fun c => { c with
    shortMask := c.shortMask ||| (if f.id.tuning then 0 else mask), cnt := { c.cnt with sats := c.cnt.sats + r.wk.sats } }) s

/-- A sliver's partial sums as they leave for the shelf, struck and checked like accumulators (R108, R115). -/
def sumsLeave (l : List Lane) (k : Wk) : List Int × Wk := mapWk (accLeaves (l.map (·.acc))) (List.range l.length) k

/-- The kind of stream that a layout gives an operator (R74, R93, R94). -/
def jobStreams (s : State) (f : Frame) (st : Nat) : Option StreamRec := streamRec s f.id.part st

/-- A job done by a core (R74, R106, R109, R114, R115): operands from its shelf, results into it; answers whether the residue checker saw a
disturbance of a value that it formed (R108). One that contract level 1 does not have changes nothing. -/
def runJob (d i : Nat) (f : Frame) (tw : Bool) (c : Copy) (j : Job) (ups : List Upset) (s : State) : State × Bool :=
  if !jobLegal (jobStreams s f) j then (s, false)
  else
    let x := coreOf s d i
    let tun := f.id.tuning
    let k : Wk := ⟨s.free, 0, pinOf s f c i, x.draws, ups.map fun u => (u.pos, u.site, u.delta), false⟩
    match j with
    | .run op dst =>
      let op := mapOperands (shelfTensor x.shelf) op
      let r := evalOp tun (streamIn s f c) (streamSample s f c) (scanFrom s f c) op k
      let q := strikeOuts r.outs r.wk
      let r := { r with outs := q.1, wk := q.2 }
      let bad := streamFaults s f c op
      let n := ((redOf (streamIn s f c) (streamSample s f c) op).map fun r => laneCount r.w.fmt r.x.fmt).getD 8
      let s := keepNext f c r.next (keepScan f c r.scan s)
      let s := modCounts f.id tw (fun n => { n with t2 := n.t2 + t2Count op + bad.2, uncorrCellar := n.uncorrCellar + bad.1 }) s
      let put (m : List Host.Cell) : List Host.Cell := (r.outs.zip dst).foldl (fun m e => writeTensor false m e.2 e.1) m
      (jobLeaves d i f tw n r put s, r.wk.seen)
    | .pairs op lo hi at_ =>
      let op := mapOperands (shelfTensor x.shelf) op
      match redOf (streamIn s f c) (streamSample s f c) op with
      | none => (s, false)
      | some red =>
        let q := redPart red lo hi k
        let sums := sumsLeave q.1 q.2
        let bad := if lo = 0 then streamFaults s f c op else (0, 0)
        let s := modCounts f.id tw (fun n => { n with
          t2 := n.t2 + (if lo = 0 then t2Count op else 0) + bad.2, uncorrCellar := n.uncorrCellar + bad.1 }) s
        (jobLeaves d i f tw (laneCount red.w.fmt red.x.fmt) { outs := [], lanes := q.1, wk := sums.2 } (fun m => writeSums m at_ sums.1) s,
         sums.2.seen)
    | .combine shape parts o dst =>
      let ps := parts.map fun p => (p.1, readSums x.shelf p.2 (prod shape))
      let r := opCombine tun shape ps o k
      let q := strikeOuts r.outs r.wk
      let r := { r with outs := q.1, wk := q.2 }
      let put (m : List Host.Cell) : List Host.Cell := (r.outs.zip [dst]).foldl (fun m e => writeTensor false m e.2 e.1) m
      (jobLeaves d i f tw 8 r put s, r.wk.seen)

/-- The jobs of a batch in order, from job `n` on; answers whether the residue checker saw a disturbance (R108). -/
def runJobs (d i : Nat) (f : Frame) (tw : Bool) (c : Copy) (ups : List Upset) : Nat → List Job → State → State × Bool
  | _, [], s => (s, false)
  | n, j :: r, s =>
    let p := runJob d i f tw c j (ups.filter fun u => u.job == n) s
    let q := runJobs d i f tw c ups (n + 1) r p.1
    (q.1, p.2 || q.2)

/-- An error that a batch on this core can find in its shelf or its cluster (R122). -/
def batchErr (i : Nat) (e : FabErr) : Bool :=
  match e with
  | .shelfUe c k => i == 32 * c + k
  | .storeUe c => i / 32 == c
  | .parity c => i / 32 == c
  | _ => false

/-- ENGINE_BATCH (R107, R108, R110): a batch of at most 4,000 ENGINE cycles with its jobs and what its checkers find. -/
def execEngineBatch (die : Fin 4) (core cycles : Nat) (work : List Job) (obs : BatchObs) (err : Option FabErr) (s : State) : Res :=
  let d : Nat := die
  .next (match coreActs s d core with
  | none => s
  | some (f, tw, c) =>
    if !(c.phase == .running) || (coreOf s d core).inBatch || decide (4000 < cycles) then s
    else
      let s := modCore d core (fun x => { x with inBatch := true, sig := obs.flow.foldl Config.sigStep x.sig }) s
      let q := runJobs d core f tw c obs.upsets 0 work s
      let s := modCounts f.id tw (fun n => { n with
        corrSram := n.corrSram + obs.shelfCorr + obs.storeCorr, corrCellar := n.corrCellar + obs.cellarCorr }) q.1
      let s := coreCount d core 0x8 obs.shelfCorr s
      let s := clusterCount d (core / 32) 0x14 obs.storeCorr s
      let s := modDie d (fun x => { x with corrected := wrapAt 16 (x.corrected + obs.cellarCorr) }) s
      let s := if q.2 then hwError d (.residue (core / 32) (core % 32)) (some (f.id, tw)) s else s
      match err with
      | some e => if batchErr core e then hwError d e (some (f.id, tw)) s else s
      | none => s)

/-! ### The cellar's errors (R156 to R158, R163) -/

/-- The partition whose cellar range holds a byte of a die. -/
def cellarOwner (s : State) (d a : Nat) : Nat :=
  ((s.parts.find? fun e => (heldLayout e.2).any fun l =>
    decide (e.2.cellBase.getD d 0 ≤ a) && decide (a < e.2.cellBase.getD d 0 + l.cellar.getD d 0 * 1048576)).map (·.1)).getD 255

/-- Some words become poisoned: each logged, with event 0x06 for its partition (R158, R223, R486). -/
def poisonWords (d : Nat) (ws : List Nat) (s : State) : State :=
  ws.foldl (fun s w =>
    if w ∈ (die s d).poison then s
    else
      let n := cellarOwner s d (8 * w)
      let s := modDie d (fun x => { x with poison := withElem w x.poison, cellar := memWrite x.cellar (8 * w) (zeroBytes 8) }) s
      let s := logError 3 d n (w / 8) 0 s
      if n = 255 then s else routeEvent n 6 none (w / 8) s) s

/-- The words that an outcome at a byte address poisons: one, or the block's 56 (R157, R158). -/
def badWords (a : Nat) (found : EccOutcome) : List Nat :=
  match found with
  | .uncorrectable => [a / 8]
  | .tagMismatch => (List.range 56).map fun i => a / 448 * 56 + i
  | _ => []

/-- The die's cellar status after reading one word (R163). -/
def cellarSeen (d : Nat) (found : EccOutcome) (s : State) : State :=
  match found with
  | .clean => s
  | .corrected => modDie d (fun x => { x with corrected := wrapAt 16 (x.corrected + 1) }) s
  | _ => modDie d (fun x => { x with uncorrected := up8 x.uncorrected }) s

/-! ### DMA (R111, R118) -/

/-- A peg protocol fault of a core (R118, R122). -/
def pegFault (d i : Nat) (f : Frame) (tw : Bool) (s : State) : State := hwError d (.peg (i / 32) (i % 32)) (some (f.id, tw)) s

/-- The partition's cellar range on a die holds these bytes. -/
def inRange (s : State) (n d a len : Nat) : Bool :=
  let b := (part s n).cellBase.getD d 0
  decide (b ≤ a) && decide (a + len ≤ b + (((part s n).layout.map fun l => l.cellar.getD d 0).getD 0) * 1048576)

/-- A transfer that the port may make: inside the shelf, the cluster's store room, the partition's cellar range on the die
named; the ring is written only. -/
def dmaAllowed (s : State) (d n : Nat) (t : Dma) : Bool :=
  decide (t.shelf + t.len ≤ 131072) &&
  match t.far with
  | .store a => decide (a + t.len ≤ 2097152)
  | .cellar a => inRange s n d a t.len
  | .ring node a => !t.toShelf && decide (1 ≤ node) && decide (node ≤ 4) && inRange s n (node - 1) a t.len

/-- The data moved from shelf to far end, or back. -/
def dmaMove (d i : Nat) (t : Dma) (s : State) : State :=
  let k := i / 32
  let c := coreOf s d i
  match t.far with
  | .store a =>
    let m := tblGet [] (die s d).store k
    if t.toShelf then
      clusterCount d k 0x1C (t.len / 64) (modCore d i (fun c => { c with shelf := memWrite c.shelf t.shelf (memRead m a t.len) }) s)
    else modDie d (fun x => { x with store := tblSet [] x.store k (memWrite m a (memRead c.shelf t.shelf t.len)) }) s
  | .cellar a =>
    if t.toShelf then
      cellarReadCount d t.len (modCore d i (fun c => { c with shelf := memWrite c.shelf t.shelf (memRead (die s d).cellar a t.len) }) s)
    else cellarWrite d a (memRead c.shelf t.shelf t.len) s
  | .ring node a => writePackets (d + 1) node (t.len / 64 + 1) a (memRead c.shelf t.shelf t.len) s

/-- What the source's ECC found (R122, R156 to R158, R240). -/
def dmaFound (d i : Nat) (f : Frame) (tw : Bool) (t : Dma) (found : EccOutcome) (s : State) : State :=
  let k := i / 32
  let bad := found == .uncorrectable || found == .tagMismatch
  if !t.toShelf then
    if found = .corrected then coreCount d i 0x8 1 (modCounts f.id tw (fun n => { n with corrSram := n.corrSram + 1 }) s)
    else if bad then hwError d (.shelfUe k (i % 32)) (some (f.id, tw)) s else s
  else
    match t.far with
    | .store _ =>
      if found = .corrected then clusterCount d k 0x14 1 (modCounts f.id tw (fun n => { n with corrSram := n.corrSram + 1 }) s)
      else if bad then hwError d (.storeUe k) (some (f.id, tw)) s else s
    | .cellar a =>
      let p := poisonIn (die s d) a t.len
      let s := modCounts f.id tw (fun n => { n with uncorrCellar := n.uncorrCellar + p }) s
      if found = .corrected then cellarSeen d found (modCounts f.id tw (fun n => { n with corrCellar := n.corrCellar + 1 }) s)
      else if bad then
        hwError d (.cellarUe (a / 8) (some k)) (some (f.id, tw)) (poisonWords d (badWords a found) (cellarSeen d found s))
      else s
    | .ring _ _ => s

/-- A transfer performed. -/
def dmaRun (d i : Nat) (f : Frame) (tw : Bool) (t : Dma) (found : EccOutcome) (s : State) : State :=
  coreCount d i 0xC (t.len / 64) (dmaFound d i f tw t found (dmaMove d i t s))

/-- The transfers that a core's port has outstanding are performed in their order (R111). -/
def dmaDrain (d i : Nat) (f : Frame) (tw : Bool) (s : State) : State :=
  let l := (coreOf s d i).dma
  l.foldl (fun s t => dmaRun d i f tw t.1 t.2 s) (modCore d i (fun x => { x with dma := [] }) s)

/-- DMA_TRANSFER (R111, R118): units of 64 bytes; a transfer of zero length moves nothing, one outside the partition's ranges is a peg
protocol fault of the core. DESIGN CHOICE: transfers issued during an engine batch are outstanding, at most eight, until the batch's
boundary; at other times one is performed at once (log 71). -/
def execDmaTransfer (die : Fin 4) (core : Nat) (d : Dma) (found : EccOutcome) (s : State) : Res :=
  let x : Nat := die
  .next (match coreActs s x core with
  | none => s
  | some (f, tw, _) =>
    if d.len = 0 ∨ d.len % 64 ≠ 0 then s
    else if !dmaAllowed s x f.id.part d then pegFault x core f tw s
    else if !(coreOf s x core).inBatch then dmaRun x core f tw d found s
    else if 8 ≤ (coreOf s x core).dma.length then s
    else modCore x core (fun c => { c with dma := c.dma ++ [(d, found)] }) s)

/-- BATCH_BOUNDARY (R107, R111): the outstanding transfers are made; a pending stop, preemption, deadline or abort takes effect. -/
def execBatchBoundary (die : Fin 4) (core : Nat) (s : State) : Res :=
  let d : Nat := die
  .next (if (coreOf s d core).inBatch then
    let s := match coreCopy s d core with
      | some (f, tw, _) => dmaDrain d core f tw s
      | none => s
    let s := modCore d core (fun c => { c with inBatch := false }) s
    match coreCopy s d core with
    | some (f, tw, _) => copySettle f.id tw s
    | none => s
  else s)

end Sys2Proof.Machine
end

