-- ==== Sys2Proof/Machine/Judge.lean ====
section
/-! DEFINITION. Machine/Judge.lean: evidence and data at the companion, the judge and its verdict program (R241 to R261). -/

namespace Sys2Proof.Machine

/-! ### Data arriving (R197, R242, R251) -/

/-- The bytes that pieces give without a hole from the start. -/
def joinPieces : Tbl (List Byte) → List Byte → List Byte
  | [], b => b
  | (o, l) :: r, b => if o ≤ b.length then joinPieces r (b ++ l.drop (b.length - o)) else b

/-- The output descriptors of a copy's region. -/
def copyOuts (s : State) (n : Nat) (c : Copy) : List OutRec := regionOuts s n c.region

/-- The data area as it came, once as many bytes are there as the die sent, whatever they say (R242, R247). DEDUCED: that part of the data
never arrived is a matter of what was sent, not of what the tensor headers say (log 26). -/
def wholeArea (c : Copy) : Option (List Byte) :=
  let b := joinPieces c.pieces []
  if 0 < c.total ∧ c.total ≤ b.length then some b else none

/-- A copy takes stock of the data that has come. -/
def takeStock (id : FrameId) (tw : Bool) (s : State) : State := modCopy id tw (fun c => { c with whole := wholeArea c }) s

/-- Evidence and data of a copy are there. -/
def copyReady (c : Copy) : Bool := c.ev.isSome && c.whole.isSome

/-- RESULT_CHECK of a copy whose record is there (R242). -/
def copyCheck (c : Copy) : Nat :=
  match c.ev, c.whole with
  | some e, some b => if (crc32c b).toNat = e.outCrc then 1 else 2
  | _, _ => 3

/-! ### The record that is judged (R243, R245, R247, R248) -/

/-- The partner's record folded into the main one (R248). -/
def mergeEv (s : State) (a b : EvRec) : EvRec :=
  let st := if safeLong s b.start (fld b.eras 3 2) < safeLong s a.start (fld a.eras 3 2) then b else a
  let en := if safeLong s a.endS (fld a.eras 5 4) < safeLong s b.endS (fld b.eras 5 4) then b else a
  setEflag 11 true { a with
    saturations := min 0xFFFFFFFF (a.saturations + b.saturations), residue := min 65535 (a.residue + b.residue)
    t2 := min 65535 (a.t2 + b.t2), corrSram := min 65535 (a.corrSram + b.corrSram)
    corrCellar := min 65535 (a.corrCellar + b.corrCellar), uncorrSram := min 65535 (a.uncorrSram + b.uncorrSram)
    uncorrCellar := min 65535 (a.uncorrCellar + b.uncorrCellar), pegFaults := min 65535 (a.pegFaults + b.pegFaults)
    eflags := a.eflags ||| (b.eflags % 256), signature := if a.signature = 2 ∨ b.signature = 2 then 2 else a.signature
    margin := min a.margin b.margin, start := st.start, endS := en.endS
    eras := fld a.eras 1 0 + 4 * fld st.eras 3 2 + 16 * fld en.eras 5 4 }

/-- The partner's copy and record, once the record has come. -/
def partnerEv (f : Frame) : Option (Copy × EvRec) := f.twin.bind fun c => c.ev.map fun e => (c, e)

/-- DELTA, DELTA_COUNT and DELTA_OVER (R247); a count that the spec does not give is drawn (log 26). -/
def deltaFill (f : Frame) (c : Copy) (r : EvRec) (s : State) : EvRec × State :=
  match f.main.whole, c.whole with
  | some a, some b =>
    let (d, n, tooMany) := areaDelta (copyOuts s f.id.part f.main) (copyOuts s f.id.part c) r.tolerance a b
    match n with
    | some n => (setEflag 9 tooMany { r with delta := d, deltaCount := n }, s)
    | none => (setEflag 9 tooMany { r with delta := d, deltaCount := Config.freeNat s.free % 65536 }, drawn s)
  | _, _ => (r, s)

/-- The tuning comparison passes (R243, R64). -/
def tunePasses (s : State) (f : Frame) (r : EvRec) : Bool :=
  match (regionRec s f.id.part f.id.region).bind (·.tuning), f.main.whole with
  | some t, some b => shake256 16 b == t.digest && r.saturations == 0 && r.t2 == 0 && r.uncorrSram == 0 && r.uncorrCellar == 0 &&
      r.resultCheck == 1
  | _, _ => false

/-- RESULT_CHECK of a frame (R242): 0 where the main copy produced no data, else the main copy's, else the partner's. -/
def frameCheck (f : Frame) (e : EvRec) : Nat :=
  if eflag e 1 || decide (e.margin < 0) then 0
  else if copyCheck f.main = 1 ∧ f.twinGone = false then ((f.twin.filter fun c => c.whole.isSome).map copyCheck).getD 1
  else copyCheck f.main

/-- The record of a frame with its CX fields up to 0x5F (R241, R248, R250): the partner's is folded into the main one's where both have come,
and PARTNER_MISSING says that the partner cannot run, or that the wait for its record or data has ended in vain. -/
def judgedRecord (f : Frame) (e : EvRec) (s : State) : EvRec × State :=
  let two := decide (2 ≤ (integOf s f.id.part f.id.region).mode) && !f.id.tuning
  let f := { f with resultCheck := frameCheck f e }
  let (r, s) :=
    if !two then (cxFill s f e, s)
    else
      match partnerEv f with
      | some (c, b) =>
        let r := setEflag 8 f.twinGone (cxFill s f (if f.main.ev.isSome then mergeEv s e b else e))
        if f.twinGone then (r, s) else deltaFill f c r s
      | none => (setEflag 8 f.twinGone (cxFill s f e), s)
  if f.id.tuning then
    let r := { r with tuneDigest := (f.main.whole.map (shake256 16)).getD [] }
    ({ r with tune := if tunePasses s f r then 1 else 2 }, s)
  else (r, s)

/-! ### Ready for judgement (R258) -/

/-- The frame's data for its result record (R197): a real frame that ran to its end and whose data all arrived. -/
def frameData (f : Frame) : List Byte := if f.id.tuning then [] else f.main.whole.getD []

/-- The main copy's record; where only the partner's has come, that one under the frame's identity; one that has not come is synthetic
(R248, R252). -/
def frameEv (f : Frame) : EvRec :=
  match f.main.ev, partnerEv f with
  | some e, _ => e
  | none, some (_, b) => { b with die := f.main.die, region := f.id.region, outCrc := 0 }
  | none, none => syntheticEv f

/-- A frame is published with the record that it has. -/
def publishNow (f : Frame) (verdict reason : Nat) (e : EvRec) (data : List Byte) (s : State) : State :=
  let (r, s) := judgedRecord f e s
  publishAll f verdict reason 0 0 r data s

/-- The record of an aborted attempt that is replayed goes into the store at its own index, judged DOUBTED (R124 step 7, R252). -/
def abortStored (f : Frame) (s : State) : (Nat × EvRec) × State :=
  let (r, s) := judgedRecord f (frameEv f) s
  let n := f.id.part
  let r := { r with
    verdict := vDoubted, reason := 0xF7, winCount := winCount s n f.id.region, winFill := winFill s n f.id.region
    k := sealK s, w := sealW s, judgedSafe := nowNs s, judgedEra := nowEra s }
  let q := storeEv r s
  ((q.1, r), q.2)

/-- A frame whose evidence never arrived: UNPROVEN with a synthetic record (R251, R252). -/
def publishMissing (f : Frame) (s : State) : State :=
  publishAll f vUnproven 0xFD 0 0 (cxFill s { f with resultCheck := 3 } (syntheticEv f)) [] s

/-- A frame takes its place in the judge's queue, or finds it full (R258). -/
def toJudge (f : Frame) (s : State) : State :=
  if s.evd.queue.length < 4096 then
    modFrame f.id (fun x => { x with phase := .queued }) { s with evd := { s.evd with queue := s.evd.queue ++ [f.id] } }
  else
    let s := { s with evd := { s.evd with overflows := up8 s.evd.overflows } }
    let s := logError 14 0 f.id.part f.id.region 0 s
    publishNow f vUnproven 0xFE (frameEv f) (frameData f) s

/-- The partner of a frame needs no more waiting: there is none, it is missing, or its record and data are there; `late`
asks for its record alone. -/
def partnerDone (f : Frame) (late : Bool) : Bool :=
  f.twinGone || match f.twin with
    | none => true
    | some c => copyReady c || (late && c.ev.isSome)

/-- The records of a frame's copies that have come. -/
def frameEvs (f : Frame) : List EvRec := f.main.ev.toList ++ (partnerEv f).toList.map (·.2)

/-- The smallest deadline margin of some records. -/
def evMargin (l : List EvRec) : Int := l.foldl (fun m e => min m e.margin) 2147483647

/-- What R261 decides before the verdict program from the records that have come: LATE, or DOUBTED for an aborted attempt. -/
def earlyVerdict (f : Frame) : Option (Nat × Nat) :=
  if evMargin (frameEvs f) < 0 then some (vLate, 0xF6)
  else if (frameEvs f).any fun e => eflag e 1 then some (vDoubted, 0xF7)
  else none

/-- Whether a frame's record or data completes it: an aborted one that is not replayed at once, a LATE one with its partner's record, else to
the judge (R124 step 8, R251, R258, R261). -/
def judgeReady (id : FrameId) (s : State) : State :=
  match frameOf s id with
  | none => s
  | some f =>
    if !(f.phase == .ended) && !(f.phase == .running) then s
    else if (copiesOf f).any fun e => e.2.aborted && e.2.ev.isSome then
      let v := (earlyVerdict f).getD (vDoubted, 0xF7)
      publishNow f v.1 v.2 (frameEv f) [] s
    else if !(f.phase == .ended) || f.main.ev.isNone then s
    else
      match earlyVerdict f with
      | some v => if partnerDone f true then publishNow f v.1 v.2 (frameEv f) [] s else s
      | none => if f.main.whole.isSome && partnerDone f false then toJudge f s else s

/-- RESULT_PACKET (R138, R197, R242, R251): the data of a copy arrives. -/
def execResultPacket (f : FrameId) (partner : Bool) (offset : Nat) (data : List Byte) (s : State) : Res :=
  .next (match (frameOf s f).bind fun x => (copyOf x partner).map fun c => (x, c) with
  | none => { s with evd := { s.evd with lateArr := up8 s.evd.lateArr } }
  | some (x, c) =>
    if !(c.phase == .ended) || x.phase == .queued then s
    else judgeReady f (takeStock f partner (modCopy f partner (fun c => { c with pieces := tblPut c.pieces offset data }) s)))

/-- EVID_PACKET (R250 to R252): a record arrives; one with a wrong ECRC is discarded. That of an aborted attempt whose replay has been
decided already goes into the store. -/
def execEvidPacket (f : FrameId) (partner : Bool) (bytes : List Byte) (s : State) : Res :=
  .next (match (frameOf s f).bind fun x => (copyOf x partner).map fun c => (x, c) with
  | none => { s with evd := { s.evd with lateArr := up8 s.evd.lateArr } }
  | some (x, c) =>
    match evParse bytes with
    | none => s
    | some e =>
      if e.attempt = x.attempt ∧ c.phase = .ended ∧ c.ev = none then
        judgeReady f (takeStock f partner (modCopy f partner (fun c => { c with ev := some e }) s))
      else if e.attempt = 0 ∧ x.attempt = 1 ∧ x.abortEv = none ∧ eflag e 1 = true then
        let y := if partner then { x with twin := x.twin.map fun c => { c with ev := some e } } else { x with main := { x.main with ev := some e } }
        let (r, s) := abortStored y s
        modFrame f (fun y => { y with abortEv := some r }) s
      else s)

/-- EVIDENCE_WAIT_EXPIRY (R244, R248, R251): L + Dl + 100 µs is reached without a record. A real frame that still stands in its queue has
sent none and is R188's. -/
def execEvidenceWaitExpiry (f : FrameId) (s : State) : Res :=
  .next (match frameOf s f with
  | none => s
  | some x =>
    if tbSafe s < x.deadline + 100000 || x.phase == .queued || (x.phase == .waiting && !f.tuning && inQueue x) then s
    else if x.main.ev.isNone then publishMissing x s
    else if (x.twin.bind (·.ev)).isNone && x.twin.isSome then
      judgeReady f (modFrame f (fun y => { y with twinGone := true }) (dropCopies f s))
    else s)

/-- The instant at which the wait for a copy's data ends (R251). -/
def dataBound (s : State) (n : Nat) (c : Copy) : Nat := c.endS + 100000 + 2 * maxArea (copyOuts s n c)

/-- The wait for a copy's data has ended in vain. -/
def dataLate (s : State) (n : Nat) (c : Copy) : Bool := c.ev.isSome && c.whole.isNone && decide (dataBound s n c ≤ tbSafe s)

/-- RESULT_WAIT_EXPIRY (R248, R251): the wait for a copy's data ends. The main copy's ends the frame's wait, a partner that is not there
being missing. -/
def execResultWaitExpiry (f : FrameId) (s : State) : Res :=
  .next (match frameOf s f with
  | none => s
  | some x =>
    if !(x.phase == .ended) || (earlyVerdict x).isSome then s
    else if dataLate s f.part x.main then
      let gone := x.twinGone || !(partnerDone x false)
      toJudge { x with twinGone := gone } (modFrame f (fun y => { y with twinGone := gone }) s)
    else if x.twin.any (dataLate s f.part) then judgeReady f (modFrame f (fun y => { y with twinGone := true }) s)
    else s)

/-! ### The verdict program (R253 to R257) -/

/-- What a running copy holds: registers, program counter, steps. -/
structure Vm where
  regs  : Tbl Nat
  pc    : Nat
  steps : Nat
  deriving DecidableEq, Repr

/-- A register; V0 reads 0. -/
def vReg (m : Vm) (r : Nat) : Nat := tblGet 0 m.regs r

/-- A register written; V0 is not. -/
def vSet (m : Vm) (r v : Nat) : Vm := { m with regs := if r = 0 then m.regs else tblSet 0 m.regs r (v % 2 ^ 32), pc := m.pc + 1 }

/-- The 18-bit immediate, sign-extended. -/
def vImm (w : Nat) : Int := sgn 18 (fld w 17 0)

/-- A branch. -/
def vBranch (m : Vm) (w : Nat) (on : Bool) : Vm := { m with pc := if on then fld w 7 0 else m.pc + 1 }

/-- One instruction (R254): the machine after it, or the verdict and reason that end the program. -/
def vStep (rec_ : List Byte) (sys : Nat → Nat) (m : Vm) (w : Nat) : Vm ⊕ (Nat × Nat) :=
  let m := { m with steps := m.steps + 1 }
  let op := fld w 31 26
  let vd := fld w 25 22
  let a := vReg m (fld w 21 18)
  let b := vReg m (fld w 17 14)
  let x := vReg m vd
  let y := a
  let signed (n : Nat) : Int := sgn 32 n
  if op = 0x01 then .inl (vSet m vd (unsgn 32 (vImm w)))
  else if op = 0x02 then .inl (vSet m vd (fld w 15 0 * 65536))
  else if op = 0x03 then .inl (vSet m vd (unsgn 32 (a + vImm w)))
  else if op = 0x04 then .inl (vSet m vd (a &&& fld w 17 0))
  else if op = 0x05 then .inl (vSet m vd (a / 2 ^ fld w 4 0))
  else if op = 0x06 then .inl (vSet m vd (a * 2 ^ fld w 4 0))
  else if op = 0x08 then .inl (vSet m vd (a + b))
  else if op = 0x09 then .inl (vSet m vd (a + 2 ^ 32 - b))
  else if op = 0x0A then .inl (vSet m vd (a &&& b))
  else if op = 0x0B then .inl (vSet m vd (a ||| b))
  else if op = 0x0C then .inl (vSet m vd (a ^^^ b))
  else if op = 0x0D then .inl (vSet m vd (min a b))
  else if op = 0x0E then .inl (vSet m vd (max a b))
  else if op = 0x10 then .inl (vSet m vd (rd rec_ (fld w 7 0) 1))
  else if op = 0x11 then .inl (vSet m vd (rd rec_ (fld w 7 0) 2))
  else if op = 0x12 then .inl (vSet m vd (rd rec_ (fld w 7 0) 4))
  else if op = 0x13 then .inl (vSet m vd (sys (fld w 7 0)))
  else if op = 0x18 then .inl (vBranch m w (x == y))
  else if op = 0x19 then .inl (vBranch m w (!(x == y)))
  else if op = 0x1A then .inl (vBranch m w (decide (x < y)))
  else if op = 0x1B then .inl (vBranch m w (decide (y ≤ x)))
  else if op = 0x1C then .inl (vBranch m w (decide (signed x < signed y)))
  else if op = 0x1D then .inl (vBranch m w (decide (signed y ≤ signed x)))
  else if op = 0x1E then .inl (vBranch m w true)
  else .inr (fld w 9 8, fld w 7 0)

/-- The program from a machine on, for `n` more instructions: verdict, reason, and the machine at the end (R257). -/
def vRun (prog : List Word) (rec_ : List Byte) (sys : Nat → Nat) : Nat → Vm → (Nat × Nat) × Vm
  | 0, m => ((vUnproven, 0xFF), m)
  | n + 1, m =>
    match vStep rec_ sys m ((prog.getD m.pc 0).toNat) with
    | .inl m => vRun prog rec_ sys n m
    | .inr v => (v, { m with steps := m.steps + 1 })

/-- The system values of R256. -/
def vSystem (s : State) (n g : Nat) (i : Nat) : Nat :=
  if i = 0 then nowNs s
  else if i = 1 then sealK s
  else if i = 2 then sealW s
  else if i = 3 then winCount s n g
  else if i = 4 then winFill s n g
  else if i = 5 then bit s.evd.safe
  else if i = 6 then (integOf s n g).mode
  else 0

/-- The record as the judge loads it: bytes from 0x60 on read 0 (R253). -/
def judgeBytes (r : EvRec) : List Byte := padTo 128 ((evBytes r).take 0x60)

/-! ### The published verdict (R261) -/

/-- Severity: DOUBTED, UNPROVEN, BELIEVED from most to least. -/
def severity (v : Nat) : Nat := if v = vDoubted then 2 else if v = vUnproven then 1 else 0

/-- `worse`, with the reason of the last change. -/
def worsen (on : Bool) (v reason : Nat) (x : Nat × Nat) : Nat × Nat := if on && decide (severity x.1 < severity v) then (v, reason) else x

/-- The device's own checks on top of a verdict (R261). -/
def deviceChecks (s : State) (f : Frame) (r : EvRec) (x : Nat × Nat) : Nat × Nat :=
  worsen s.evd.safe vUnproven 0xF8 <|
  worsen (!f.id.tuning && r.tune == 5) vUnproven 0xF9 <|
  worsen (eflag r 8) vUnproven 0xFA <|
  worsen (r.resultCheck == 3) vUnproven 0xFB <|
  worsen (r.resultCheck == 2) vDoubted 0xFB <|
  worsen (eflag r 9) vDoubted 0xFC x

/-- The verdict program of a region. -/
def regionProg (s : State) (n g : Nat) : List Word := ((regionRec s n g).bind (·.verdict)).getD []

/-- A judgement of a ready frame (R244, R253 to R261): verdict, reason, steps; the machine's registers stay behind. A difference between the
copies ends it (R260) after some of the program's instructions; after how many is free (log 90). -/
def judgeFrame (f : Frame) (differ : Bool) (s : State) : State :=
  let (r, s) := judgedRecord f (frameEv f) s
  let n := f.id.part
  let g := f.id.region
  let (x, m) : (Nat × Nat) × Vm :=
    if f.id.tuning then ((if r.tune = 1 then (vBelieved, 0xF2) else (vDoubted, 0xF3)), ⟨[], 0, 0⟩)
    else vRun (regionProg s n g) (judgeBytes r) (vSystem s n g) 1024 ⟨[], 0, 0⟩
  let keep (m : Vm) (s : State) : State := { s with evd := { s.evd with vregs := m.regs, vpc := m.pc, vsteps := m.steps } }
  if differ then
    let m := (vRun (regionProg s n g) (judgeBytes r) (vSystem s n g) (Config.freeNat s.free % (m.steps + 1)) ⟨[], 0, 0⟩).2
    let s := latchSafe 2 n g (keep m { drawn s with evd := { s.evd with mismatch := true } })
    publishAll f vUnproven 0xF4 0 m.steps r (frameData f) s
  else
    let s := keep m s
    let v := deviceChecks s f r x
    publishAll f v.1 v.2 0 m.steps r (frameData f) s

/-- JUDGEMENT (R258, R260, R261): the judge takes its next frame; `differ` says that the copies disagreed. -/
def execJudgement (differ : Bool) (s : State) : Res :=
  .next (match s.evd.queue with
  | [] => s
  | id :: q =>
    let s := { s with evd := { s.evd with queue := q } }
    match frameOf s id with
    | some f => judgeFrame f differ s
    | none => s)

/-- JUDGE_SELFTEST (R260): every 10 ms of TB_SAFE, while the companion has power for its judge. -/
def execJudgeSelftest (ok : Bool) (s : State) : Res :=
  .next (if ok || !(s.time.edges % 4000000 == 0) || s.boot == .off then s
  else latchSafe 3 0 0 { s with evd := { s.evd with stFail := true } })

end Sys2Proof.Machine
end

