-- ==== Sys2Proof/Machine/SnapOps.lean ====
section
/-! DEFINITION. Machine/SnapOps.lean: counter snapshots as shared operations (R479 to R483). -/

namespace Sys2Proof.Machine

/-- `f` applied to the snapshot unit. -/
def modSnap (f : Snap → Snap) (s : State) : State := { s with snap := f s.snap }

/-- A present die has a snapshot CMD not yet acknowledged. -/
def snapUnacked (s : State) : Bool :=
  [0, 1, 2, 3].any fun d => !(die s d).inReset && (die s d).cmds.any fun c => c.kind == cmdSnapshot

/-- The request ends once every unit it waits for has latched and acknowledged, or is gone (R482). -/
def snapSettle (s : State) : State :=
  if s.snap.pending.isSome && s.snap.waitFor == 0 && !snapUnacked s then
    modSnap (fun x => { x with pending := none, done := true }) s
  else s

/-- A die that became ABSENT or entered a D reset or NAP is not waited for (R482, R483). -/
def snapGone (d : Nat) (s : State) : State :=
  snapSettle (modSnap (fun x => { x with waitFor := x.waitFor - x.waitFor / 2 ^ d % 2 * 2 ^ d }) s)

/-- The companion's two ports copy their counters (R478, R480). -/
def snapPorts (s : State) : State :=
  let one (east : Bool) (s : State) : State := modPort 0 east (fun p => { p with cntShadow := p.cnt }) (creditCount 0 east s)
  modSnap (fun x => { x with
    latched := x.latched ||| 1, waitFor := x.waitFor % 16, stamp := nowNs s, era := nowEra s }) (one false (one true s))

/-- A write of SNAP_REQ (R479, R481, R482); a request whose instant has passed latches the ports at once. -/
def snapRequest (v : Nat) (s : State) : State :=
  if s.snap.pending.isSome then modSnap (fun x => { x with refusals := up8 x.refusals }) s
  else
    let at_ := extendStamp (tbSafe s) s.snap.at_.toNat (fld v 9 8)
    let ds := [0, 1, 2, 3].filter fun d => diePresent s d
    let s := modSnap (fun x => { x with
      id := fld v 7 0, reason := fld v 11 10, pending := some at_.toNat, done := false, latched := 0
      late := decide (at_ < (tbSafe s : Int)), waitFor := 16 + (ds.map (2 ^ ·)).sum }) s
    let s := ds.foldl (fun s d => sendCmd d cmdSnapshot [fld v 7 0, at_.toNat] s) s
    if at_ < (tbSafe s : Int) then snapPorts s else s

/-- The cycle counters of die `d` brought up to the latching edge (R476, R480). -/
def snapCounts (d : Nat) (s : State) : State :=
  let s := creditCount (d + 1) true (creditCount (d + 1) false s)
  let s := (List.range 64).foldl (fun s c => clusterBusyCount d c s) s
  let s := ((die s d).cores.map (·.1)).foldl (fun s i => coreBusyCount d i s) s
  ((die s d).cores.filter fun e => e.2.waitPeg.isSome).foldl (fun s e =>
    let k := (s.time.edges - e.2.waitAt) / 2
    clusterCount d (e.1 / 32) 0x10 k (modCore d e.1 (fun c => { c with waitAt := c.waitAt + 2 * k }) s)) s

/-- Die `d` copies its counters into its shadows (R480, R481, R484). -/
def snapDie (d id : Nat) (late : Bool) (s : State) : State :=
  let s := snapCounts d s
  let t := dieTime s d
  let s := modDie d (fun x => { x with
    shadow := x.live, snapArm := none, shAt := t % 2 ^ 32
    shInfo := id % 256 + 256 * bit late + 512 + 1024 * (t / 2 ^ 32 % 4) }) s
  modSnap (fun x => { x with
    latched := x.latched ||| 2 ^ (d + 1), late := x.late || late, waitFor := x.waitFor - x.waitFor / 2 ^ d % 2 * 2 ^ d }) s

end Sys2Proof.Machine
end

