-- ==== Sys2Proof/Machine/UpdOps.lean ====
section
/-! DEFINITION. Machine/UpdOps.lean: the image kinds, their slots and R443's checks (R436, R440 to R445). -/

namespace Sys2Proof.Machine

/-- Image kind `k`: 1 firmware, 2 AX microcode, 3 attic program. -/
def kindOf (s : State) (k : Nat) : Kind := tblGet {} s.upd.kinds k

/-- `f` applied to an image kind. -/
def modKind (k : Nat) (f : Kind → Kind) (s : State) : State := { s with upd := { s.upd with kinds := tblMod {} s.upd.kinds k f } }

/-- The version of the microcode that the dies run (R207). -/
def microcodeVersion (s : State) : Nat := (kindOf s 2).version

/-- The higher valid copy of a kind's anti-rollback counter; none when neither is valid (R436). -/
def counterOf (x : Kind) : Option Nat :=
  match x.ctr0, x.ctr1 with
  | some a, some b => some (max a b)
  | some a, none => some a
  | none, b => b

/-- Bytes of a kind's slot (R440). -/
def slotSize (k : Nat) : Nat := if k = 3 then 0x40000 else 0x800000

/-- The active slot's chunks, or the other slot's. -/
def slotChunks (x : Kind) (inactive : Bool) : Tbl (List Byte) := if x.active == inactive then x.slotA else x.slotB

/-- Chunks of an image with this many body bytes (R441). -/
def chunkCount (body : Nat) : Nat := 1 + ceilDiv body 65520

/-- The image with this header fits its slot (R441: one that would not is refused with E_FORMAT at its chunk 0). -/
def imageFits (k : Nat) (b : List Byte) : Bool := decide (chunkCount (rd b 0x0C 4) * 65536 ≤ slotSize k)

/-- Chunk 0 is well formed for a kind (R441, R442). -/
def headerOk (k : Nat) (b : List Byte) : Bool :=
  b.length == 29920 && b.take 4 == [0x52, 0x59, 0x49, 0x4D] && rd b 4 1 == k && rd b 5 1 == 1 && zeros b 6 2 && zeros b 0x34 4 &&
  zeros b 0x4C 4 && decide (1 ≤ rd b 0x0C 4) && imageFits k b

/-- The root key of the identity region is the one whose digest the boot ROM holds; where not, every image signature fails (R433, R436). -/
def rootTrusted : Bool := shake256 32 Config.rootKey == Config.romDigest

/-- The per-image key out of the envelope of chunk 0, opened under the device key that an AES key slot holds (R435, R442). -/
def imageKey (slot b : List Byte) : Option (List Byte) :=
  Config.gcmOpen slot (sub b 0x40 12) (b.take 0x40) (sub b 0x50 32) (sub b 0x70 16)

/-- Body chunk `i` decrypted: its last 16 bytes are its tag (R441, R442). -/
def chunkOpen (key : List Byte) (t : Tbl (List Byte)) (i : Nat) : Option (List Byte) :=
  let c := tblGet [] t i
  let n := c.length - 16
  Config.gcmOpen key (zeroBytes 8 ++ beBytes 4 i) ((tblGet [] t 0).take 0x40 ++ beBytes 4 i) (c.take n) (c.drop n)

/-- Checks 2 and 3 of R443: the plain body of an image, none where its envelope or a chunk does not open. -/
def imageBody (slot : List Byte) (t : Tbl (List Byte)) : Option (List Byte) :=
  match imageKey slot (tblGet [] t 0) with
  | none => none
  | some key =>
    let l := (List.range (chunkCount (rd (tblGet [] t 0) 0x0C 4) - 1)).map fun i => chunkOpen key t (i + 1)
    if l.all (·.isSome) then some (l.filterMap id).flatten else none

/-- R443: the status of verifying the image in a slot, the first failing check deciding; `slot` is the AES key slot. -/
def imageStatus (slot : List Byte) (k : Nat) (ctr : Option Nat) (t : Tbl (List Byte)) : Nat :=
  let b := tblGet [] t 0
  if !headerOk k b then eFormat
  else
    match imageBody slot t with
    | none => eSignature
    | some body =>
      if !(body.length == rd b 0x0C 4) || !(shake256 32 body == sub b 0x10 32) then eSignature
      else if !rootTrusted || !Config.slhVerify Config.rootKey (b.take 0x40) (sub b 128 29792) then eSignature
      else if decide (Config.romVersion.toNat < rd b 0x30 4) then eFormat
      else
        match ctr with
        | some c => if rd b 8 4 < c then eRollback else stOk
        | none => eRollback

/-! ### Slots as the boot ROM sees them (R436, R444) -/

/-- The slot, active or not, still holds the image that the part was delivered with: slot A until an image is written to it
(log 40). -/
def slotFactory (x : Kind) (inactive : Bool) : Bool := x.facA && x.active == inactive

/-- R443 for a slot of kind `k`, under the device key of the AES key slot. -/
def slotStatus (slot : List Byte) (k : Nat) (x : Kind) (inactive : Bool) : Nat :=
  if slotFactory x inactive then
    (if !rootTrusted || !(slot == Config.deviceKey) || !Config.factoryValid k then eSignature
     else match counterOf x with
      | some c => if (Config.factoryVersion k).toNat < c then eRollback else stOk
      | none => eRollback)
  else imageStatus slot k (counterOf x) (slotChunks x inactive)

/-- VERSION of a slot's image. -/
def slotVersion (k : Nat) (x : Kind) (inactive : Bool) : Nat :=
  if slotFactory x inactive then (Config.factoryVersion k).toNat else rd (tblGet [] (slotChunks x inactive) 0) 8 4

/-- BODY_DIGEST of a slot's image. -/
def slotDigest (k : Nat) (x : Kind) (inactive : Bool) : List Byte :=
  if slotFactory x inactive then (List.range 32).map fun i => Config.factoryDigest k i
  else sub (tblGet [] (slotChunks x inactive) 0) 0x10 32

/-- The counter raised to a version, both copies (R436, R450). -/
def raiseCounter (v : Nat) (x : Kind) : Kind :=
  let c := max v ((counterOf x).getD 0)
  { x with ctr0 := some c, ctr1 := some c }

/-- Step 4 of a boot: with a valid copy, both take the counter's value, raised to the active image's VERSION where that slot holds an
image (R425, R436). -/
def countersMended (k : Nat) (x : Kind) : Kind :=
  if (counterOf x).isNone then x
  else raiseCounter (if slotFactory x false || headerOk k (tblGet [] (slotChunks x false) 0) then slotVersion k x false else 0) x

/-- A slot's image runs. -/
def runSlot (k : Nat) (inactive : Bool) (x : Kind) : Kind :=
  { x with version := slotVersion k x inactive, bodyDigest := slotDigest k x inactive, bootFail := false }

/-- The active slot runs; one that fails makes the other the active one when that verifies, with REVERTED (R444). -/
def runActive (slot : List Byte) (k : Nat) (x : Kind) : Kind :=
  if slotStatus slot k x false = stOk then runSlot k false x
  else if slotStatus slot k x true = stOk then runSlot k false { x with active := !x.active, reverted := true }
  else { x with bootFail := true, version := 0, bodyDigest := [] }

/-- A trial has ended without CONFIRM (R449). -/
def trialEnds (x : Kind) : Kind := { x with trials := 0, trialPend := false, reverted := true, stage := 2 }

/-- A boot of a kind chooses its slot (R444, R449): a pending trial counts its boot and runs when its image verifies; the
failure of a second trial ends the update. `now` is TB_SAFE at the start of the boot. -/
def bootSlot (slot : List Byte) (k now : Nat) (x : Kind) : Kind :=
  if x.trialPend then
    if 2 ≤ x.trials then runActive slot k (trialEnds x)
    else if slotStatus slot k x true = stOk then { runSlot k true x with trials := x.trials + 1, stage := 5, trialAt := now }
    else if x.trials = 1 then runActive slot k (trialEnds x)
    else runActive slot k { x with trials := 1, stage := 2 }
  else runActive slot k x

/-- What of a kind survives a reset of kind P, H, W or Y: VERIFYING and VERIFIED are DOWNLOADED again, a chunk being assembled is
lost (R447, R452). -/
def kindReset (x : Kind) : Kind :=
  { x with stage := if x.stage = 3 ∨ x.stage = 4 ∨ x.stage = 5 then 2 else x.stage, partial_ := [], partSeat := none, committing := none
           verifying := none, bootFail := false, lastStatus := 0, version := 0, bodyDigest := [] }

/-- A boot of kind `k`: without a valid counter copy nothing boots (R436). A reversion is logged and ends the update (R445,
R449, R486). -/
def bootKind (k : Nat) (s : State) : State :=
  let x := kindOf s k
  if (counterOf x).isNone then modKind k (fun x => { x with bootFail := true, version := 0, bodyDigest := [] }) s
  else
    let failed := slotVersion k x true
    let s := modKind k (bootSlot s.upd.aesSlot k (tbSafe s)) s
    if x.trialPend && !(kindOf s k).trialPend then
      logError 15 k 255 failed 0 { s with upd := { s.upd with current := if s.upd.current = k then 0 else s.upd.current } }
    else s

/-- In trial: the trial slot runs (R449). -/
def inTrial (s : State) (k : Nat) : Bool := (kindOf s k).stage == 5

/-- Some kind is in trial. -/
def anyTrial (s : State) : Bool := inTrial s 1 || inTrial s 2 || inTrial s 3

end Sys2Proof.Machine
end

