-- ==== Sys2Proof/Machine/Fabric.lean ====
section
/-! DEFINITION. Machine/Fabric.lean: what happens on an AX die: slivers, pegs, cellar, region end, alarms and fences (R110 to
R133, R146, R156 to R163), and losing a die (R151, R266). -/

namespace Sys2Proof.Machine

/-! ### Slivers (R110, R114, R117) -/

/-- A sliver's signature and the one expected of it are kept with the core that ran it (R110). -/
def sliverRan (d i : Nat) (w : Work) (s : State) : Work :=
  let x := coreOf s d i
  { w with
    out := w.out - 1
    ran := w.ran ++ [⟨w.step, x.sliver - 1, i, x.sig, (Config.sigFlow w.fold x.size).foldl Config.sigStep w.seed⟩] }

/-- A core's wait ends, its ENGINE cycles counted (R476). -/
def wakeCore (d i : Nat) (s : State) : State :=
  clusterCount d (i / 32) 0x10 ((s.time.edges - (coreOf s d i).waitAt) / 2) (modCore d i (fun c => { c with waitPeg := none }) s)

/-- Cores that wait on a peg. -/
def waiters (s : State) (d peg : Nat) : List Nat := ((die s d).cores.filter fun e => e.2.waitPeg == some peg).map (·.1)

/-- Every WAIT on a peg completes. -/
def wakeAll (d peg : Nat) (s : State) : State := (waiters s d peg).foldl (fun s i => wakeCore d i s) s

/-- One sliver of a step is done: its completion barriers take an arrival, and open with the last (R114, R116). -/
def stepArrive (d n g c : Nat) (s : State) : State :=
  (stepPegs s d n g c).foldl (fun s e =>
    let a := e.2.arrivals + 1
    let s := modDie d (fun x => { x with pegs := tblPut x.pegs e.1 { e.2 with arrivals := a, opened := e.2.opened || a == e.2.expected } }) s
    if a = e.2.expected then wakeAll d e.1 s else s) s

/-- SLIVER_DONE (R110, R114, R117): the core receives its next sliver; the last one of a step completes its barrier. -/
def execSliverDone (die : Fin 4) (core : Nat) (s : State) : Res :=
  let d : Nat := die
  let k := core / 32
  .next (match coreActs s d core, workOf s d k with
  | some (f, _, c), some w =>
    if (coreOf s d core).inBatch || !(c.phase == .running) || !(w.frame == f.id) then s
    else
      let s := coreCount d core 0x4 1 (clusterBusyCount d k s)
      let w := (workOf s d k).getD w
      let s := stepArrive d f.id.part c.region k (setWork d k (sliverRan d core w s) s)
      let s := handSliver d k (core % 32) s
      match workOf s d k, regionRec s f.id.part c.region with
      | some w, some r =>
        if w.out = 0 ∧ w.next = w.total ∧ w.again.isEmpty then
          let i := (c.clusters.takeWhile fun x => !(x == k)).length
          beginSteps d k i c.clusters.length f.id c.region r (r.steps.length + 1) (w.step + 1) (clusterCount d k 0x04 1 s)
        else s
      | _, _ => s
  | _, _ => s)

/-! ### Pegs (R116 to R118) -/

/-- A peg that the layout gives the region of the core; an operation on any other is a fault (R118). -/
def pegOf (s : State) (d n g peg : Nat) : Option Peg :=
  (((die s d).pegs.find? fun e => e.1 == peg).map (·.2)).filter fun p => p.part == n && p.region == g

/-- A peg replaced, with its operation counted. -/
def pegSetTo (d peg : Nat) (p : Peg) (s : State) : State :=
  clusterCount d (peg / 64) 0x0C 1 (modDie d (fun x => { x with pegs := tblPut x.pegs peg p }) s)

/-- One waiting TAKE completes; which one is free where several wait. -/
def wakeTake (d peg : Nat) (p : Peg) (s : State) : State :=
  match waiters s d peg with
  | [] => s
  | l =>
    let i := l.getD (Config.freeNat s.free % l.length) 0
    wakeCore d i (modDie d (fun x => { x with pegs := tblPut x.pegs peg { p with count := p.count - 1 } }) (drawn s))

/-- A core waits. -/
def pegWaits (d i peg : Nat) (s : State) : State :=
  clusterCount d (peg / 64) 0x0C 1 (modCore d i (fun c => { c with waitPeg := some peg, waitAt := s.time.edges }) s)

/-- One peg operation of a core: `g` answers what it does, none for a fault. -/
def pegOp (d i peg : Nat) (g : Peg → Option (State → State)) (s : State) : State :=
  match coreActs s d i with
  | none => s
  | some (f, tw, c) =>
    match (pegOf s d f.id.part c.region peg).bind g with
    | some k => k s
    | none => pegFault d i f tw s

/-- PEG_ARRIVE (R116 to R118). -/
def execPegArrive (die : Fin 4) (core peg : Nat) (s : State) : Res :=
  let d : Nat := die
  .next (pegOp d core peg (fun p =>
    if p.kind ≠ 0 ∨ p.opened = true then none
    else
      let q := { p with arrivals := p.arrivals + 1, opened := p.arrivals + 1 == p.expected }
      some fun s => let s := pegSetTo d peg q s; if q.opened then wakeAll d peg s else s) s)

/-- PEG_WAIT (R116 to R118). -/
def execPegWait (die : Fin 4) (core peg : Nat) (s : State) : Res :=
  let d : Nat := die
  .next (pegOp d core peg (fun p =>
    if p.kind = 1 then none
    else if p.opened || p.flag then some (pegSetTo d peg p)
    else some (pegWaits d core peg)) s)

/-- PEG_POST (R116, R118). -/
def execPegPost (die : Fin 4) (core peg : Nat) (s : State) : Res :=
  let d : Nat := die
  .next (pegOp d core peg (fun p =>
    if p.kind ≠ 1 ∨ 65535 ≤ p.count then none
    else
      let q := { p with count := p.count + 1 }
      some fun s => wakeTake d peg q (pegSetTo d peg q s)) s)

/-- PEG_TAKE (R116, R118). -/
def execPegTake (die : Fin 4) (core peg : Nat) (s : State) : Res :=
  let d : Nat := die
  .next (pegOp d core peg (fun p =>
    if p.kind ≠ 1 then none
    else if 1 ≤ p.count then some (pegSetTo d peg { p with count := p.count - 1 })
    else some (pegWaits d core peg)) s)

/-- PEG_SET (R116, R118). -/
def execPegSet (die : Fin 4) (core peg : Nat) (s : State) : Res :=
  let d : Nat := die
  .next (pegOp d core peg (fun p =>
    if p.kind ≠ 2 ∨ p.flag = true then none
    else some fun s => wakeAll d peg (pegSetTo d peg { p with flag := true } s)) s)

/-! ### The cellar (R156 to R163) -/

/-- CELLAR_SCRUB (R159, R163): one 512-byte block read, its words' outcomes, and whether a pass ends. -/
def execCellarScrub (die_ : Fin 4) (block : Nat) (found : List EccOutcome) (passDone : Bool) (s : State) : Res :=
  let d : Nat := die_
  .next (if (die s d).inReset then s
  else
    let s := dieCount d 0x101C 1 s
    let s := (List.range found.length).foldl (fun s i =>
      let o := found.getD i .clean
      let a := 448 * block + 8 * i
      poisonWords d (badWords a o) (if poisonIn (die s d) a 8 = 0 then cellarSeen d o s else s)) s
    if passDone then modDie d (fun x => { x with scrubDone := true }) s else s)

/-- The windows of a range that has been written to its end: one that was opened for an upload closes (R146). -/
def closeOnce (src hi : Nat) (x : Die) : Die := { x with windows := x.windows.filter fun w => !(w.once && w.src == src && w.hi == hi) }

/-- WRITE_PACKET (R146, R158): a WRITE into an open window, or discarded with an alarm as for a peg fault of no core. A feed of the
companion's that it completes is taken (R175 to R178). -/
def execWritePacket (die_ : Fin 4) (src addr : Nat) (data : List Byte) (s : State) : Res :=
  let d : Nat := die_
  let a := 64 * addr
  let e := a + data.length
  .next (if (die s d).inReset then s
  else if (die s d).windows.any fun w => w.src == src && decide (w.lo ≤ a) && decide (e ≤ w.hi) then
    let s := modDie d (closeOnce src e) (cellarWrite d a data s)
    if src = 0 then awaitArrive d e (feedArrives d e s) else s
  else hwError d (.pegNone none) none (dieCount d 0x1018 1 s))

/-! ### Region end (R110, R118, R187, R242) -/

/-- RESULT packets of 512 bytes; ADDR tags the frame: bits [31:16] of a tag, and the number of the piece (R138). -/
def resultPackets (d : Nat) : Nat → Nat → List Byte → State → State
  | 0, _, _, s => s
  | n + 1, tag, b, s => if b.isEmpty then s else resultPackets d n (tag + 1) (b.drop 512) (inject (d + 1) 0 0 2 tag (b.take 512) s)

/-- The tag of a frame's data. How it tags the frame is not stated; DESIGN CHOICE: the last 12 bits of its sequence number, then
partition, above 16 bits of piece number (log 74). -/
def resultTag (f : FrameId) : Nat := (f.seq % 4096 * 16 + f.part % 16) * 65536

/-- Every distributor of the copy has handed out its last sliver and got it back. -/
def workDone (s : State) (id : FrameId) (c : Copy) : Bool :=
  let n := (((regionRec s id.part c.region).map (·.steps)).getD []).length
  c.clusters.all fun k => (workOf s c.die k).any fun w => w.frame == id && decide (n ≤ w.step) && w.out == 0

/-- The output tensors are ones that the region declares: as many, each with the header of its descriptor (R66, R213). -/
def outsFit (s : State) (n : Nat) (c : Copy) (outs : List Tensor) : Bool :=
  let l := regionOuts s n c.region
  l.length == outs.length && (l.zip outs).all fun e => hdrFits e.1 (readHdr (tensorBytes e.2) 0)

/-- A sliver's signature as it is compared; `hit` is an upset of those kept of one core, with the value that they have become. -/
def keptSig (hit : Option (Nat × Nat)) (r : Ran) : Nat :=
  match hit with
  | some (k, v) => if r.core = k then v else r.sig
  | none => r.sig

/-- The core of a sliver of the copy whose signature is not the expected one (R110). -/
def badSliver (s : State) (c : Copy) (hit : Option (Nat × Nat)) : Option Nat :=
  c.clusters.findSome? fun k => (workOf s c.die k).bind fun w => (w.ran.find? fun r => !(keptSig hit r == r.expect)).map (·.core)

/-- A copy ends normally: end stamp, data and record sent. -/
def copyEnds (f : Frame) (tw : Bool) (c : Copy) (outs : List Tensor) (s : State) : State :=
  let b := dataArea outs
  let s := if tw then s else stageOuts f.id c.die outs s
  let s := dropWork f.id c s
  let s := modCopy f.id tw (fun x => { x with phase := .ended, endS := dieTime s c.die, crc := crc32c b, total := b.length, sig := 1 }) s
  let s := modFrame f.id (fun x => { x with
    phase := if tw || x.phase == .fencing then x.phase else .ended, unsure := x.unsure || (die s c.die).unsure }) s
  startOne c.die (resultPackets c.die (b.length / 512 + 1) (resultTag f.id) b (sendEvidence f.id tw s))

/-- REGION_END (R110, R118, R242): signatures and pegs are checked; a signature that differs is a fault of the core that ran the sliver.
Tensors that the region does not declare end nothing. -/
def execRegionEnd (die : Fin 4) (f : FrameId) (partner : Bool) (hit : Option (Nat × Nat)) (outs : List Tensor)
    (s : State) : Res :=
  .next (match (frameOf s f).bind fun x => (copyOf x partner).map fun c => (x, c) with
  | none => s
  | some (x, c) =>
    if !(c.phase == .running) || !(c.die == die.val) || !(workDone s f c) || !(outsFit s f.part c outs) then s
    else
      match badSliver s c hit with
      | some i => hwError c.die (.signature (i / 32) (i % 32)) (some (f, partner)) s
      | none => if pegsOff s c.die f.part c.region then hwError c.die (.pegNone (pegsOffAt s c.die f.part c.region)) (some (f, partner)) s else copyEnds x partner c outs s)

/-! ### Alarms (R26, R122, R124, R266) -/

/-- ALARM_ASSERT (R26, R32, R122): a die's alarm pair goes to the alarm code, with the error behind it. A pair read as alarm with no fault
behind it strikes one frame of the die; which is free (log 72). -/
def execAlarmAssert (die_ : Fin 4) (err : FabErr) (s : State) : Res :=
  let d : Nat := die_
  let at_ (i : Nat) : Option (FrameId × Bool) := (coreCopy s d i).map fun x => (x.1.id, x.2.1)
  .next (if (die s d).inReset then s
  else
    match err with
    | .noFault =>
      let l := framesOn s d (List.range 64)
      hwError d err (l[Config.freeNat s.free % max 1 l.length]?) (drawn s)
    | .context sl => contextFault d sl s
    | .cellarUe w _ => hwError d err none (poisonWords d [w] (cellarSeen d .uncorrectable s))
    | .residue c k => hwError d err (at_ (32 * c + k)) s
    | .signature c k => hwError d err (at_ (32 * c + k)) s
    | .shelfUe c k => hwError d err (at_ (32 * c + k)) s
    | .peg c k => hwError d err (at_ (32 * c + k)) s
    | _ => hwError d err none s)

/-- The pair returns to the clear code (R26). -/
def alarmClear (d : Nat) (s : State) : State := alarmChange (modDie d fun x => { x with almT := false, almF := true }) s

/-- An error of the sequence asks for a FENCE: all but context faults (R168). -/
def wantsFence (q : FenceSeq) : Bool := q.errs.any fun e => match e with | .context _ => false | _ => true

/-- ALARM_CLEAR (R168, R124): a pair that no fence is to clear, once its cause is read. -/
def execAlarmClear (die_ : Fin 4) (s : State) : Res :=
  let d : Nat := die_
  .next (match (die s d).seq with
  | none => if alarmCode (die s d) then alarmClear d s else s
  | some q => if q.read && !wantsFence q then alarmClear d (modDie d (fun x => { x with seq := none }) s) else s)

/-- READ_CAUSE (R124 step 5): the companion reads the cause on CTRL and sends FENCE. -/
def execReadCause (die_ : Fin 4) (s : State) : Res :=
  let d : Nat := die_
  .next (match (die s d).seq with
  | none => s
  | some q =>
    if q.read || (die s d).inReset || !firmwareRuns s then s
    else
      let s := sendCmd d cmdCause [] (modDie d (fun x => { x with seq := some { q with read := true } }) s)
      let s := cmdArrives d cmdCause [] (fun s => s) s
      if wantsFence q then sendCmd d cmdFence [] s else s)

/-- Sliver plans recomputed on a cluster: one a step of every region there (R124 step 6, R476). -/
def reslices (d c : Nat) (s : State) : State :=
  match (part s (ownerAt s d c)).layout with
  | none => s
  | some l =>
    let xs := heldRegions (part s (ownerAt s d c)) l
    clusterCount d c 0x18 (((regionsOn l xs d c).map fun g => (l.regions.getD g default).steps.length).sum) s

/-- Step 7 of R124 for a frame: one DOUBTED entry, on its first error alone (R126, R264). -/
def abortEntry (id : FrameId) (s : State) : State :=
  match frameOf s id with
  | some f => if f.entered then s else enterWindow id.part id.region true (modFrame id (fun f => { f with entered := true }) s)
  | none => s

/-- The frame has a copy struck on another die whose own sequence has not come to its FENCE: what becomes of the frame is decided there
(log 73). -/
def struckElse (s : State) (d : Nat) (f : Frame) : Bool :=
  (copiesOf f).any fun e => !(e.2.die == d) && ((die s e.2.die).seq.any fun q => decide (f.id ∈ q.struck)) &&
    (e.2.aborted || (e.2.phase == .stopping && e.2.why == .error))

/-- The clusters of every struck copy of the frame still hold its region (R128). -/
def struckHold (s : State) (f : Frame) : Bool :=
  (copiesOf f).all fun x => !x.2.aborted ||
    (if x.2.place = 3 then partnerHolds s f.id.part f.id.region else mainHolds s f.id.part x.2.region)

/-- The frame as it waits for its replay: only the copies that were struck run again (R126). -/
def replayed (e : Option (Nat × EvRec)) (f : Frame) : Frame :=
  let again (c : Copy) : Copy :=
    if c.aborted then { c with phase := .idle, aborted := false, why := .error, ev := none, pieces := [], whole := none } else c
  { f with
    attempt := 1, abortEv := e, main := again f.main, twin := f.twin.map again
    phase := if f.main.aborted then .waiting else if f.main.phase = .ended then .ended else .running }

/-- A frame that is not replayed goes on to its publication: at once where the record of an aborted attempt has come (R124 step 8), else
with its evidence (R251). -/
def notReplayed (id : FrameId) (s : State) : State :=
  judgeReady id (modFrame id (fun f => { f with phase := if copyOn f.main then .running else .ended }) s)

/-- The instant D of a frame's replay test: that of the first error that struck a copy of it on its die, of two copies struck the later
(R125, R127). -/
def struckD (f : Frame) : Nat :=
  (f.struckAt.filter fun e => (copiesOf f).any fun c => c.2.aborted && c.2.die == e.1).foldl (fun m e => max m e.2) 0

/-- Step 8 of R124 for a frame: replayed from its committed state, or published DOUBTED (R125 to R128). -/
def replayOrPublish (d : Nat) (id : FrameId) (s : State) : State :=
  match frameOf s id with
  | none => s
  | some f =>
    let n := id.part
    let D := struckD f
    if !(f.phase == .fencing) || struckElse s d f then s
    else if f.attempt == 0 && (part s n).st == 2 && struckHold s f && decide (D + 300000 + (regionRt s n id.region).tmin ≤ f.deadline) then
      let come := (copiesOf f).any fun x => x.2.aborted && x.2.ev.isSome
      let (e, s) := if come then (let q := abortStored f s; (some q.1, q.2)) else (none, s)
      modFrame id (replayed e) s
    else notReplayed id s

/-- Step 9 of R124 on a cluster struck: its shelves take the constants that the new plans pin to them, and after a store-room error the
store room its own from their cellar copy (R122). -/
def restage (d : Nat) (errs : List FabErr) (c : Nat) (s : State) : State :=
  let n := ownerAt s d c
  match (part s n).layout with
  | none => s
  | some l =>
    (regionsOn l (heldRegions (part s n) l) d c).foldl (fun s g =>
      let s := if FabErr.storeUe c ∈ errs then stageStore d n g [c] s else s
      stageShelves d n g c 0 (healthyList (die s d) c) s) s

/-- A replay that is not made after all: its frame is published DOUBTED with the aborted attempt's record, or once that record has come
(R127, R128, R251). -/
def replayLost (f : Frame) (s : State) : State :=
  let ends (c : Copy) : Copy := if c.phase = .ended then c else { c with phase := .ended, aborted := true }
  match f.abortEv with
  | some (i, r) => publishAll { f with storedAt := some i } vDoubted 0xF7 0 0 r [] s
  | none => modFrame f.id (fun f => { f with attempt := 0, phase := .ended, main := ends f.main, twin := f.twin.map ends }) s

/-- The waiting replays that R128 ends. -/
def replaysLost (s : State) : State :=
  (s.frames.filter fun f => f.phase == .waiting && !(inQueue f)).foldl (fun s f =>
    if (part s f.id.part).st == 4 || reloading s f.id.part f.id.region || !(mainHolds s f.id.part f.id.region) then replayLost f s else s) s

/-- Regions whose clusters a change on a die took out of qualifying go through R128, and their waiting replays end. -/
def fenceMoves (d : Nat) (defer : Bool) (s : State) : State := replaysLost (moveRegions d defer s)

/-- FENCE at a die for the errors of its sequence (R124 steps 6 to 9, R127). -/
def fenceSeq (d : Nat) (q : FenceSeq) (s : State) : State :=
  let ids := q.struck.eraseDups
  let s := ids.foldl (fun s id => match frameOf s id with
    | some f => (copiesOf f).foldl (fun s e => if e.2.phase = .stopping ∧ e.2.die = d then copyStopped id e.1 s else s) s
    | none => s) s
  let s := ids.foldl (fun s id => abortEntry id s) s
  let rgn := (ids.head?.map (·.region)).getD 0xFFFF
  let evid := if ids.isEmpty then 0xFFFFFFFF else s.evd.head
  let s := q.units.eraseDups.foldl (fun s u => fenceUnit d u.1 u.2 rgn evid s) s
  let cs := (q.errs.filterMap errCluster).eraseDups
  let s := (q.units.map fun u => match u.1 with | .core c _ => c | .cluster c => c | .none => 0).eraseDups.foldl (fun s c => reslices d c s) s
  let s := modDie d (fun x => { x with seq := none, cores := x.cores.map fun e => (e.1, { e.2 with halted := false }) }) s
  let s := alarmClear d s
  let s := ids.foldl (fun s id => replayOrPublish d id s) s
  startOne d (fenceMoves d false (cs.foldl (fun s c => restage d q.errs c s) s))

/-- A core fenced by command takes no further slivers of the frame that its cluster runs; the sliver that it was running goes back to the
distributor, which hands it to another core, so that the frame runs to its end on its old plan (R123, R297). DEDUCED: where the command
leaves no healthy core, the frame goes on with those that it has (log 75). -/
def liveOnly (d c k : Nat) (s : State) : State :=
  match workOf s d c with
  | none => s
  | some w =>
    let l := without k w.live
    if !(decide (k ∈ w.live)) || l.isEmpty then s
    else
      let x := coreOf s d (32 * c + k)
      let w := { w with live := l }
      if !(x.frame == some w.frame) || x.sliver == 0 then setWork d c w s
      else
        let s := coreBusyCount d (32 * c + k) (clusterBusyCount d c s)
        let w := { (workOf s d c).getD w with live := l, again := w.again ++ [x.sliver - 1], out := w.out - 1 }
        let s := setWork d c w s
        let s := modCore d (32 * c + k) (fun x => { x with
          frame := none, sliver := 0, size := 0, waitPeg := none, inBatch := false, dma := [] }) s
        let t := match l.find? fun i => (coreOf s d (32 * c + i)).frame.isNone && !(coreOf s d (32 * c + i)).halted with
          | some i => handSliver d c i s
          | none => s
        (coreCopy s d (32 * c + (l.headD 0))).elim t fun e => copySettle e.1.id e.2.1 t

/-- The FENCE of a FENCE_CORE command at a die (R297). -/
def fenceCommand (d : Nat) (e : Hdr × Nat × Nat × Bool) (s : State) : State :=
  let u : FenceUnit := if e.2.2.1 = 0xFF then .cluster e.2.1 else .core e.2.1 e.2.2.1
  let was := if e.2.2.1 = 0xFF then clFenced (die s d) e.2.1 else coreFenced (die s d) e.2.1 e.2.2.1
  let s := modDie d (fun x => { x with fenceCmds := x.fenceCmds.map fun y => if y = e then (e.1, e.2.1, e.2.2.1, true) else y }) s
  let live (s : State) : State := if e.2.2.1 = 0xFF then s else liveOnly d e.2.1 e.2.2.1 s
  if was then s else fenceMoves d true (live (reslices d e.2.1 (fenceUnit d u 7 0xFFFF 0xFFFFFFFF s)))

/-- FENCE (R124, R297): a FENCE command reaches a die: that of its fence sequence, else the oldest FENCE_CORE. -/
def execFence (die_ : Fin 4) (s : State) : Res :=
  let d : Nat := die_
  let x := die s d
  .next (match x.seq.filter fun q => q.read && wantsFence q, x.fenceCmds.find? fun e => !e.2.2.2 with
  | some q, _ => cmdArrives d cmdFence [] (fenceSeq d q) s
  | none, some e => cmdArrives d cmdFence [e.2.1, e.2.2.1] (fenceCommand d e) s
  | none, none => cmdArrives d cmdFence [] (fun s => s) s)

/-- FENCE_CORE (R123, R297): sent to the die; the command completes on its acknowledgement. -/
def execFenceCore (h : Hdr) (die cluster core : Nat) (s : State) : Res :=
  command h (fun s =>
    let own := ownerAt s die cluster
    let bad := decide (3 < die) || decide (63 < cluster) || (decide (31 < core) && !(core == 0xFF))
    let st := lowest [(h.seat == .n, eRights), (bad, eFormat),
      (!bad && (h.seat == .a || h.seat == .b) && !(ownerNo s own == seatNo h.seat), eRights),
      (!bad && !diePresent s die, eAbsent)]
    if st = stOk then
      sendCmd die cmdFence [cluster, core] (modDie die (fun x => { x with fenceCmds := x.fenceCmds ++ [(h, cluster, core, false)] }) s)
    else complete h st s) s

/-! ### Losing a die (R151, R266) -/

/-- A partner's copy on a die that is lost goes missing, but for what of it has come (R151, R248). -/
def lostTwin (d : Nat) (id : FrameId) (s : State) : State :=
  match (frameOf s id).bind (·.twin) with
  | some c =>
    if !(c.die == d) || copyReady c then s
    else modFrame id (fun f => { f with twin := if c.ev.isSome then f.twin else none, twinGone := true }) s
  | none => s

/-- A frame in flight on a die that is lost is published at once or judged with what has come (R151). -/
def lostFrame (d : Nat) (id : FrameId) (s : State) : State :=
  let s := lostTwin d id s
  match frameOf s id with
  | none => s
  | some f =>
    if f.phase == .waiting || f.phase == .queued then s
    else if !(f.main.die == d) then judgeReady id s
    else if f.main.ev.isNone then publishMissing f s
    else
      match earlyVerdict f with
      | some v => publishNow f v.1 v.2 (frameEv f) [] s
      | none =>
        let gone := f.twinGone || !(partnerDone f false)
        toJudge { f with twinGone := gone } (modFrame id (fun f => { f with twinGone := gone }) s)

/-- The die's hardware after its power or reset is gone; what the companion remembers of it stays (R130, R459). -/
def dieGone (x : Die) : Die where
  st := 0
  inReset := true
  fenceRt := x.fenceRt
  clFenceRt := x.clFenceRt
  srSeen := x.srSeen
  last := x.last
  linkView := 31
  oldCores := if x.hello then x.fenceSt else x.oldCores
  oldClusters := if x.hello then x.clFenceSt else x.oldClusters

/-- Both links of a die go DOWN because it is held in reset (R141, R162). -/
def dieLinksDown (d : Nat) (s : State) : State := linkGoesDown (d + 1) 2 (linkGoesDown d 2 s)

/-- The command packets that wait for a die's answer end: FENCE_CORE with E_ABSENT. -/
def endFenceCmds (d : Nat) (s : State) : State := (die s d).fenceCmds.foldl (fun s e => complete e.1 eAbsent s) s

/-- Uploaded constants are lost with a die's cellar (R160, R469). -/
def uploadsLost (d : Nat) (s : State) : State :=
  { s with seats := { s.seats with uploads :=
      (s.seats.uploads.map fun u => { u with dies := u.dies - u.dies / 2 ^ d % 2 * 2 ^ d }).filter fun u => !(u.dies == 0) } }

/-- A die is held in reset, its alarm pair no longer heard. -/
def holdInReset (d : Nat) (s : State) : State :=
  let s := awaitGone d (endFenceCmds d s)
  uploadsLost d (snapGone d (dieLinksDown d (alarmChange (modDie d dieGone) s)))

/-- A DIE_RESET of a die that is lost before it ends completes with E_ABSENT (R460). -/
def dResetLost (d : Nat) (s : State) : State :=
  match (die s d).dPending with
  | some h => complete h eAbsent (modDie d (fun x => { x with dPending := none }) s)
  | none => s

/-- The companion declares a die ABSENT (R151, R266); `cause` as in the error log. -/
def dieAbsent (d cause : Nat) (s : State) : State :=
  let s := holdInReset d (dResetLost d (logError 5 d 255 cause 0 s))
  let s := modDie d (fun x => { x with st := 6 }) s
  let s := { s with ring := { s.ring with present := s.ring.present - s.ring.present / 2 ^ d % 2 * 2 ^ d } }
  let s := (s.frames.map (·.id)).foldl (fun s id => lostFrame d id s) s
  okaySettle (fenceMoves d false s)

/-- ALARM_HOLD_EXPIRY (R266): 1 ms after a pair rose with no cause read, or after its fence, the die is ABSENT. -/
def execAlarmHoldExpiry (die_ : Fin 4) (s : State) : Res :=
  let d : Nat := die_
  let x := die s d
  .next (if alarmCode x && alarmHeard x && decide (x.almAt + 400000 ≤ s.time.edges) && !(x.seq.any fun q => q.read) then dieAbsent d 4 s else s)

/-- The companion has reached the die in neither direction for 1 ms: both ways to it have been broken so long, or a CMD has gone
unacknowledged and nothing sent after it has been acknowledged (R150, R151; log 9). -/
def unreached (s : State) (d : Nat) : Bool :=
  let x := die s d
  let e := s.time.edges
  x.cut.any (fun t => decide (t + 400000 ≤ e)) || x.cmds.any fun c => decide (c.first + 400000 ≤ e) && decide (x.reached ≤ c.first)

/-- DIE_UNREACHABLE (R151). -/
def execDieUnreachable (die_ : Fin 4) (s : State) : Res :=
  let d : Nat := die_
  .next (if (die s d).inReset || (die s d).st == 6 || (die s d).st == 7 || !(unreached s d) then s else dieAbsent d 2 s)

/-! ### Commands and code that reach a die -/

/-- LAUNCH_CMD (R29, R395): a launch, or its new instant, reaches a die. -/
def execLaunchCmd (die_ : Fin 4) (f : FrameId) (instant : Nat) (s : State) : Res :=
  let d : Nat := die_
  .next (cmdArrives d cmdLaunch (launchArgs f instant)
    (modDie d fun x => { x with launches := (x.launches.filter fun e => !(e.1 == f)) ++ [(f, instant)] }) s)

/-- The links of a die train, where both ends are released; every node then learns the links' states (R141, R148, R425 step 7). -/
def linksTrain (d : Nat) (s : State) : State :=
  let free (k : Nat) : Bool := (k == 0 || !(die s (k - 1)).inReset) && ((k + 1) % 5 == 0 || !(die s ((k + 1) % 5 - 1)).inReset)
  let up := s.ring.up
  let s := [d, d + 1].foldl (fun s k => if free k then linkComesUp k s else s) s
  if s.ring.up = up then s
  else icuEvent 40 (broadcast 12 [BitVec.ofNat 8 s.ring.up] s)

/-- Code as CODE packets of at most 512 bytes, their number as ADDR (R136, R138). -/
def codePackets (d : Nat) : Nat → Nat → List Byte → State → State
  | 0, _, _, s => s
  | k + 1, i, b, s => if b.isEmpty then s else codePackets d k (i + 1) (b.drop 512) (inject 0 (d + 1) 0 3 i (b.take 512) s)

/-- Code goes to a die. -/
def sendCode (d : Nat) (b : List Byte) (s : State) : State := codePackets d (b.length / 512 + 1) 0 b s

/-- A die has its microcode: its self-test starts at once in a D reset, else 20 ms + 50 ms for each lower die after X or now, whichever is
later; it takes at most 950 ms, how long being free (R425 step 8, R459, R465; log 79). -/
def selfTestBegins (d : Nat) (s : State) : State :=
  let x := die s d
  let t := if x.dReset.isSome then s.time.edges else max s.time.edges (x.released + 8000000 + 20000000 * d)
  drawn (modDie d (fun x => { x with
    microcode := true, st := if x.st = 0 then 1 else x.st, testAt := t, trainAt := t + Config.freeNat s.free % 380000001 }) s)

/-- CODE_PACKET (R138, R228, R425 step 7): the microcode, on which the die begins its self-test, or a program. -/
def execCodePacket (die_ : Fin 4) (kind : CodeKind) (code : List Byte) (s : State) : Res :=
  let d : Nat := die_
  .next (if (die s d).inReset then s
  else
    match kind with
    | .microcode => if (kindOf s 2).bootFail || (die s d).hello || (die s d).microcode then s else selfTestBegins d (sendCode d code (linksTrain d s))
    | .program p r i => modDie d (fun x => { x with programs := withElem (p, r, i) x.programs }) s)

/-- REGION_RELOAD_DONE (R109, R128, R192): the region is on its new clusters, whose store rooms hold its constants; a TUNED region opens its
start slot. -/
def execRegionReloadDone (part_ : Fin 16) (region : Nat) (partner : Bool) (s : State) : Res :=
  let n : Nat := part_
  .next (if partner then
    if (regionRt s n region).pReload then
      stageOn n region 3 (regionRt s n region).pClusters (modRegion n region (fun x => { x with pReload := false }) s)
    else s
  else if !reloading s n region then s
  else
    let s := stageOn n region (regionRt s n region).chosen (regionRt s n region).clusters (modRegion n region (fun x => { x with reload := none }) s)
    let s := { s with frames := s.frames.map fun f =>
      if f.id.part = n ∧ f.id.region = region ∧ f.id.tuning ∧ f.phase = .waiting then { f with main := mainCopy s n region } else f }
    if (((regionRec s n region).bind (·.tuning)).isSome) && (part s n).st == 2 then openSlot n region (tbSafe s) true false s else s)

end Sys2Proof.Machine
end

