-- ==== Sys2Proof/Machine/Load.lean ====
section
/-! DEFINITION. Machine/Load.lean: loading, unloading, starting and stopping partitions, stored layouts, uploaded constants and
result rings (R222, R227 to R238, R289, R295, R296, R387, R429, R430). -/

namespace Sys2Proof.Machine

/-! ### What the device chooses in the cellar (R169, R217, R228) -/

/-- The data address of a stream's space on a die. -/
def streamAt (s : State) (n : Nat) (l : Layout) (d i : Nat) : Nat := (part s n).cellBase.getD d 0 + streamOffset s n l d i

/-- The descriptor that a STREAM record gives, with empty ring and SCAN state 0 (R167, R209). The rows of a bound EVT input carry the scale
word 0x0100 (R184). -/
def freshCtx (s : State) (n : Nat) (l : Layout) (d i : Nat) : Ctx :=
  let r := l.streams.getD i default
  let at_ := streamAt s n l d i
  let state := at_ + roundUp (ringBytes r) 64 + roundUp (indexBytes r) 64
  { kind := r.kind, part := n, stream := i, fmt := r.fmt, flags := r.sflags % 8, channels := r.channels
    source := if captureFed r || r.kind == 3 then r.source else 0xFFFF
    ringBase := at_ / 64, ringLength := r.ringLength, stateBase := if r.stateLength = 0 then 0 else state / 64
    stateLength := r.stateLength, scale := if r.evtBind ≤ 7 then 0x0100 else r.scale, blockSamples := r.blockSamples
    nextSeq := if captureFed r then (capPort s ((maskPorts r.source).headD 0)).nextSeq else 0 }

/-- The 64 bytes of a descriptor CMD; the die forms the DCRC (R167, R168). -/
def descBytes (c : Ctx) : List Byte := ctxBody c ++ zeroBytes 4

/-- The descriptors of a partition go to a die as CMDs, from its STREAM records (R146, R228 step 4, R459 step 4). -/
def sendDescriptors (n d : Nat) (s : State) : State :=
  match heldLayout (part s n) with
  | none => s
  | some l => (List.range l.streams.length).foldl (fun s i =>
      match slotOn s n i d with
      | some c => sendCmd d cmdDescriptor (descArgs c (descBytes (freshCtx s n l d i))) s
      | none => s) s

/-- A descriptor of the partition has not been acknowledged by a die that is there. -/
def descriptorsOut (s : State) (n d : Nat) : Bool :=
  diePresent s d && (die s d).cmds.any fun c =>
    c.kind == cmdDescriptor && (part s n).slots.any fun t => decide ((d, c.args.headD 0) ∈ t.2)

/-- The windows that stand for as long as the partition is loaded (R146). -/
def partWindows (s : State) (n d : Nat) (l : Layout) : List Window :=
  (List.range l.streams.length).flatMap fun i =>
    let r := l.streams.getD i default
    match slotOn s n i d with
    | none => []
    | some _ =>
      let at_ := streamAt s n l d i
      let ring := roundUp (ringBytes r) 64
      if r.kind = 1 then [⟨0, at_, at_ + ring + roundUp (indexBytes r) 64, n, false⟩]
      else if r.kind = 2 then [⟨0, at_, at_ + ring, n, false⟩]
      else
        let lo := at_ + ring + roundUp r.stateLength 64
        ((List.range l.regions.length).filter fun g => (l.regions.getD g default).outputs.any fun o => o.derived == i).flatMap fun g =>
          ((regionDies (l.regions.getD g default) (regionRt s n g)).eraseDups.filter fun e => !(e == d)).map fun e =>
            ⟨e + 1, lo, lo + roundUp (stagingBytes l i) 64, n, false⟩

/-- The constants of a partition on a die: index, address, contents. -/
def partConsts (s : State) (n d : Nat) (l : Layout) : List (Nat × Nat × List (Option Byte)) := constPlaces s n d l (heldRegions (part s n) l)

/-- The windows of the constant areas, open during step 4 of R228 (R146). -/
def constWindows (s : State) (n d : Nat) (l : Layout) : List Window :=
  (partConsts s n d l).map fun c => ⟨0, c.2.1, c.2.1 + roundUp c.2.2.length 64, n, false⟩

/-- Step 4 of R228 for a die: windows, constants and programs on BULK, descriptors on CTRL (R138, R146). -/
def sendLoad (n d : Nat) (l : Layout) (s : State) : State :=
  let w := constWindows s n d l
  let s := modDie d (fun x => { x with windows := x.windows ++ w }) s
  let s := (partConsts s n d l).foldl (fun s c => writeCells 0 (d + 1) c.2.1 c.2.2 s) s
  let s := (List.range l.regions.length).foldl (fun s g =>
    let r := l.regions.getD g default
    if d ∈ regionDies r (regionRt s n g) then r.progs.foldl (fun s p => sendCode d p.code s) s else s) s
  sendDescriptors n d s

/-- A D reset has ended well once the die has acknowledged every descriptor: its DIE_RESET completes (R459 step 4). -/
def dResetSettle (d : Nat) (s : State) : State :=
  let x := die s d
  if x.dReset.isSome && x.hello && x.st == 4 && !(x.cmds.any fun c => c.kind == cmdDescriptor) then
    let s := modDie d (fun x => { x with dReset := none, dPending := none }) s
    match x.dPending with
    | some h => complete h stOk s
    | none => s
  else s

/-- Step 4 is done on a die: its constants stand in its cellar, its descriptors are acknowledged. -/
def loadStands (s : State) (n d : Nat) (l : Layout) : Bool :=
  !(diePresent s d) || (!(descriptorsOut s n d) && (partConsts s n d l).all fun c =>
    let b := cellarBytes s d c.2.1 c.2.2.length
    overCells c.2.2 b == b)

/-! ### Ports of the capture block (R174, R198, R209) -/

/-- The ports of a capture-fed stream configured: channels spread evenly in ascending order (log 33). -/
def configurePorts (r : StreamRec) (s : State) : State :=
  let ps := maskPorts r.source
  let k := max 1 ps.length
  (List.range ps.length).foldl (fun s j =>
    modCap (ps.getD j 0) (fun x => { x with
      enable := true, master := r.portMode == 1, running := true, rate := r.rate, blockQ := r.blockSamples / 4 - 1, held := none
      lastSlot := r.channels / k + bit (decide (j < r.channels % k)) - 1 }) s) s

/-- The ports of a layout's streams stop capturing. -/
def freePorts (l : Layout) (s : State) : State :=
  l.streams.foldl (fun s r =>
    if captureFed r then (maskPorts r.source).foldl (fun s p =>
      modCap p (fun x => { x with enable := false, master := false, running := false, rate := 0, blockQ := 0, lastSlot := 0, held := none }) s) s
    else s) s

/-! ### Loading (R227 to R229) -/

/-- A partition becomes EMPTY; its counters and LAY_LAST stay (R200, R239, R271). -/
def emptied (p : Part) : Part :=
  { p with st := 0, seat := 0, layout := none, loading := none, unloading := none, regions := [], plans := [], slots := []
           feeds := [], stages := [], cellBase := [], ring := none, digest := [], autowait := false }

/-- LAY_LAST of a partition (R225, R239). -/
def layLast (n status idx : Nat) (s : State) : State :=
  if status = eRights ∨ 15 < n then s else modPart n (fun p => { p with lastStatus := status, lastRecord := idx }) s

/-- A load or an unload of the seat is in progress (R227). -/
def seatLoading (s : State) (seat : Nat) : Bool :=
  s.parts.any fun e => (e.2.loading.map (·.seat)) == some seat || (e.2.unloading.map fun h => seatNo h.seat) == some seat

/-- Context slots and cellar that a layout asks for on a die that is not there are asked for nothing (R208). -/
def askedFor (s : State) (y : Layout) : Layout :=
  let only (l : List Nat) : List Nat := (List.range 4).map fun d => if diePresent s d then l.getD d 0 else 0
  { y with contexts := only y.contexts, cellar := only y.cellar }

/-- What refuses a stream for partition `n` at steps 1 and 2 of R228, with the layout and its admission: `k` is the number of the seat that
presents it, `seat` the one whose constants it may name. -/
def loadErrs (s : State) (seat : Seat) (k n : Nat) (b : List Byte) : Layout × List (RegionRt × Nat) × Errs :=
  let (y0, l, e0) := streamChecks b
  let y := askedFor s y0
  let xs := admitRegions s y
  let a := admitErrs s seat n (microcodeVersion s) y l xs
  let named := (l.getD 1 default).typ == 2 && !(hollow (l.getD 1 default))
  (y, xs, err (named && !(y.seat == k)) eRights 1 ++ err (named && !(y.part == n)) eFormat 1 ++ e0 ++
    a)

/-- Step 3 of R228: the partition is LOADING, everything it needs is reserved; then step 4. -/
def beginLoad (n : Nat) (seat : Nat) (y : Layout) (xs : List (RegionRt × Nat)) (b : List Byte) (h : Option Hdr) (s : State) : State :=
  let s := modPart n (fun p => { p with
    st := 5, seat := seat, autoloaded := h.isNone, loading := some ⟨y, shake256 32 b, h, seat⟩ }) s
  let s := reserve n y (xs.map (·.1)) s
  (List.range 4).foldl (fun s d => if diePresent s d then sendLoad n d y s else s) s

/-- The last load of a partition was a seat's (R239). -/
def seatLast (n : Nat) (s : State) : State := if 15 < n then s else modPart n (fun p => { p with autoloaded := false }) s

/-- LOAD (R227 to R229). -/
def execLoad (h : Hdr) (stream : List Byte) (s : State) : Res :=
  command h (fun s =>
    let n := h.part
    let (y, xs, e) := loadErrs s h.seat (seatNo h.seat) n stream
    let pre : Errs := (partChecks s h true ++ [onlyAB h]).filterMap fun x => if x.1 then some (x.2, noRec) else none
    let (st, idx) := errStatus (pre ++ err (decide (n ≤ 15) && !((part s n).st == 0)) eState noRec ++
      err (seatLoading s (seatNo h.seat)) eBusy noRec ++ e)
    if st = stOk then beginLoad n (seatNo h.seat) y xs stream (some h) s
    else
      let own := (part s n).st == 0 || (part s n).seat == seatNo h.seat
      completeWith h st idx 0 0 [] (if own && !(st == eRights) then seatLast n (layLast n st idx s) else s)) s

/-- A load ends refused: what it reserved is released, the partition stays EMPTY (R229). -/
def loadRefused (n status idx : Nat) (s : State) : State :=
  let h := (part s n).loading.bind (·.hdr)
  let s := modPart n emptied (unreserve n s)
  let s := layLast n status idx s
  match h with
  | some h => completeWith h status idx 0 0 [] s
  | none => s

/-- A load is abandoned with no completion (R229, R301). -/
def loadAbandoned (n : Nat) (s : State) : State := modPart n emptied (unreserve n s)

/-- Step 5 of R228: a region whose clusters no longer qualify takes its next usable placement (R229). -/
def resettle (n g : Nat) (s : State) : Option State :=
  let s := if partnerHolds s n g then s else modRegion n g (fun x => { x with pClusters := (partnerTarget s n g).getD [] }) s
  if mainHolds s n g then some s
  else
    (moveTarget s n g).map fun t =>
      modRegion n g (fun _ => movedTo s n g t.1 t.2) s

/-- All regions settled, or none where one fits nowhere. -/
def resettleAll (n : Nat) : Nat → State → Option State
  | 0, s => some s
  | k + 1, s => (resettleAll n k s).bind (resettle n k)

/-- What the companion keeps of a partition's feeds begins anew (R175, R177, R178). -/
def freshFeeds (s : State) (n : Nat) (l : Layout) : Tbl Feed :=
  ((List.range l.streams.length).map fun i => (i, ({ seq := (freshCtx s n l 0 i).nextSeq } : Feed))).filter fun e => !(e.2 == {})

/-- The store rooms of a region's clusters take their constants (R109). -/
def stageRegion (n g : Nat) (s : State) : State :=
  stageOn n g 3 (regionRt s n g).pClusters (stageOn n g (regionRt s n g).chosen (regionRt s n g).clusters s)

/-- The load ends with OK: ports, windows, store rooms; counters at 0; the digest is published (R109, R146, R200, R228, R237, R271). -/
def loadEnds (n : Nat) (l : Layout) (g : Loading) (s : State) : State :=
  let s := l.streams.foldl (fun s r => if captureFed r then configurePorts r s else s) s
  let s := (List.range 4).foldl (fun s d =>
    if !diePresent s d then s
    else
      let w := partWindows s n d l
      modDie d (fun x => { x with windows := x.windows.filter (fun v => !(v.part == n)) ++ w }) s) s
  let s := (List.range l.regions.length).foldl (fun s g =>
    let t := (l.regions.getD g default).tuning
    stageRegion n g (modRegion n g (fun x => { x with
      tune := 3, passEnd := none, slotNo := 0, extra := false, window := [], nextSlot := (t.map fun t => slotAfter t (tbSafe s)).getD 0 }) s)) s
  let s := { s with sio := { s.sio with slots := s.sio.slots.map fun e => if e.2.part = n then (e.1, { e.2 with rec_ := none }) else e } }
  let fs := freshFeeds s n l
  let s := modPart n (fun p => { p with
    loading := none, digest := g.digest, lastStatus := stOk, lastRecord := noRec, ring := none, stopping := [], feeds := fs, stages := []
    qfull := 0, other := 0, displaced := 0, drops := 0, delayed := 0, skipped := 0, short := 0, stale := 0
    believed := 0, doubted := 0, unproven := 0, late := 0, escalated := false }) s
  let s := setPartState n 1 s
  match g.hdr with
  | some h => completeWith h stOk noRec 0 0 [] s
  | none => s

/-- Dies that a load uses: those of its replicas and of the placements it counts as usable. -/
def loadDies (s : State) (n : Nat) (l : Layout) : List Nat :=
  (part s n).slots.flatMap (fun t => t.2.map (·.1)) ++
  (List.range l.regions.length).flatMap fun g =>
    (regionDies (l.regions.getD g default) (regionRt s n g)).filter fun d => !((l.regions.getD g default).integ.mode == 3 && (l.regions.getD g default).integ.pDie == d)

/-- The records of a region group before its first program, and all of them (R206). -/
def groupCounts (r : RegionRec) : Nat × Nat :=
  (1 + r.places.length, 2 + r.places.length + r.progs.length + r.consts.length + bit r.verdict.isSome + bit r.tuning.isSome)

/-- The record index of program `k` of region `g` (R206, R225). -/
def progIdx (l : Layout) (g k : Nat) : Nat :=
  2 + l.streams.length + ((l.regions.take g).map fun r => (groupCounts r).2).sum + (groupCounts (l.regions.getD g default)).1 + k

/-- The programs whose code holds an operator that contract level 1 does not allow: the die that runs them refuses them at load (R50, R51,
R61, R74, R80, R81, R85, R86, R90, R215). -/
def badProgs (l : Layout) : List Nat :=
  (List.range l.regions.length).flatMap fun g =>
    let r := l.regions.getD g default
    (List.range r.progs.length).filterMap fun k =>
      if (Config.codeOps (r.progs.getD k default).code).all (opLegal fun i => l.streams[i]?) then none else some (progIdx l g k)

/-- Steps 4 and 5 of R228 and their outcomes (R229): a die's refusal of code, `badCode` being one for what the code holds beside operators,
a die gone, no placement left, or OK. -/
def loadFinish (n : Nat) (badCode : Option Nat) (s : State) : State :=
  match (part s n).loading with
  | none => s
  | some g =>
    let l := g.layout
    let bad := badCode.toList ++ badProgs l
    if !bad.isEmpty then loadRefused n eFormat (bad.foldl min noRec) s
    else if (loadDies s n l).any fun d => !diePresent s d then loadRefused n eAbsent noRec s
    else if !([0, 1, 2, 3].all fun d => loadStands s n d l) then s
    else
      match resettleAll n l.regions.length (modPart n (fun p => { p with layout := some l }) s) with
      | none => loadRefused n eOvercommit noRec s
      | some s => loadEnds n l g s

/-! ### Starting and stopping (R181, R192, R222, R296, R387) -/

/-- Every base of the partition's plans is SET (R387) and every base with WAIT_LOCK is within its bound (R222). -/
def basesReady (s : State) (n : Nat) : Bool :=
  match (part s n).layout with
  | none => false
  | some l => (l.plans.all fun p => baseSet s p.base) &&
      l.binds.all fun b => !b.waitLock || lockedWithin (baseOf s b.base) b.lockBound

/-- The first launch of a plan: the earliest instant of its grid at least 1 ms from now on its base (R181). -/
def firstLaunch (s : State) (p : PlanRec) : Nat :=
  let t := longOf s p.base + 1000000
  let P := max 1 p.period
  t + (p.phase + P - t % P) % P

/-- The partition becomes RUNNING: plans at launch 0, its watchdog unit, the start slots of its TUNED regions (R192, R296,
R356). -/
def startPart (n : Nat) (s : State) : State :=
  match (part s n).layout with
  | none => s
  | some l =>
    let ps : Tbl PlanRt := (List.range l.plans.length).map fun i => (i, { l0 := firstLaunch s (l.plans.getD i default) })
    let s := modPart n (fun p => { p with plans := ps, runs := p.runs + 1, autowait := false }) s
    let s := wdgPartStart n (setPartState n 2 s)
    (List.range l.regions.length).foldl (fun s g =>
      if (l.regions.getD g default).tuning.isSome then openSlot n g (tbSafe s) true false s else s) s

/-- INFO2 of START: launch 0 of the first plan (R296). -/
def startInfo (s : State) (n : Nat) : Nat := (tblGet {} (part s n).plans 0).l0 % 2 ^ 64

/-- START (R296). -/
def execStart (h : Hdr) (s : State) : Res :=
  command h (fun s =>
    let p := part s h.part
    let st := lowest (partChecks s h false ++ [onlyAB h, (p.st == 4 || p.unloading.isSome, eState),
      ((p.st == 1 || p.st == 3) && (p.ring.isNone || !basesReady s h.part), eState)])
    if st = stOk then
      let s := if p.st = 2 then s else startPart h.part s
      completeWith h stOk 0 0 (startInfo s h.part) [] s
    else complete h st s) s

/-- A frame that waits when its partition stops, and a replay that has not ended: a cancelled replay is published DOUBTED, a real frame
discarded, a tuning frame's slot skipped (R127, R178, R191, R296). -/
def stopFrame (f : Frame) (s : State) : State :=
  let open_ := (f.phase == .waiting || f.phase == .running || f.phase == .ended) && (copiesOf f).any fun e => !(e.2.phase == .ended)
  if f.attempt ≠ 0 ∧ open_ = true then replayLost f (dropCopies f.id s)
  else if !(f.phase == .waiting) then s
  else if f.id.tuning then dropFrame f.id (modPart f.id.part (fun p => { p with skipped := up16 p.skipped }) s)
  else dropFrame f.id (freeRows f s)

/-- No further launch, waiting frames out of the queues (R296, R300). -/
def quietPart (n : Nat) (s : State) : State :=
  let s := modPart n (fun p => { p with plans := [] }) (wdgPartStop n s)
  let s := eachDie (fun d s => modDie d (fun x => { x with launches := x.launches.filter fun e => !(e.1.part == n) }) s) s
  (s.frames.filter fun f => f.id.part == n).foldl (fun s f => stopFrame f s) s

/-- A RUNNING partition becomes STOPPED. -/
def stopPart (n : Nat) (s : State) : State := if (part s n).st = 2 then quietPart n (setPartState n 3 s) else s

/-- Frames of the partition that were started before its last START, or all of them while it does not run. -/
def framesLeft (s : State) (n : Nat) : Bool :=
  s.frames.any fun f => f.id.part == n && !((part s n).st == 2 && f.id.run == (part s n).runs)

/-- STOP (R296): completed when the last frame already started has been published. -/
def execStop (h : Hdr) (s : State) : Res :=
  command h (fun s =>
    let st := lowest (partChecks s h false ++ [(h.seat == .n, eRights)])
    if st = stOk then
      let s := stopPart h.part s
      if framesLeft s h.part then modPart h.part (fun p => { p with stopping := p.stopping ++ [h] }) s else complete h stOk s
    else complete h st s) s

/-- The last started frame of a stopped partition has been published: its STOPs complete (R296). -/
def execStopComplete (part_ : Fin 16) (s : State) : Res :=
  let n : Nat := part_
  .next (if framesLeft s n then s
  else
    let l := (part s n).stopping
    l.foldl (fun s h => complete h stOk s) (modPart n (fun p => { p with stopping := [] }) s))

/-- AUTOSTART (R222, R387): a stored partition that waits for its bases starts once they qualify. -/
def execAutostart (part_ : Fin 16) (s : State) : Res :=
  let n : Nat := part_
  .next (if (part s n).autowait && (part s n).st == 1 && s.boot == .up && basesReady s n then startPart n s else s)

/-! ### Unloading (R236) -/

/-- UNLOAD: accepted when LOADED, STOPPED or FENCED; waiting frames leave, replays are cancelled (R127, R236). DEDUCED: the seat's load or
unload in progress of R227 holds for an UNLOAD as for a LOAD (R229; log 93). -/
def execUnload (h : Hdr) (s : State) : Res :=
  command h (fun s =>
    let p := part s h.part
    let other := (h.seat == .a || h.seat == .b) && !(p.st == 0) && !(p.seat == seatNo h.seat) && decide (h.part ≤ 15)
    let st := lowest [(decide (15 < h.part), eFormat), (other, eRights), onlyAB h,
      (decide (h.part ≤ 15) && (p.st == 0 || p.st == 2), eState), (p.st == 5 || seatLoading s (seatNo h.seat), eBusy)]
    if st = stOk then quietPart h.part (modPart h.part (fun p => { p with unloading := some h }) s)
    else completeWith h st noRec 0 0 [] (if other || !((onlyAB h).1 == false) then s else layLast h.part st noRec s)) s

/-- UNLOAD_COMPLETE (R236): every resource is released, the cellar ranges are zero; frames still running end first (R127). -/
def execUnloadComplete (part_ : Fin 16) (s : State) : Res :=
  let n : Nat := part_
  .next (match (part s n).unloading with
  | none => s
  | some h =>
    if !firmwareRuns s || (s.frames.any fun f => f.id.part == n) then s
    else
      let l := (part s n).layout
      let s := setPartState n 0 s
      let s := (l.map fun l => freePorts l s).getD s
      let s := modPart n emptied (unreserve n s)
      completeWith h stOk noRec 0 0 [] (layLast n stOk noRec (awaitUnloaded n s)))

/-! ### Start-up's loads and SERVICE (R425 steps 13 and 14, R428 to R431) -/

/-- SERVICE or DEGRADED: the BARs serve, WDG0 takes its window and keeps its count (R350, R431), AUTOSTART partitions start or wait for their
bases. -/
def enterService (s : State) : State :=
  let s := { s with boot := .up, seats := { s.seats with served := true } }
  let s := modWdg 0 (fun u => { u with opn := 0, close := 1000000 }) s
  (List.range 16).foldl (fun s n =>
    let p := part s n
    if p.autoloaded && p.st == 1 && (p.layout.map (·.autostart)).getD false then
      if basesReady s n then startPart n s else modPart n (fun p => { p with autowait := true }) s
    else s) s

/-- The stored layouts from a list are loaded one at a time; a refused one leaves its partition EMPTY (R238, R429). -/
def loadStored : List Stored → State → State
  | [], s => enterService s
  | x :: r, s =>
    let seat := (seatOfNo x.seat).getD .a
    let (y, xs, e) := loadErrs s seat x.seat x.part x.stream
    let (st, idx) := errStatus e
    if st = stOk then beginLoad x.part x.seat y xs x.stream none s
    else loadStored r (modPart x.part (fun p => { p with lastStatus := st, lastRecord := idx, autoloaded := true }) s)

/-- Stored layouts of partitions from `k` on, in ascending order. -/
def storedFrom (s : State) (k : Nat) : List Stored :=
  (List.range 16).filterMap fun n => if k ≤ n then s.seats.stored.find? fun x => x.part == n else none

/-- LOAD_COMPLETE (R228, R229, R429): a load ends; at start-up the next stored layout follows. -/
def execLoadComplete (part_ : Fin 16) (badCode : Option Nat) (s : State) : Res :=
  let n : Nat := part_
  .next (match (part s n).loading with
  | none => s
  | some g =>
    if !firmwareRuns s then s else
    let s := loadFinish n badCode s
    if g.hdr.isNone && !(s.boot == .up) && (part s n).loading.isNone then loadStored (storedFrom s (n + 1)) s else s)

/-! ### Stored layouts and uploaded constants (R295) -/

/-- Bytes that the stored-layout area holds or is to hold for partitions other than `n`. -/
def storedElse (s : State) (n : Nat) : Nat :=
  (((List.range 16).filter fun k => !(k == n)).map fun k =>
    ((s.seats.stored ++ s.seats.storing.filterMap (·.2)).filter fun x => x.part == k).foldl (fun m x => max m x.stream.length) 0).sum

/-- The layout that stands stored for a partition number once every store and erase accepted so far has taken effect (R298). -/
def storedAhead (s : State) (n : Nat) : Option Stored :=
  match (s.seats.storing.filter fun e => e.1.part == n).getLast? with
  | some e => e.2
  | none => s.seats.stored.find? fun x => x.part == n

/-- The stored layout of a partition number belongs to the other seat, which placed it. -/
def storedForeign (s : State) (h : Hdr) : Bool :=
  (h.seat == .a || h.seat == .b) && (storedAhead s h.part).any fun x => !(x.seat == seatNo h.seat)

/-- The first store or erase of a partition number takes effect, and with a store the erases behind it (R298). -/
def flashDone : Nat → Nat → State → State
  | 0, _, s => s
  | k + 1, n, s =>
    match s.seats.storing.find? fun e => e.1.part == n with
    | none => s
    | some e =>
      let rest := s.seats.storing.eraseP fun e => e.1.part == n
      let s := complete e.1 stOk { s with seats := { s.seats with
        storing := rest, stored := (s.seats.stored.filter fun y => !(y.part == n)) ++ e.2.toList } }
      if ((rest.find? fun e => e.1.part == n).map (·.2)) == some none then flashDone k n s else s

/-- What R201 to R207 and the CRCs refuse in a stream. -/
def storeErrs (b : List Byte) : Errs :=
  let (l, e0) := splitRecs (b.length / 16 + 1) 0 b
  e0 ++ l.flatMap recordErrs ++ orderErrs 0 0 0 0 l ++ dupBinds l ++
    (l.filter fun r => r.typ == 1 && !hollow r).flatMap fun r => headerErrs b.length l.length r

/-- STORE_LAYOUT (R295): a seat stores no layout that names another seat (R36). -/
def execStoreLayout (h : Hdr) (stream : List Byte) (s : State) : Res :=
  command h (fun s =>
    let recs := (splitRecs (stream.length / 16 + 1) 0 stream).1
    let named := (recs.getD 1 default).typ == 2 && !(hollow (recs.getD 1 default))
    let st := lowest (partChecks s h true ++ [onlyAB h, (storedForeign s h, eRights),
      (named && !((readLayout recs).seat == seatNo h.seat), eRights), (stream.isEmpty, eZero),
      (decide (0x1000000 < storedElse s h.part + stream.length), eOvercommit), (s.seats.storing.any fun e => e.1.seat == h.seat, eBusy)] ++
      (if stream.isEmpty then [] else [(true, (errStatus (storeErrs stream)).1)]))
    if st = stOk then
      { s with seats := { s.seats with storing := s.seats.storing ++ [(h, some ⟨h.part, seatNo h.seat, stream⟩)] } }
    else complete h st s) s

/-- STORE_LAYOUT_COMPLETE (R295): the stream stands in the flash in place of an earlier one. -/
def execStoreLayoutComplete (part_ : Fin 16) (s : State) : Res :=
  let n : Nat := part_
  .next (if firmwareRuns s then flashDone s.seats.storing.length n s else s)

/-- ERASE_LAYOUT (R295): a loaded partition is not affected. Behind a store of the partition in progress it takes effect after it (R298). -/
def execEraseLayout (h : Hdr) (s : State) : Res :=
  command h (fun s =>
    let st := lowest (partChecks s h true ++ [(h.seat == .n, eRights), (storedForeign s h, eRights), ((storedAhead s h.part).isNone, eAbsent)])
    if st = stOk then
      let t := { s with seats := { s.seats with storing := s.seats.storing ++ [(h, none)] } }
      if s.seats.storing.any fun e => e.1.part == h.part then t else flashDone 1 h.part t
    else complete h st s) s

/-- Dies of a mask. -/
def maskDies (m : Nat) : List Nat := [0, 1, 2, 3].filter fun d => bitOf m d

/-- Where the device puts an uploaded constant of `k` bytes on a die: the highest place right below the end of the data space or something
taken; none where fragments leave no place (log 91). -/
def uploadPlace (s : State) (d k : Nat) : Option Nat :=
  let t := spaceTaken s 16 d
  let z := roundUp k 64
  ((cellarMiB * 1048576 :: t.map (·.1)).filter fun b => decide (z ≤ b) && spaceClear t (b - z) z).foldl
    (fun (m : Option Nat) b => some (max (b - z) (m.getD 0))) none

/-- Free bytes of a die's cellar for an upload. -/
def uploadRoom (s : State) (d : Nat) : Nat := cellarMiB * 1048576 - cellarElse s 16 d * 1048576 - uploadBytes s d

/-- The seat's upload of a body for a partition number. -/
def uploadOf (s : State) (seat : Seat) (n : Nat) (digest : List Byte) : Option Upload :=
  s.seats.uploads.find? fun u => u.seat == seat && u.part == n && u.digest == digest

/-- The constant as the seat will hold it, and the dies of the mask that do not hold it yet. -/
def uploadNew (s : State) (seat : Seat) (n mask : Nat) (digest body : List Byte) : Upload × List Nat :=
  let old := (uploadOf s seat n digest).getD ⟨seat, n, digest, body, 0, [0, 0, 0, 0]⟩
  let add := (maskDies mask).filter fun d => !bitOf old.dies d
  let at_ := [0, 1, 2, 3].map fun d => if d ∈ add then (uploadPlace s d (constCells body).length).getD 0 else old.at_.getD d 0
  ({ old with dies := old.dies ||| mask, at_ := at_ }, add)

/-- Where the last byte that is sent of a constant ends, from its place; 0 where none is sent (R46). -/
def uploadEnd (b : List (Option Byte)) : Nat := (unitRuns (b.length / 64 + 1) 0 b).foldl (fun m r => max m (r.1 + r.2.length)) 0

/-- An accepted upload: a window for it is open on each die that does not hold it yet, and it goes there on BULK; each window closes with its
last byte (R146). -/
def uploadEffect (new : Upload) (add : List Nat) (s : State) : State :=
  let b := constCells new.body
  let s := add.foldl (fun s d =>
    let a := new.at_.getD d 0
    let s := if uploadEnd b = 0 then s else modDie d (fun x => { x with windows := x.windows ++ [⟨0, a, a + uploadEnd b, 255, true⟩] }) s
    writeCells 0 (d + 1) a b s) s
  { s with seats := { s.seats with uploads :=
      (s.seats.uploads.filter fun u => !(u.seat == new.seat && u.part == new.part && u.digest == new.digest)) ++ [new] } }

/-- Uploads of a seat that are still on their way are abandoned: their windows close, and nothing new is held (R301). -/
def uploadsCut (x : Seat) (s : State) : State :=
  let mine (w : Await) : Bool := w.hdr.seat == x && w.undo.isSome
  let t := { s with seats := { s.seats with awaiting := s.seats.awaiting.filter fun w => !mine w } }
  (s.seats.awaiting.filter mine).foldl (fun s w => match w.undo with
    | none => s
    | some (u, old) =>
      let s := w.left.foldl (fun s e => modDie e.1 (closeOnce 0 e.2) s) s
      { s with seats := { s.seats with uploads :=
        (s.seats.uploads.filter fun y => !(y.seat == u.seat && y.part == u.part && y.digest == u.digest)) ++ old.toList } }) t

/-- UPLOAD_CONST (R216, R288, R295): it completes when the constant stands on every die. -/
def execUploadConst (h : Hdr) (dieMask : Nat) (body : List Byte) (s : State) : Res :=
  command h (fun s =>
    let digest := shake256 32 body
    let old := uploadOf s h.seat h.part digest
    let add := (maskDies dieMask).filter fun d => !bitOf ((old.map (·.dies)).getD 0) d
    let size := roundUp (constImage body).length 64
    let st := lowest (partChecks s h true ++ [onlyAB h, (body.isEmpty, eZero), (dieMask == 0 || decide (15 < dieMask), eFormat),
      (!body.isEmpty && (tensorBad body 0 || !(body.length == hdrLength (readHdr body 0))), eFormat),
      ((maskDies dieMask).any fun d => !diePresent s d, eAbsent),
      (old.isNone && decide (64 ≤ (s.seats.uploads.filter fun u => u.seat == h.seat).length), eOvercommit),
      (add.any fun d => decide (uploadRoom s d < size) || (uploadPlace s d size).isNone, eOvercommit)])
    let (new, more) := uploadNew s h.seat h.part dieMask digest body
    let end_ := uploadEnd (constCells body)
    let left := if end_ = 0 then [] else more.map fun d => (d, new.at_.getD d 0 + end_)
    if st = stOk then awaits h (ofLe (digest.take 8)) left (some (new, old)) (uploadEffect new more s)
    else complete h st s) s

/-- A loaded partition refers to the constant (R217). -/
def constReferred (s : State) (seat : Seat) (n : Nat) (digest : List Byte) : Bool :=
  (part s n).seat == seatNo seat && ((heldLayout (part s n)).map fun l => (l.regions.flatMap (·.consts)).any fun c => c.refKind == 1 && c.digest == digest).getD false

/-- RELEASE_CONST (R295). -/
def execReleaseConst (h : Hdr) (digest : List Byte) (s : State) : Res :=
  command h (fun s =>
    let mine := (uploadOf s h.seat h.part digest).isSome
    let theirs := s.seats.uploads.any fun u => u.part == h.part && u.digest == digest
    finish h (lowest (partChecks s h true ++ [onlyAB h, (!mine && theirs, eRights), (!mine && !theirs, eAbsent),
      (mine && constReferred s h.seat h.part digest, eBusy)]))
      (fun s => { s with seats := { s.seats with uploads :=
        (s.seats.uploads.filter fun u => !(u.seat == h.seat && u.part == h.part && u.digest == digest)) } }) s) s

/-! ### Result rings (R289, R295) -/

/-- The size is a power of 2 from 64 KiB to 1 GiB. -/
def ringSizeOk (n : Nat) : Bool := (List.range 15).any fun i => n == 65536 * 2 ^ i

/-- SET_RESULT_RING (R289, R295). -/
def execSetResultRing (h : Hdr) (cq : Nat) (s : State) : Res :=
  command h (fun s => finish h
    (lowest (partChecks s h false ++ [onlyAB h, fencedBad s h, ((part s h.part).st == 2, eState), (h.len == 0, eZero),
      (!(h.len == 0) && !ringSizeOk h.len, eFormat), (!(h.addr % 4096 == 0) || decide (2 ^ 64 < h.addr + h.len), eFormat),
      (decide (63 < cq), eFormat), (!(queueOf s h.seat cq).enabled, eState)]))
    (modPart h.part fun p => { p with ring := some ⟨h.addr, h.len, cq, 0, 0, 0⟩ }) s) s

end Sys2Proof.Machine
end

