-- ==== Sys2Proof/Machine/Net.lean ====
section
/-! DEFINITION. Machine/Net.lean: the Ethernet ports: transmit requests and stamps (R396 to R398), PTP messages (R383,
R384), links (R518) and NET_CFG (R411). -/

namespace Sys2Proof.Machine

/-- Port `p`: 0 NA, 1 NB. -/
def netPort (s : State) (p : Nat) : NetPort := tblGet {} s.net p

/-- `f` applied to a port. -/
def modNet (p : Nat) (f : NetPort → NetPort) (s : State) : State := { s with net := tblMod {} s.net p f }

/-- The long count that a request names: the port's own base or TB_SAFE (R396). -/
def txBase (s : State) (p : Nat) (r : TxReq) : Nat := if r.safeBase then tbSafe s else longOf s (p + 1)

/-- How far ahead of its base a request's LAUNCH lies, by R381; negative when it is past. -/
def txAhead (s : State) (p : Nat) (r : TxReq) : Int :=
  let ref : Int := txBase s p r
  extendStamp ref (r.launch % 2 ^ 32) (r.launch / 2 ^ 32 % 4) - ref

/-- A stamp lies within 4 ns of the instant (R383): the deviation is free. -/
def stampError (s : State) : Int := (Config.freeNat s.free % 9 : Nat) - 4

/-- A frame leaves: counted, and stamped when the request asks for it (R383, R398). A port without link loses it. -/
def netSend (p : Nat) (e : TxReq × Bool) (s : State) : State :=
  let x := netPort s p
  if !x.up then s
  else
    let s := modNet p (fun x => { x with tx := wrapAt 16 (x.tx + 1) }) s
    let s := emit (if e.2 then .datagram p x.addr (if p = 0 then s.sio.peerNa else s.sio.peerNb) s.sio.udpPort 46 e.1.frame
      else .ether p e.1.frame) s
    if e.1.stampReq then
      let t : Int := txBase s p e.1 + x.txLat + stampError s
      let v := unsgn 34 t
      let s := if e.1.safeBase then drawn s
        else modNet p (fun x => { x with txIds := ((e.1.stampId, t) :: x.txIds.filter fun i => !(i.1 == e.1.stampId)).take 16 }) (drawn s)
      if 16 ≤ x.stamps.length then modNet p (fun x => { x with tsDrops := up8 x.tsDrops }) s
      else icuEvent (73 + 2 * p) (modNet p (fun x => { x with stamps := x.stamps ++ [⟨e.1.stampId, v, e.1.safeBase⟩] }) s)
    else s

/-- GRACE in ns, at most 1,000 µs (R400). -/
def graceNs (x : NetPort) : Int := (min x.grace 1000 * 1000 : Nat)

/-- The head of the queue: it waits, is sent, or is dropped as late (R397). -/
def netHead (p : Nat) (e : TxReq × Bool) (s : State) : Option State :=
  let a := txAhead s p e.1
  let rest := modNet p (fun x => { x with queue := x.queue.drop 1 }) s
  if !e.1.launchEn then some (netSend p e rest)
  else if 0 < a then none
  else if -a ≤ graceNs (netPort s p) then some (netSend p e rest)
  else some (modNet p (fun x => { x with lateDrops := up8 x.lateDrops }) rest)

/-- Requests leave in order until one waits; `n` bounds how many (R397). -/
def netPump : Nat → Nat → State → State
  | 0, _, s => s
  | n + 1, p, s =>
    match (netPort s p).queue with
    | [] => s
    | e :: _ => (netHead p e s).elim s (netPump n p)

/-- A request is queued and the queue moved on (R396, R397). -/
def netQueue (p : Nat) (e : TxReq × Bool) (s : State) : State :=
  let s := modNet p (fun x => { x with queue := x.queue ++ [e] }) s
  netPump (netPort s p).queue.length p s

/-- At a step, a waiting request now 2^33 ns or more ahead is dropped (R397): before the step it lay `a` ahead. -/
def netStep (p : Nat) (amount : Int) (s : State) : State :=
  let stays (e : TxReq × Bool) : Bool :=
    !e.1.launchEn || e.1.safeBase || decide (txAhead s p e.1 - amount < 2 ^ 33)
  let gone := ((netPort s p).queue.filter fun e => !stays e).length
  modNet p (fun x => { x with queue := x.queue.filter stays, rangeDrops := holdAt 255 (x.rangeDrops + gone) }) s

/-- A quotient in ns, to either side where it is no whole number (R384; log 22). -/
def roundFree (s : State) (x : Int) (d : Nat) : Int := if chooses s || x % d == 0 then x / d else x / d + 1

/-- ETH_TRANSMIT_REQUEST (R396, R397). -/
def execEthTransmitRequest (port : Fin 2) (r : TxReq) (s : State) : Res := .next (netQueue port (r, false) s)

/-- The launch instant of the request at the head has come, to within 5 ns: it leaves, and those it held back follow; one further behind
is past (R397). -/
def execEthTransmitLaunch (port : Fin 2) (s : State) : Res :=
  .next (match (netPort s port).queue with
    | [] => s
    | e :: _ =>
      let a := txAhead s port e.1
      if e.1.launchEn && decide (-5 ≤ a) && decide (a ≤ 5) then
        let s := netSend port e (modNet port (fun x => { x with queue := x.queue.drop 1 }) s)
        netPump (netPort s port).queue.length port s
      else netPump (netPort s port).queue.length port s)

/-- The receive stamp of a frame that passes the stamp point now, with RX_LAT added (R383). -/
def rxStamp (s : State) (p : Nat) : Int := (longOf s (p + 1) : Int) + (netPort s p).rxLat + stampError s

/-- The ns of a PTP timestamp: 6 octets of seconds and 4 of nanoseconds in network byte order (R5; log 96). -/
def ptpTime (b : List Byte) : Int := ofBe (b.take 6) * 1000000000 + ofBe (sub b 6 4)

/-- A correctionField: a signed number of 2^-16 ns in network byte order (R5; log 96). -/
def ptpCorr (h : PtpHead) : Int := sgn 64 (ofBe h.corr)

/-- t1 and t2 of a Sync give the offset sample, which the servo takes next (R384, R385). -/
def syncSample (p : Nat) (t1 t2 corr : Int) (s : State) : State :=
  let d := (t2 - t1) * 65536 - corr
  let theta := roundFree s (d - (baseOf s (p + 1)).path * 65536) 65536
  drawn (modNet p (fun n => { n with samples := n.samples ++ [theta], syncDiff := some d, syncRx := none }) s)

/-- The port's stamp t3 with t4 and the last Sync give the path sample of the end-to-end mechanism (R384). -/
def delaySample (p : Nat) (d t3 t4 corr : Int) (s : State) : State :=
  onPath (p + 1) (roundFree s (d + (t4 - t3) * 65536 - corr) 131072) (drawn s)

/-- The four Pdelay stamps give the path sample (R384). -/
def pdelaySample (p : Nat) (t1 t2 t3 t4 corr : Int) (s : State) : State :=
  onPath (p + 1) (roundFree s (((t4 - t1) - (t3 - t2)) * 65536 - corr) 131072) (drawn (modNet p (fun n => { n with pdelayRx := none }) s))

/-- The port's own transmit stamp of a STAMP_ID (R383, R384). -/
def ownStamp (x : NetPort) (id : Nat) : Option Int := (x.txIds.find? fun e => e.1 == id).map (·.2)

/-- A message that the port's instance takes (R382; log 96): version 2.1 or 2.0, its own domain, a transport of its profile, from the master
that the time stack has configured, every field whole. -/
def ptpTakes (p : Nat) (h : PtpHead) (ts : List (List Byte)) : Bool :=
  h.version == 2 && decide (h.minor ≤ 1) && h.domain == Config.ptpDomain p % 128 &&
  (h.transport == .ethernet || (h.transport == .udp4 && !h.gptp)) && h.master && h.corr.length == 8 && ts.all fun t => t.length == 10

/-- What the port engine makes of a message that it takes with FEED 1: the port's receive stamp `t` was taken as the message arrived, its own
transmit stamp of an answered frame when that left (R383, R384). -/
def ptpEngine (p : Nat) (m : PtpMsg) (s : State) : State :=
  let t := rxStamp s p
  let s := drawn s
  let x := netPort s p
  match m with
  | .sync h (some t1) => if ptpTakes p h [t1] then syncSample p (ptpTime t1) t (ptpCorr h) s else s
  | .sync h none => if ptpTakes p h [] then modNet p (fun n => { n with syncRx := some (t, ptpCorr h) }) s else s
  | .followUp h t1 => if ptpTakes p h [t1] then x.syncRx.elim s fun r => syncSample p (ptpTime t1) r.1 (r.2 + ptpCorr h) s else s
  | .delayResp h id t4 =>
    if ptpTakes p h [t4] then x.syncDiff.elim s fun d => (ownStamp x id).elim s fun t3 => delaySample p d t3 (ptpTime t4) (ptpCorr h) s else s
  | .pdelayResp h id t2 (some t3) =>
    if ptpTakes p h [t2, t3] then (ownStamp x id).elim s fun t1 => pdelaySample p t1 (ptpTime t2) (ptpTime t3) t (ptpCorr h) s else s
  | .pdelayResp h id t2 none =>
    if ptpTakes p h [t2] then
      (ownStamp x id).elim s fun t1 => modNet p (fun n => { n with pdelayRx := some (t1, ptpTime t2, t, ptpCorr h) }) s
    else s
  | .pdelayFollowUp h t3 =>
    if ptpTakes p h [t3] then x.pdelayRx.elim s fun r => pdelaySample p r.1 r.2.1 (ptpTime t3) r.2.2.1 (r.2.2.2 + ptpCorr h) s else s
  | .other => s
  | .badFcs => s

/-- A PTP message has been received: counted and signalled; with FEED 1 the port engine forms offset and path samples (R384). -/
def ptpReceived (port : Nat) (m : PtpMsg) (s : State) : State :=
  let s := icuEvent (72 + 2 * port) (modNet port (fun x => { x with rx := wrapAt 16 (x.rx + 1) }) s)
  if (baseOf s (port + 1)).feed then ptpEngine port m s else s

/-- PTP_MESSAGE_RECEIVE; a frame with a bad frame check sequence is discarded and counted in FCS_ERRORS alone (R384, R518; log 81). -/
def execPtpMessageReceive (port : Fin 2) (m : PtpMsg) (s : State) : Res :=
  .next (match m with
    | .badFcs => modNet port (fun x => { x with fcs := up8 x.fcs }) s
    | m => ptpReceived port m s)

/-- A port's link comes up at the rate that it is trying (R518); in ATTIC both links stay down (R466). -/
def execEthLinkUp (port : Fin 2) (tenGig : Bool) (s : State) : Res :=
  .next (if s.boot == .off || (netPort s port).up || !((netPort s port).tryTen == tenGig) then s
    else modNet port (fun x => { x with up := true, tenGig := tenGig }) s)

/-- A port's link is lost; the port tries 10GBASE-R first again (R518). -/
def execEthLinkLoss (port : Fin 2) (s : State) : Res :=
  .next (if (netPort s port).up then
    modNet port (fun x => { x with up := false, losses := up8 x.losses, tryTen := true, trySince := s.time.edges }) s else s)

/-- 100 ms without a link: the port tries the other rate (R518). -/
def execEthLinkTryTimeout (port : Fin 2) (s : State) : Res :=
  .next (if !(s.boot == .off) && !(netPort s port).up && decide ((netPort s port).trySince + 40000000 ≤ s.time.edges) then
    modNet port (fun x => { x with tryTen := !x.tryTen, trySince := s.time.edges }) s else s)

/-- NET_TSCFG's fields (R400). -/
def tscfgWrite (v : Nat) (x : NetPort) : NetPort := { x with txLat := fld v 9 0, rxLat := fld v 19 10, grace := fld v 29 20 }

/-- NET_CFG's effect (R411). -/
def netCfgEffect (port : Nat) (addr mask gw tscfg : Word) (s : State) : State :=
  modNet port (fun x => tscfgWrite tscfg.toNat { x with addr := addr, mask := mask, gw := gw }) s

/-- SAFETY_SET NET_CFG (R411). -/
def execNetCfg (h : Hdr) (port : Nat) (addr mask gw tscfg : Word) (s : State) : Res :=
  command h (fun s => finish h (lowest (safetyRights s h ++ [(decide (1 < port), eFormat)]))
    (fun s => storeSetting 11 port (.netCfg h port addr mask gw tscfg) (netCfgEffect port addr mask gw tscfg s)) s) s

end Sys2Proof.Machine
end

