-- ==== Sys2Proof/Machine/Pair.lean ====
section
/-! DEFINITION. Machine/Pair.lean: the lockstep pair, its faults, debug, split and rejoin, memories and user tasks
(R306 to R327). -/

namespace Sys2Proof.Machine

/-- The comparator and the state tap work: from the jump to the firmware on (R425 step 5), while in lockstep (R321, R323) and not restarting
(R451). -/
def pairActive (s : State) : Bool := s.releaseX.isSome && s.pair.mode == 0 && !s.upd.restart

/-- DBG_PAIR_DIAG holds the first fault only (R327). -/
def pairDiag (kind group half bit_ : Nat) (s : State) : State :=
  if s.pair.kind = 0 then
    { s with pair := { s.pair with kind := kind, group := group, half := half, bit := bit_, stamp := tbSafe s } }
  else s

/-- The group of a compared bit (R307, R327). -/
def bitGroup (b : Nat) : Nat := if b < 64 then 0 else if b < 96 then 1 else if b < 116 then 2 else 3

/-! ### The write gate (R308, R349) -/

/-- The main core's writes at a BAR0 offset are held in the write gate: those to WDG, SIO and UPD (R308). -/
def gated (a : Nat) : Bool := a / 65536 == 0x7 || a / 65536 == 0xB || a / 65536 == 0xC

/-- A write enters the gate for three CPU cycles, which are three TIME edges. -/
def gateHold (a : Nat) (v : Word) (s : State) : State :=
  { s with pair := { s.pair with gate := s.pair.gate ++ [(s.time.edges + 3, a, v)] } }

/-! ### Registers of a core (R306, R314) -/

/-- The CSRs that a core implements. PRESUMED: the numbers of the RISC-V privileged architecture for machine and user mode with 16 PMP entries
and the debug specification (log 100). -/
def csrImplemented (i : Nat) : Bool :=
  [(0x300, 0x301), (0x304, 0x306), (0x310, 0x310), (0x320, 0x320), (0x323, 0x33F), (0x340, 0x344), (0x3A0, 0x3A3), (0x3B0, 0x3BF), (0x7A0, 0x7A2),
   (0x7B0, 0x7B1), (0xB00, 0xB00), (0xB02, 0xB1F), (0xB80, 0xB80), (0xB82, 0xB9F), (0xC00, 0xC1F), (0xC80, 0xC9F), (0xF11, 0xF14)].any
    fun r => decide (r.1 ≤ i) && decide (i ≤ r.2)

/-- The CSRs that the state tap captures and that a rejoin copies: all but the counters and the debug CSRs (R314). -/
def csrTapped (i : Nat) : Bool :=
  csrImplemented i && !(decide (0x7A0 ≤ i) && decide (i < 0x7C0)) && !(decide (0xB00 ≤ i) && decide (i < 0xD00))

/-- What is copied from one core to another: x1 to x31, the pc, the captured CSRs, and with them the mode (R314, R323). -/
def coreCopied (c : CpuRegs) : CpuRegs := { ran := c.ran, x := c.x, csr := c.csr.filter fun e => csrTapped e.1, pc := c.pc, user := c.user }

/-- A core's caches hold this. -/
def cachesAre (k : Cache) (c : CpuRegs) : CpuRegs := { c with icache := k, dcache := k }

/-- Steps 2 to 4 of the rejoin: the checker is reset and takes the main core's state, all four caches are invalidated (R313, R323). The state
tap of step 5 finds no difference between what was copied and its copy. -/
def resync (s : State) : State :=
  { s with pair := { s.pair with checker := coreCopied s.pair.main, main := cachesAre .empty s.pair.main } }

/-- COMPARE_PATH: counted, diagnosed, SAFE latched with cause 5 (R312). -/
def pathFault (kind group half bit_ : Nat) (s : State) : State :=
  let s := { s with pair := { s.pair with pathF := up8 s.pair.pathF } }
  latchSafe 5 0 0 (pairDiag kind group half bit_ s)

/-- A tap test in the bit whose turn it is; a half that does not report the injected mismatch is a comparator fault, HALF the one that
reported, free where none did (R310, R327; log 80). -/
def tapTest (r : TapResult) (s : State) : State :=
  let b := s.pair.tapBit
  let s := { s with pair := { s.pair with tapBit := (b + 1) % 128, tap := r } }
  if r.halfA && r.halfB then s
  else if r.halfA || r.halfB then pathFault 4 (bitGroup b) (if r.halfA then 0 else 1) b s
  else pathFault 4 (bitGroup b) (bit (chooses s)) b (drawn s)

/-- CORE_MISMATCH: counted, diagnosed, the gated writes discarded, SAFE latched with cause 4, the pair resynchronised with its tap test (R308,
R312, R313). DESIGN CHOICE: a half answers that test as it answered the last (log 103). -/
def coreMismatch (kind group bit_ : Nat) (s : State) : State :=
  let s := { s with pair := { s.pair with mism := up8 s.pair.mism, gate := [] } }
  let s := resync (latchSafe 4 0 0 (pairDiag kind group 0 bit_ s))
  tapTest s.pair.tap s

/-- The compared bus outputs differ, `lowBit` the lowest differing bit (R307, R312). -/
def execCoreMismatch (lowBit : Fin 128) (s : State) : Res :=
  .next (if pairActive s then coreMismatch 1 (bitGroup lowBit) lowBit s else s)

/-- The state tap of a millisecond (R314). -/
def execStateTap (main checker : List Word) (s : State) : Res :=
  let crc (l : List Word) : Word := crc32c ((l.map fun w => leBytes 4 w.toNat).flatten)
  .next (if pairActive s && s.time.edges % 400000 == 0 && !(crc main == crc checker) then coreMismatch 2 0 0 s else s)

/-- The tap test of a millisecond (R310). -/
def execTapTest (halfA halfB : Bool) (s : State) : Res :=
  .next (if pairActive s && s.time.edges % 400000 == 200000 then tapTest ⟨halfA, halfB⟩ s else s)

/-- A comparator fault of R309 or R311. -/
def execComparePathFault (f : PathFault) (s : State) : Res :=
  .next (if pairActive s then
    match f with
    | .halves h => pathFault 3 0 (h % 2) 0 s
    | .stuck h => pathFault 6 0 (h % 2) 0 s
    | .inPhase => pathFault 6 0 (bit (chooses s)) 0 (drawn s)
    | .parity h => pathFault 5 0 (h % 2) 0 s
  else s)

/-- The synchronisers of an input group differ (R316). -/
def inputDiffers (s : State) (g : Nat) : Bool := !(tblGet 0 s.pair.differ g == 0)

/-- The value that an input group brings: whether the core is to be halted; the attic's status word, ATT_WAKE_REC; SAFE_REQ_n low, WAKE_n low and
the seal balls, in a layout of the model's own (R315; log 101). -/
def inputNow (s : State) (g : Nat) : Word :=
  w32 (if g = 0 then bit s.pair.halted
    else if g = 1 then s.pwr.recCause + 4 * s.pwr.recSrc
    else bit s.sio.reqLow + 2 * bit (decide (s.time.edges < s.pwr.wakeLow)) + 256 * s.sio.lastP.toNat + 65536 * s.sio.lastN.toNat)

/-- The value that both cores are given: the last agreed one while the synchronisers differ (R316). -/
def inputSeen (s : State) (g : Nat) : Word := if inputDiffers s g then tblGet 0 s.pair.agreed g else inputNow s g

/-- INPUT_DISAGREE on the fifth cycle of disagreement, once until they agree again (R316, R486). -/
def execInputDisagree (group : Fin 3) (s : State) : Res :=
  .next (if inputDiffers s group then s
  else icuEvent (128 + group) (logError 7 group 255 0 0 { s with pair := { s.pair with
    disagree := s.pair.disagree ||| 2 ^ group.val, inCount := up8 s.pair.inCount, agreed := tblSet 0 s.pair.agreed group (inputNow s group),
    differ := tblSet 0 s.pair.differ group (s.time.edges + 1) } }))

/-- A group has disagreed without a break for 1 ms, counted from the first of the five cycles of INPUT_DISAGREE (R316). -/
def execInputStuck (group : Fin 3) (s : State) : Res :=
  let t := tblGet 0 s.pair.differ group
  .next (if t ≠ 0 ∧ t + 399995 ≤ s.time.edges then
    { s with pair := { s.pair with stuck := s.pair.stuck ||| 2 ^ group.val } } else s)

/-- What a line that is fetched again leaves of a cache: another content, where it held any. -/
def refetched (seed : Nat) (k : Cache) : Cache := if k = .empty then .empty else .left seed

/-- A cache parity error: both cores invalidate the line and fetch it again, alike; which of the two caches reported is free (R318). -/
def execCacheParity (s : State) : Res :=
  let refetch (c : CpuRegs) : CpuRegs :=
    if chooses s then { c with icache := refetched s.free c.icache } else { c with dcache := refetched s.free c.dcache }
  .next (drawn { s with pair := { s.pair with cacheP := up8 s.pair.cacheP, main := refetch s.pair.main, checker := refetch s.pair.checker } })

/-- An uncorrectable word of a companion memory (R317). -/
def memUncorrectable (s : State) : State := latchSafe 9 0 0 { s with pair := { s.pair with memUnc := up8 s.pair.memUnc } }

/-! ### User tasks (R325, R327) -/

/-- User task slot `n`. -/
def userTask (s : State) (n : Nat) : UserTask := tblGet {} s.pair.tasks n

/-- `f` applied to a user task slot. -/
def modUser (n : Nat) (f : UserTask → UserTask) (s : State) : State :=
  { s with pair := { s.pair with tasks := tblMod {} s.pair.tasks n f } }

/-- A task is stopped: FAULTED with the low byte of mcause (R325). -/
def userFault (n cause : Nat) (s : State) : State :=
  if (userTask s n).state = 1 then modUser n (fun t => { t with state := 2, cause := cause % 256 }) s else s

/-- The user task slot whose code or data a memory-map address is, and whether it is code (R326). -/
def taskArea (a : Nat) : Option (Nat × Bool) :=
  if 0x10100000 ≤ a ∧ a < 0x10280000 then some ((a - 0x10100000) / 0x30000, decide ((a - 0x10100000) % 0x30000 < 0x20000)) else none

/-- A read of a companion memory, at a memory-map address, finds an uncorrectable word: the access ends with an access fault, which stops the
task whose area it is. DEDUCED: a read of a slot's area is its task's; mcause is 1 for code and 5 for data, as RISC-V numbers them (R317, R325;
log 101). -/
def execMemoryUncorrectable (mem : CxMem) (addr : Nat) (s : State) : Res :=
  let s := memUncorrectable s
  .next (match mem, taskArea addr with
    | .sram, some (n, code) => userFault n (if code then 1 else 5) s
    | _, _ => s)

/-- A word that the scrub of a companion memory, or a read of it, finds corrected, or the scrub uncorrectable; there are no tags (R317). -/
def execCompanionScrub (_mem : CxMem) (_addr : Nat) (found : EccOutcome) (s : State) : Res :=
  .next (match found with
    | .clean => s
    | .corrected => icuEvent 132 { s with pair := { s.pair with memCorr := wrapAt 16 (s.pair.memCorr + 1) } }
    | .uncorrectable => memUncorrectable s
    | .tagMismatch => s)

/-! ### Debug (R320, R321) -/

/-- An abstract command reaches a register: x1 to x31, an implemented CSR, the pc, a word of a trigger (R320). -/
def dbgReaches (r : DbgReg) : Bool :=
  match r with
  | .x i => decide (i < 32)
  | .csr i => csrImplemented i
  | .dpc => true
  | .trigger i => decide (i < 4)

/-- What a CSR number names: CSR 0x7B1 is dpc, 0x7A1 and 0x7A2 are the words of the trigger that 0x7A0 selects (R320, R321; log 100). -/
def dbgNamed (c : CpuRegs) (r : DbgReg) : DbgReg :=
  match r with
  | .csr i => if i = 0x7B1 then .dpc else if i = 0x7A1 then .trigger (2 * c.tsel) else if i = 0x7A2 then .trigger (2 * c.tsel + 1) else r
  | r => r

/-- A register written in one core: CSR 0x7A0 selects one of the two triggers, bits [1:0] of 0x7B0 the mode (log 100). -/
def cpuWrite (r : DbgReg) (v : Word) (c : CpuRegs) : CpuRegs :=
  match dbgNamed c r with
  | .x i => if 1 ≤ i ∧ i ≤ 31 then { c with x := tblPut c.x i v } else c
  | .csr i =>
    if i = 0x7A0 then (if v.toNat < 2 then { c with tsel := v.toNat } else c)
    else if csrImplemented i then
      { c with csr := tblPut c.csr i v, user := if i = 0x7B0 then (v.toNat % 4 == 0 || (c.user && !(v.toNat % 4 == 3))) else c.user }
    else c
  | .dpc => { c with pc := v }
  | .trigger i => if i < 4 then { c with trig := tblSet 0 c.trig i v } else c

/-- A register read in one core; none where the program has left a value that no rule states (log 8). -/
def cpuRead (r : DbgReg) (c : CpuRegs) : Option Word :=
  match dbgNamed c r with
  | .x i => if i = 0 then some 0 else if c.ran then (c.x.find? fun e => e.1 == i).map (·.2) else some (tblGet 0 c.x i)
  | .csr i =>
    if i = 0x7A0 then some (w32 c.tsel) else if c.ran then (c.csr.find? fun e => e.1 == i).map (·.2) else some (tblGet 0 c.csr i)
  | .dpc => some c.pc
  | .trigger i => some (tblGet 0 c.trig i)

/-- The journal is replayed into the checker and emptied, where the pair is in lockstep; after a system bus write both cores' caches are
invalidated (R321). -/
def journalReplay (s : State) : State :=
  let c := if s.pair.mode = 0 then s.pair.journal.foldl (fun c e => cpuWrite e.reg e.val c) s.pair.checker else s.pair.checker
  let inv (c : CpuRegs) : CpuRegs := if s.pair.sba then cachesAre .empty c else c
  { s with pair := { s.pair with main := inv s.pair.main, checker := inv c, journal := [], sba := false } }

/-- What a core that has run holds: registers, CSRs, pc, mode and caches are the program's and free (log 8); the triggers stay. -/
def cpuRan (pc : Word) (user : Bool) (seed : Nat) (c : CpuRegs) : CpuRegs :=
  { c with ran := true, x := [], csr := [], pc := pc, user := user, icache := .left seed, dcache := .left seed }

/-- The main core has run, and the checker with it where the pair is in lockstep. -/
def coresRan (s : State) : State :=
  let ran := cpuRan (BitVec.ofNat 32 (Config.freeNat s.free)) (chooses s) s.free
  drawn { s with pair := { s.pair with
    sram := [], main := ran s.pair.main, checker := if s.pair.mode = 0 then ran s.pair.checker else s.pair.checker } }

/-- The main core halts (R320): OKAY is held, source 131 signalled. -/
def debugHalts (s : State) : State := icuEvent 131 (okaySettle (coresRan { s with pair := { s.pair with halted := true } }))

/-- The main core resumes (R320, R321). -/
def debugResumes (s : State) : State :=
  let s := journalReplay s
  icuEvent 131 { s with pair := { s.pair with halted := false } }

/-- The journal is replayed, one instruction runs, the core halts again (R320, R321). -/
def debugSteps (s : State) : State := icuEvent 131 (coresRan (journalReplay s))

/-- A debug request as the input agreement stage lets it through (R320). -/
def debugDelivered (r : DbgReq) (s : State) : State :=
  match r with
  | .halt => if s.pair.halted then s else debugHalts s
  | .resume => if s.pair.halted then debugResumes s else s
  | .step => if s.pair.halted then debugSteps s else s

/-- A debug request: while its input group differs it waits, undelivered (R315, R316). -/
def debugRequest (r : DbgReq) (s : State) : State :=
  if inputDiffers s 0 then { s with pair := { s.pair with dbgReq := some r } } else debugDelivered r s

/-- DEBUG_HALT: a halt request, or a trigger that fires in the program (R320; log 8). -/
def execDebugHalt (s : State) : Res := .next (debugRequest .halt s)

/-- DEBUG_RESUME (R320, R321). -/
def execDebugResume (s : State) : Res := .next (debugRequest .resume s)

/-- DEBUG_STEP (R320, R321). -/
def execDebugStep (s : State) : Res := .next (debugRequest .step s)

/-- The synchronisers of a group agree: both cores get the new value, STUCK clears, a debug request that waited is delivered (R316). -/
def execInputAgreement (group : Fin 3) (value : Word) (s : State) : Res :=
  let t := { s with pair := { s.pair with
    agreed := tblSet 0 s.pair.agreed group value, stuck := s.pair.stuck - (s.pair.stuck &&& 2 ^ group.val),
    differ := tblErase s.pair.differ group } }
  .next (match s.pair.dbgReq with
    | some r => if group = 0 then debugDelivered r { t with pair := { t.pair with dbgReq := none } } else t
    | none => t)

/-- ABSTRACT_WRITE (R321): applied to the main core and journalled; the 65th of a halt overflows and lockstep is lost. -/
def execAbstractWrite (r : DbgReg) (v : Word) (s : State) : Res :=
  .next (if s.pair.halted && dbgReaches r then
    let s := { s with pair := { s.pair with main := cpuWrite r v s.pair.main } }
    if s.pair.journal.length < 64 then { s with pair := { s.pair with journal := s.pair.journal ++ [⟨r, v⟩] } }
    else if s.pair.mode = 0 then okaySettle { s with pair := { s.pair with overflow := true, mode := 2 } }
    else { s with pair := { s.pair with overflow := true } }
  else s)

/-- ABSTRACT_READ (R320): a value that the program left is free, and stays for the rest of the halt. -/
def execAbstractRead (r : DbgReg) (s : State) : Res :=
  .next (if s.pair.halted && dbgReaches r then
    let v := (cpuRead r s.pair.main).getD (BitVec.ofNat 32 (Config.freeNat s.free))
    let old := (cpuRead r s.pair.main).isSome
    let p := { s.pair with lastRead := v, main := if old then s.pair.main else cpuWrite r v s.pair.main
                           checker := if old || !(s.pair.mode == 0) then s.pair.checker else cpuWrite r v s.pair.checker }
    emit (.debugValue v) (drawn { s with pair := p })
  else s)

/-! ### Split and rejoin (R322 to R324) -/

/-- DBG_PAIR_STATUS (R327). -/
def pairStatus (s : State) : Nat :=
  s.pair.mode + 4 * bit s.pair.halted + 8 * bit (inMaintenance s) + 16 * s.pair.mism + 4096 * s.pair.pathF

/-- LOCKSTEP ends with DBG_PAIR_STATUS in INFO0 (R322). -/
def lockstepEnds (h : Hdr) (status : Nat) (s : State) : State := completeWith h status (pairStatus s) 0 0 [] s

/-- The rights of LOCKSTEP: seat S alone (R293). -/
def onlyS (h : Hdr) : Bool × Nat := (!(h.seat == .s), eRights)

/-- LOCKSTEP SPLIT (R322, R323). -/
def execLockstepSplit (h : Hdr) (s : State) : Res :=
  command h (fun s =>
    let st := lowest [onlyS h, (!(s.pair.mode == 0) || deviceState s == 1, eState)]
    if st = stOk then
      lockstepEnds h st (icuSettle (okaySettle { s with pair := { s.pair with
        mode := 1, checker := { pc := s.pair.splitAt }, asleepC := false } }))
    else lockstepEnds h st s) s

/-- The sources that the checker-as-core had taken become pending again, and its target ends (R323 step 1). -/
def checkerTargetEnds (s : State) : State :=
  let s := (s.icu.stack1.map (·.1)).foldl (fun s n => modSrc n (fun x => { x with pend := true }) s) s
  { s with icu := { s.icu with stack1 := [], pres1 := none, late1 := none, held := s.icu.held.filter fun e => !e.2 } }

/-- LOCKSTEP REJOIN (R322 to R324); `tap` is the tap test of step 4. -/
def execLockstepRejoin (h : Hdr) (tap : TapResult) (s : State) : Res :=
  command h (fun s =>
    let st := lowest [onlyS h, (s.pair.mode == 0, eState)]
    if st = stOk then
      let s := resync (checkerTargetEnds s)
      let s := { s with pair := { s.pair with mode := 0, journal := [], overflow := false, asleepC := false },
                        sio := { s.sio with release := true } }
      lockstepEnds h st (icuSettle (tapTest tap s))
    else lockstepEnds h st s) s

/-! ### What user tasks do (R325) -/

/-- TASK_FAULT (R325). -/
def execTaskFault (slot : Fin 8) (mcause : Word) (s : State) : Res := .next (userFault slot mcause.toNat s)

/-- TASK_BUDGET_EXPIRY: the task, which has run in this millisecond for its budget, waits for the next and the overrun is counted (R325). -/
def execTaskBudgetExpiry (slot : Fin 8) (s : State) : Res :=
  .next (if (userTask s slot).state = 1 ∧ (userTask s slot).preempt = false ∧ (userTask s slot).budget * 400 ≤ s.time.edges % 400000 then
    modUser slot (fun t => { t with preempt := true, overruns := up8 t.overruns }) s else s)

/-- TASK_BUDGET_RENEWAL: a new millisecond of TB_SAFE begins (R325). -/
def execTaskBudgetRenewal (slot : Fin 8) (s : State) : Res :=
  .next (if s.time.edges % 400000 = 0 then modUser slot (fun t => { t with preempt := false }) s else s)

/-- CHECKIN_SERVICE: a check-in of a monitor slot of SOURCE 3 (R358). -/
def checkinService (n : Nat) (s : State) : State :=
  if (taskOf s n).valid && (taskOf s n).source == 3 then taskCheckin n s else s

/-- CHECKIN_SERVICE, called by firmware or by a user task: by neither while the main core is halted (R319, R358). -/
def execCheckinService (slot : Fin 64) (s : State) : Res := .next (if s.pair.halted then s else checkinService slot s)

end Sys2Proof.Machine
end

