-- ==== Sys2Proof/Machine/Sio.lean ====
section
/-! DEFINITION. Machine/Sio.lean: the OKAY outputs, SAFE_REQ_n, the seal, the twin telegram and its settings (R401 to R419). -/

namespace Sys2Proof.Machine

/-- Whether TB_SAFE stands at a multiple of `n` TIME edges. -/
def atMultiple (s : State) (n : Nat) : Bool := !(n == 0) && s.time.edges % n == 0

/-- A period of OKAY begins: with no hold, OKAY_A rises, after the fall of OKAY_B where that stands high (R401, R402, R404). -/
def execOkayPeriodBoundary (s : State) : Res :=
  .next (if atMultiple s (okayPeriod s) && holds s == 0 then
    okayEdge 1 { s with sio := { s.sio with toggling := true } } else s)

/-- SAFE_REQ_n falls and stays low for `lowNs`: 100 ns and more latch SAFE, less than 20 ns is ignored, between them the
latch is free (R406); source 121 follows the pin (R330). -/
def execSafeReqN (lowNs : Nat) (s : State) : Res :=
  .next (if lowNs < 20 then s
    else
      let s := { s with sio := { s.sio with reqLow := true } }
      match s.boot with
      | .off => s
      | _ =>
        let s := icuLevel 121 true s
        if 100 ≤ lowNs then latchSafe 7 0 0 s
        else if chooses s then latchSafe 7 0 0 (drawn s) else drawn s)

/-- SAFE_REQ_n returns high; SAFE stays latched (R406, R270). -/
def execSafeReqNRelease (s : State) : Res :=
  .next (icuLevel 121 false { s with sio := { s.sio with reqLow := false } })

/-- Pair `i` in a sample is valid: its balls are at opposite levels (R407). -/
def pairValid (x : Balls) (i : Nat) : Bool := x.p.getLsbD i != x.n.getLsbD i

/-- The fault of a pair over the samples of a re-read: KIND 1 not valid, 2 changed, 0 none (R409). -/
def pairFault (resetP : BitVec 8) (l : List Balls) (i : Nat) : Nat :=
  if l.any fun x => !pairValid x i then 1
  else if l.any fun x => x.p.getLsbD i != resetP.getLsbD i then 2 else 0

/-- SEAL_FAULT is latched with its kind and pair; only the first is recorded (R409). -/
def sealFault (kind pair : Nat) (s : State) : State :=
  if s.sio.fault then s
  else
    let s := { s with sio := { s.sio with fault := true, kind := kind, pair := pair } }
    latchSafe 6 0 0 (logError 10 pair 255 kind 0 s)

/-- The 10 ms re-read of the seal: four samples of every ball; none before the reset read, at which TB_SAFE starts in the model, and none in
ATTIC (R409). -/
def execSealReread (samples : List Balls) (s : State) : Res :=
  .next (if atMultiple s 4000000 && decide (0 < s.time.edges) && !(s.boot == .off) then
    match samples.getLast? with
    | none => s
    | some x =>
      let s := { s with sio := { s.sio with nowP := x.p, nowN := x.n, lastP := x.p, lastN := x.n } }
      match (List.range 8).find? fun i => !(pairFault s.sio.sealP samples i == 0) with
      | none => s
      | some i => icuEvent 122 (sealFault (pairFault s.sio.sealP samples i) i s)
  else s)

/-- A fence sequence of R124 stands between its steps 1 and 9. -/
def fencing (s : State) : Bool := [0, 1, 2, 3].any fun d => (die s d).seq.isSome

/-- OKAY_RELEASE (R405, R275, R410). -/
def execOkayRelease (h : Hdr) (s : State) : Res :=
  command h (fun s => finish h
    (lowest (safetyRights s h ++ [(s.evd.safe || alarmOn s || fencing s || inMaintenance s, eState)]))
    (fun s => { s with sio := { s.sio with release := false } }) s) s

/-! ### The telegram (R413 to R416) -/

/-- The 4 bytes of a value slot (R416). -/
def slotBytes (s : State) (n : Nat) : List Byte :=
  let v := tblGet ⟨0, 0, 0, 0, none⟩ s.sio.slots n
  match v.rec_ with
  | none => [0, 255, 0, 0]
  | some r =>
    if !bitOf s.sio.slotsEn n || !((part s v.part).st == 2) || r.verdict == 0 then [0, 255, 0, 0]
    else
      let age := holdAt 255 ((tbSafe s - r.from_) / 1000000)
      if r.verdict = 1 then
        match r.value with
        | some x =>
          if s.evd.safe then [3, BitVec.ofNat 8 age, 0, 0]
          else 1 :: BitVec.ofNat 8 age :: beBytes 2 (unsgn 16 (clampInt (-32768) 32767 x))
        | none => [3, BitVec.ofNat 8 age, 0, 0]
      else [BitVec.ofNat 8 r.verdict, BitVec.ofNat 8 age, 0, 0]

/-- The payload of a TYPE 0x01 telegram (R415). -/
def telegramPayload (s : State) : List Byte :=
  [BitVec.ofNat 8 (deviceState s), BitVec.ofNat 8 (holds s), BitVec.ofNat 8 (if s.evd.safe then s.evd.cause else 0), sealNow s,
   BitVec.ofNat 8 (if s.sio.fault then 16 * s.sio.kind + s.sio.pair else 0),
   BitVec.ofNat 8 (bit s.sio.timeout + 2 * bit (!(s.sio.rxCycle == 0)))] ++
  beBytes 2 s.sio.rxAlive ++ ((List.range 8).map (slotBytes s)).flatten

/-- The 64 bytes of the telegram built now (R413). -/
def telegramBytes (s : State) : List Byte :=
  let b := beBytes 4 s.sio.srcId.toNat ++ beBytes 4 s.sio.dstId.toNat ++ beBytes 2 s.sio.alive ++ [1] ++
    [BitVec.ofNat 8 (bit (!s.sio.toggling))] ++ telegramPayload s ++ beBytes 4 (nowNs s) ++
    [BitVec.ofNat 8 (nowEra s), 0, 0, 0]
  b ++ beBytes 4 (crc32 b).toNat

/-- The launch request of a telegram copy: on TB_SAFE, 200 µs after it is built (R414). -/
def telegramReq (s : State) : TxReq := ⟨true, true, (tbSafe s + 200000) % 2 ^ 34, false, 0, telegramBytes s⟩

/-- A copy is queued on a port that has an address (R414, R518). -/
def telegramOn (p : Nat) (r : TxReq) (s : State) : State := if (netPort s p).addr = 0 then s else netQueue p (r, true) s

/-- A telegram falls due 200 µs before a multiple of TX_CYCLE, from READY on: built and queued on both ports, or missed (R414). With no port
that has an address none is sent, and no ALIVE is consumed (R413, R518). The
firmware cannot build while the main core is halted; in an activation restart, which reads BOOT, none is due (R451). -/
def execTelegramBuild (inTime : Bool) (s : State) : Res :=
  .next (if s.sio.tgEnable && decide (2 ≤ deviceState s) && !(s.sio.txCycle == 0) &&
      (s.time.edges + 80000) % (s.sio.txCycle * 40000) == 0 then
    if inTime && !s.pair.halted then
      if (netPort s 0).addr = 0 && (netPort s 1).addr = 0 then s
      else
      let r := telegramReq s
      let s := telegramOn 1 r (telegramOn 0 r s)
      { s with sio := { s.sio with alive := wrapAt 16 (s.sio.alive + 1) } }
    else { s with sio := { s.sio with missed := up8 s.sio.missed } }
  else s)

/-! ### Receiving a telegram (R417, R418) -/

/-- The copy has 64 bytes and a valid CRC (R413). -/
def copyValid (b : List Byte) : Bool := b.length == 64 && ofBe (sub b 60 4) == (crc32 (b.take 60)).toNat

/-- A valid copy that is foreign (R417): not from the configured peer, not for this device, or not TYPE 0x02. -/
def copyForeign (s : State) (b : List Byte) : Bool :=
  !(ofBe (sub b 0 4) == s.sio.dstId.toNat) || !(ofBe (sub b 4 4) == s.sio.srcId.toNat) || !(rd b 10 1 == 2)

/-- An accepted telegram: used when ALIVE has moved on, or first after a reset or timeout, else a repeat (R418). -/
def telegramUse (b : List Byte) (s : State) : State :=
  let alive := ofBe (sub b 8 2)
  let d := (alive + 65536 - s.sio.rxAlive) % 65536
  if s.sio.rxFirst || s.sio.timeout || (decide (1 ≤ d) && decide (d ≤ 32767)) then
    { s with sio := { s.sio with payload := sub b 12 40, rxAlive := alive, valid := true, rxFirst := false,
                                 timeout := false, lastUsed := s.time.edges } }
  else { s with sio := { s.sio with repeat_ := up8 s.sio.repeat_ } }

/-- A pair has been judged: the wait closes and source 123 is signalled (R417, R418). -/
def pairJudged (f : State → State) (s : State) : State := icuEvent 123 (f { s with sio := { s.sio with wait := none } })

/-- A second valid copy with the same ALIVE (R417). -/
def pairBoth (a b : List Byte) (s : State) : State :=
  pairJudged (fun s =>
    if a = b then telegramUse a { s with sio := { s.sio with accepted := wrapAt 16 (s.sio.accepted + 1) } }
    else { s with sio := { s.sio with disagree := up8 s.sio.disagree } }) s

/-- A wait has ended with at most one valid copy (R417). -/
def pairOne (l : List (List Byte)) (s : State) : State :=
  pairJudged (fun s =>
    match l with
    | [a] =>
      if sealSingle s then telegramUse a { s with sio := { s.sio with single := up8 s.sio.single } }
      else { s with sio := { s.sio with lost := up8 s.sio.lost } }
    | _ => { s with sio := { s.sio with lost := up8 s.sio.lost } }) s

/-- A telegram copy arrives (R417). -/
def execTelegramCopyReceive (port : Fin 2) (bytes : List Byte) (s : State) : Res :=
  let s := icuEvent (72 + 2 * port.val) (modNet port (fun x => { x with rx := wrapAt 16 (x.rx + 1) }) s)
  let opened (l : List (List Byte)) (bad : Nat) (s : State) : State :=
    { s with sio := { s.sio with wait := some ⟨s.time.edges, l, bad⟩ } }
  .next (if s.sio.rxCycle = 0 || (netPort s port).addr = 0 then s
  else if copyValid bytes then
    if copyForeign s bytes then { s with sio := { s.sio with foreign := up8 s.sio.foreign } }
    else
      match s.sio.wait with
      | none => opened [bytes] 0 s
      | some w =>
        match w.copies with
        | [] => { s with sio := { s.sio with wait := some { w with copies := [bytes] } } }
        | a :: _ => if sub a 8 2 = sub bytes 8 2 then pairBoth a bytes s else s
  else
    match s.sio.wait with
    | none => opened [] 1 s
    | some w => { s with sio := { s.sio with wait := some { w with bad := w.bad + 1 } } })

/-- A wait of RX_CYCLE / 2 has run out (R417). -/
def execTelegramWaitExpiry (s : State) : Res :=
  .next (match s.sio.wait with
    | some w => if w.opened + s.sio.rxCycle * 20000 ≤ s.time.edges then pairOne w.copies s else s
    | none => s)

/-- No telegram has been used for 3 × RX_CYCLE (R418). -/
def execTelegramRxTimeout (s : State) : Res :=
  .next (if !(s.sio.rxCycle == 0) && !s.sio.timeout && decide (s.sio.lastUsed + 3 * s.sio.rxCycle * 40000 ≤ s.time.edges) then
    { s with sio := { s.sio with timeout := true, timeouts := up8 s.sio.timeouts } } else s)

/-! ### Settings (R411) -/

/-- A cycle count that TELEGRAM allows. -/
def cycleOk (n : Nat) : Bool := decide (10 ≤ n) && decide (n ≤ 1000)

/-- TELEGRAM's effect; UDP_PORT 0 means 50216 (R411). The time without a used telegram (R418) begins when receiving does, and an item that
leaves the device receiving does not begin it anew. -/
def telegramEffect (c : TgCfg) (s : State) : State :=
  { s with sio := { s.sio with
      tgEnable := c.enable, udpPort := if c.udpPort = 0 then 50216 else c.udpPort, srcId := c.srcId, dstId := c.dstId,
      txCycle := c.txCycle, rxCycle := c.rxCycle, peerNa := c.peerNa, peerNb := c.peerNb,
      lastUsed := if s.sio.rxCycle = 0 then s.time.edges else s.sio.lastUsed } }

/-- SAFETY_SET TELEGRAM (R411). -/
def execTelegram (h : Hdr) (cfg : TgCfg) (s : State) : Res :=
  command h (fun s => finish h
    (lowest (safetyRights s h ++ [(!cycleOk cfg.txCycle || !(cfg.rxCycle == 0 || cycleOk cfg.rxCycle), eFormat)]))
    (fun s => storeSetting 16 0 (.telegram h cfg) (telegramEffect cfg s)) s) s

/-- SLOT's effect: the slot is bound anew and shows no record yet (R416). -/
def slotEffect (c : SlotCfg) (s : State) : State :=
  let en := if c.enable then s.sio.slotsEn ||| 2 ^ c.slot else s.sio.slotsEn - (s.sio.slotsEn &&& 2 ^ c.slot)
  { s with sio := { s.sio with
      slotsEn := en, slots := tblSet ⟨0, 0, 0, 0, none⟩ s.sio.slots c.slot ⟨c.element, c.region, c.part, c.output, none⟩ } }

/-- A stored SLOT applied again: the value slot keeps the last record of a binding that is unchanged (R412, R416). -/
def slotAgain (c : SlotCfg) (s : State) : State :=
  let was : ValSlot := tblGet ⟨0, 0, 0, 0, none⟩ s.sio.slots c.slot
  let t := slotEffect c s
  if was.element = c.element && was.region = c.region && was.part = c.part && was.output = c.output then
    { t with sio := { t.sio with slots := tblSet ⟨0, 0, 0, 0, none⟩ t.sio.slots c.slot was } }
  else t

/-- SAFETY_SET SLOT (R411): seat A binds only partitions it owns. -/
def execSlot (h : Hdr) (cfg : SlotCfg) (s : State) : Res :=
  command h (fun s => finish h
    (lowest (safetyRights s h ++ [(h.seat == .a && !(ownerNo s cfg.part == 0), eRights),
      (decide (7 < cfg.slot) || decide (15 < cfg.part) || decide (15 < cfg.output) || decide (255 < cfg.region) ||
        decide (65535 < cfg.element), eFormat)]))
    (fun s => storeSetting 17 cfg.slot (.slot h cfg) (slotEffect cfg s)) s) s

end Sys2Proof.Machine
end

