-- ==== Sys2Proof/Machine/Time.lean ====
section
/-! DEFINITION. Machine/Time.lean: the commands of the time unit (R375 to R399, R411). -/

namespace Sys2Proof.Machine

/-- SAFETY_SET TIME, STEP (R389, R390). -/
def execTimeStep (src : TimeSrc) (base : Nat) (amount : Int) (s : State) : Res := timeAct src (.step amount) base s

/-- SAFETY_SET TIME, ADOPT (R389). -/
def execTimeAdopt (src : TimeSrc) (base : Nat) (s : State) : Res := timeAct src .adopt base s

/-- SAFETY_SET TIME, DISMISS (R389). -/
def execTimeDismiss (src : TimeSrc) (base : Nat) (s : State) : Res := timeAct src .dismiss base s

/-- SAFETY_SET TIME, PATH_ACK (R389, R392). -/
def execTimePathAck (src : TimeSrc) (base : Nat) (s : State) : Res := timeAct src .pathAck base s

/-- SAFETY_SET TIME_CFG (R411, R391, R399): an unknown base is E_FORMAT, a source that a loaded TIMEBIND rules out E_STATE. -/
def execTimeCfg (h : Hdr) (base : Nat) (ctrl : BitVec 4) (gain limit : Word) (pathHold : Nat) (s : State) : Res :=
  command h (fun s =>
    finish h (lowest (safetyRights s h ++ [(base == 0 || decide (3 < base), eFormat),
      (base == 3 && sourceBound s (fld ctrl.toNat 2 1), eState)]))
      (fun s => storeSetting 9 base (.timeCfg h base ctrl gain limit pathHold)
        (timeCfgEffect base ctrl.toNat gain.toNat limit.toNat pathHold s)) s) s

/-- TIM_XD_CFG's fields. -/
def xdWrite (v : Nat) (s : State) : State := { s with time := { s.time with xdBound := fld v 15 0, xdEn := bitOf v 16 } }

/-- SAFETY_SET XD (R393, R411). -/
def execXd (h : Hdr) (cfg : Word) (s : State) : Res :=
  command h (fun s => finish h (lowest (safetyRights s h))
    (fun s => storeSetting 10 0 (.xd h cfg) (xdWrite cfg.toNat s)) s) s

/-- An offset sample: written through TIM_OFFSET by the time stack with FEED 0, or with FEED 1 the next one that the port engine has
computed (R384, R385, R399; log 22). -/
def execOffsetSample (base : Nat) (hi : Option Word) (theta : Int) (s : State) : Res :=
  .next (if base = 1 ∨ base = 2 then
    match hi with
    | some w => if s.pair.halted then s else offsetWrite base w.toNat s
    | none =>
      if (baseOf s base).feed && (netPort s (base - 1)).samples.head? == some theta then
        onOffset base theta (modNet (base - 1) (fun x => { x with samples := x.samples.drop 1 }) s)
      else s
  else s)

/-- A path sample written through TIM_PATHDLY (R392, R399). -/
def execPathSample (base : Nat) (sample : Int) (s : State) : Res :=
  .next (if (baseOf s base).feed || s.pair.halted then s else onPath base sample s)

/-- TB_APP's own sample, once in every millisecond of TB_SAFE, while its source is SET (R384, R385). -/
def execAppSample (s : State) : Res :=
  let src := s.time.app.source
  .next (if s.time.edges % 400000 = 0 ∧ src ≤ 1 ∧ (baseOf s (src + 1)).set then
    onOffset 3 (sgn 64 (unsgn 64 ((longOf s 3 : Int) - longOf s (src + 1)))) s
  else s)

/-- The cross-domain comparison, once in every millisecond of TB_SAFE (R393). -/
def execXdSample (s : State) : Res :=
  .next (if s.time.edges % 400000 = 0 ∧ s.time.xdEn ∧ s.time.na.set ∧ s.time.nb.set then xdEffect s else s)

/-- The 32-bit nanosecond count of a base has wrapped by counting: the upper word has just changed, from 2^64 − 1 to 0 too (R376, R380). -/
def execTimebaseWrap (base : Fin 4) (s : State) : Res :=
  .next (if longOf s base % 2 ^ 32 < 3 ∧ (2 ^ 32 ≤ longOf s base ∨ (base.val ≠ 0 ∧ 2 ≤ s.time.edges)) then icuEvent (64 + base) s else s)

end Sys2Proof.Machine
end

