-- ==== Sys2Proof/Machine/Boot.lean ====
section
/-! DEFINITION. Machine/Boot.lean: resets, bring-up, D resets, discovery and the ends of trials as shared operations (R148, R152,
R408, R412, R424 to R432, R436, R444, R449, R456 to R461, R465, R469). -/

namespace Sys2Proof.Machine

/-! ### Stored settings (R412) -/

/-- WDG_MODE's effect: at once on a unit that is not enabled, else at its next service (R348). -/
def wdgModeEffect (n m w : Nat) (s : State) : State :=
  modWdg n (fun u => if wdgCounts u then { u with pendMode := some (m == 1, w) } else { u with mode := m == 1, width := w }) s

/-- A stored item is applied. -/
def applySetting (i : Instr) (s : State) : State :=
  match i with
  | .wdgMode _ unit mode width => wdgModeEffect unit mode width s
  | .timeCfg _ base ctrl gain limit hold => timeCfgEffect base ctrl.toNat gain.toNat limit.toNat hold s
  | .xd _ cfg => xdWrite cfg.toNat s
  | .netCfg _ port addr mask gw tscfg => netCfgEffect port addr mask gw tscfg s
  | .telegram _ cfg => telegramEffect cfg s
  | .slot _ cfg => slotAgain cfg s
  | _ => s

/-- The firmware applies what is stored. -/
def applySettings (s : State) : State := s.upd.settings.foldl (fun s e => applySetting e.2 s) s

/-! ### Resets of kind P, H, W and Y, and exits from ATTIC (R456, R469) -/

/-- The outputs that a reset leaves undriven (R457, R496). -/
def outputsOff (s : State) : State :=
  let s := if s.sio.okayPin = 0 then s else emit (.okay false false) s
  let s := if wdPulseLow s then emit (.wdPulse false) s else s
  let s := if s.pwr.railsOff then emit (.railsOff false) s else s
  if s.cap.ppsOut then emit (.ppsOut false) s else s

/-- A store or erase that a reset meets leaves the earlier contents or the new ones (R301). -/
def storeCutOne (e : Hdr × Option Stored) (s : State) : State :=
  let new := (s.seats.stored.filter fun y => !(y.part == e.1.part)) ++ e.2.toList
  drawn { s with seats := { s.seats with stored := if chooses s then new else s.seats.stored } }

/-- Every store or erase that a reset of a kind that all seats meet interrupts. -/
def storeCut (s : State) : State := s.seats.storing.foldl (fun s e => storeCutOne e s) s

/-- Everything at its Reset value but what R469 keeps: the eMRAM and the flash, and but for kind P the attic, whose wake record does not
survive a reset that meets ATTIC (R14, R472). `code` as
PWR_RESET.LAST: 0 P, 1 H, 2 W, 3 Y, 4 exit from ATTIC. -/
def afterReset (code : Nat) (s : State) : State :=
  let s := storeCut (outputsOff s)
  let rec_ := !(code == 0) && !(code == 1 && s.boot == .off)
  { State.reset with
    pending := s.pending
    free := s.free
    out := s.out
    upd := { kinds := s.upd.kinds.map (fun e => (e.1, kindReset e.2)), current := s.upd.current, locked := s.upd.locked
             boots := s.upd.boots + 1, settings := s.upd.settings }
    seats := { a := { perst := s.seats.a.perst, rejects := s.seats.a.rejects }
               b := { perst := s.seats.b.perst, rejects := s.seats.b.rejects }, stored := s.seats.stored }
    sio := { reqLow := s.sio.reqLow }
    pair := { tap := s.pair.tap }
    icu := if code = 4 then { wake := s.icu.wake } else {}
    pwr := { lastRst := code
             hwy := if code = 0 then 0 else if code = 4 then s.pwr.hwy else up16 s.pwr.hwy
             wakes := if code = 0 then 0 else if code = 4 then up16 s.pwr.wakes else s.pwr.wakes
             recCause := if rec_ then s.pwr.recCause else 0
             recSrc := if rec_ then s.pwr.recSrc else 0
             ticks := if rec_ then s.pwr.ticks else 0
             avs := if code = 0 ∨ code = 4 then 550 else s.pwr.avs
             ram := if code = 0 then [] else s.pwr.ram
             wakeLow := s.pwr.wakeLow - s.time.edges } }

/-- The boot ROM reads the seal (R408). -/
def sealRead (b : Balls) (s : State) : State :=
  let s := { s with sio := { s.sio with sealP := b.p, lastP := b.p, lastN := b.n } }
  match (List.range 8).find? fun i => !pairValid b i with
  | none => s
  | some i => sealFault 3 i { s with sio := { s.sio with restricted := true } }

/-- What a task slot's declaration asks for: its state, budget, CRC units and services (R325, R372). -/
def taskDeclared (d : Nat) : UserTask :=
  let k := d % 3
  { state := if k = 1 then 1 else if k = 2 then 3 else 0, budget := if k = 1 then d / 3 % 100 + 1 else 0
    units := if k = 0 then 0 else d / 300 % 16 * 16, services := if k = 0 then 0 else d / 4800 }

/-- The user task slots that the running firmware image declares; one that reads FAULTED stays so until a reset (R325, R327). A CRC unit is
granted to one slot (R372), and budgets together hold 300 us: DESIGN CHOICE: of declarations that ask for more, the lower slot has its way
(log 102). -/
def declareTasks (s : State) : State :=
  let others (s : State) (n : Nat) : List UserTask := (List.range n).map (userTask s)
  (List.range 8).foldl (fun s n =>
    let t := taskDeclared (Config.taskDecl (kindOf s 1).bodyDigest n)
    let used := (others s n).foldl (fun m u => m ||| u.units) 0
    let room := 300 - ((others s n).map (·.budget)).sum
    modUser n (fun u => { u with
      state := if u.state = 2 then 2 else t.state, budget := min t.budget room, units := t.units - (t.units &&& used), services := t.services }) s) s

/-- The VDD_AX target becomes the one stored for the part, from 520 to 600 mV (R502). -/
def setAvs (s : State) : State :=
  let v := 520 + Config.avsTarget % 81
  emit (.avs v) { s with pwr := { s.pwr with avs := v } }

/-- Steps 5 and 6 of R425 after the firmware has been chosen: one tap test, the jump to it, stored settings, microcode, VDD_AX, X. DESIGN
CHOICE: a half answers the test as it answered the last (log 103). -/
def firmwareUp (s : State) : State :=
  let s := tapTest s.pair.tap s
  let s := declareTasks { s with upd := { s.upd with closed := true, seatSOnly := false } }
  let s := setAvs (bootKind 2 (applySettings s))
  eachDie releaseDie { s with releaseX := some s.time.edges }

/-- Steps 1 to 4 of R425 after a reset: the identity region is locked, SAFE_REQ_n and the seal are read, WDG0 is armed with 10 s (R408, R431,
R435). -/
def pinsRead (code : Nat) (b : Balls) (s : State) : State :=
  let s := afterReset code s
  let s := { s with upd := { s.upd with locked := true, aesSlot := Config.deviceKey, shakeSlot := Config.attestKey } }
  let s := if s.sio.reqLow then latchSafe 7 0 0 (icuLevel 121 true s) else s
  let s := modWdg 0 (fun u => { u with close := 10000000 }) (sealRead b s)
  modSeat .a (fun t => { t with cfgReady := !t.perst }) (modSeat .b (fun t => { t with cfgReady := !t.perst }) s)

/-- The boot ROM mends the counters and chooses the images of kinds 1 and 3 (R436, R444). -/
def imagesChosen (s : State) : State := bootKind 3 (bootKind 1 ([1, 2, 3].foldl (fun s k => modKind k (countersMended k) s) s))

/-- Steps 1 to 6 of R425; with no firmware the boot ROM serves seat S alone (R432). -/
def bringUp (code : Nat) (b : Balls) (s : State) : State :=
  let s := imagesChosen (pinsRead code b s)
  if (kindOf s 1).bootFail then { s with upd := { s.upd with seatSOnly := true } } else firmwareUp s

/-- The balls as last sampled; a reset that no pin event brings reads these (log 41). -/
def ballsNow (s : State) : Balls := ⟨s.sio.lastP, s.sio.lastN⟩

/-- A reset of kind W (R352, R456). -/
def resetW (s : State) : State := bringUp 2 (ballsNow s) s

/-- A reset of kind Y (R458). -/
def resetY (s : State) : State := bringUp 3 (ballsNow s) s

/-- What a watchdog operation leaves, with its reset of kind W where it asks for one. -/
def wdgEnds (r : State × Bool) : State := if r.2 then resetW r.1 else r.1

/-! ### D resets (R459, R460) -/

/-- No placement on the die is usable for a partition loaded before (R460). -/
def placesLost (d : Nat) (s : State) : State :=
  (List.range 16).foldl (fun s n =>
    match (part s n).layout with
    | none => s
    | some l => (List.range l.regions.length).foldl (fun s g =>
        let r := l.regions.getD g default
        modRegion n g (fun x => { x with
          pUsable := x.pUsable && !((placeRec r 3).map (·.die) == some d)
          usable := (List.range 3).map fun k => x.usable.getD k false && !((r.places[k]?.map (·.die)) == some d) }) s) s) s

/-- What a D reset of any die returns to its Reset value in the companion: the fields whose Survives column leaves out D (R13, R14;
log 78). -/
def fieldsDReset (s : State) : State :=
  let s := [1, 2, 3].foldl (fun s b => modBase b (fun x => { x with offLo := 0 }) s) (ringFields (capDReset s))
  { s with net := s.net.map (fun e => (e.1, { e.2 with stamps := [] })) }

/-- Steps 1 to 3 of R459: the die is held in reset, its frames published, its regions moved; it is released again. -/
def dieDReset (d : Nat) (h : Option Hdr) (s : State) : State :=
  let s := fieldsDReset { s with pwr := { s.pwr with dResets := up8 s.pwr.dResets } }
  let h := h.orElse fun _ => (die s d).dPending
  let s := placesLost d (holdInReset d s)
  let s := { s with ring := { s.ring with present := s.ring.present - s.ring.present / 2 ^ d % 2 * 2 ^ d } }
  let s := (s.frames.map (·.id)).foldl (fun s id => lostFrame d id s) s
  let s := fenceMoves d false s
  modDie d (fun x => { x with dReset := some s.time.edges, dPending := h }) (releaseDie d s)

/-- The die runs, its copy of TB_SAFE set: by a time block before, else within the ±10 ns of R28; where in them is free (R154). -/
def copySet (d : Nat) (s : State) : State :=
  if (die s d).tbSet then modDie d (fun x => { x with st := 4 }) s
  else
    let o : Int := (Config.freeNat s.free % 21 : Nat) - 10
    drawn (modDie d (fun x => { x with
      st := 4, tbSet := true, tbOffset := o, tbTarget := o, tbAt := s.time.edges
      tbSource := neighbour (d + 1) (timeSide s (d + 1)) }) s)

/-- The descriptors of loaded partitions go to a die as their STREAM records give them, and their windows open (R146, R459). -/
def contextsAgain (d : Nat) (s : State) : State :=
  (List.range 16).foldl (fun s n =>
    match (part s n).layout with
    | none => s
    | some l =>
      let w := partWindows s n d l
      sendDescriptors n d (modDie d (fun x => { x with windows := x.windows ++ w }) s)) s

/-- A D reset ends well: step 4 of R459, whose command completes when every descriptor is there. -/
def dResetEnds (d : Nat) (s : State) : State :=
  let s := contextsAgain d (copySet d s)
  dResetSettle d { s with ring := { s.ring with present := s.ring.present ||| 2 ^ d } }

/-- A D reset ends with the die ABSENT (R460). -/
def dResetFails (d : Nat) (s : State) : State :=
  let h := (die s d).dPending
  let s := modDie d (fun x => { x with dReset := none, dPending := none }) s
  match h with
  | some h => complete h eAbsent s
  | none => s

/-! ### Trials that end (R448, R449, R451) -/

/-- An activation restart begins: no commands, the device state reads BOOT, the companion cores restart (R451). -/
def restartBegins (s : State) : State :=
  let again (c : CpuRegs) : CpuRegs := { ran := true, trig := c.trig, tsel := c.tsel }
  let p := { s.pair with main := again s.pair.main, checker := again s.pair.checker, sram := [], asleep := false, asleepC := false }
  okaySettle { s with upd := { s.upd with restart := true }, pair := p }

/-- Every present die is reset with kind D for another microcode (R448, R449). -/
def microcodeResets (s : State) : State := eachDie (fun d s => if diePresent s d then dieDReset d none s else s) s

/-- The kind's update ends without CONFIRM: its active slot is booted again, by kind (R449). -/
def revertKind (k : Nat) (s : State) : State :=
  let failed := (kindOf s k).version
  let s := modKind k (fun x => if k = 1 then trialEnds x else runActive s.upd.aesSlot k (trialEnds x)) s
  let s := icuEvent 136 (logError 15 k 255 failed 0 { s with upd := { s.upd with current := if s.upd.current = k then 0 else s.upd.current } })
  if k = 1 then restartBegins s else if k = 2 then microcodeResets s else s

/-- A die that was present before a trial of kind 2 is FAILED or ABSENT after it: a second trial ends so; after a first one the
next boot is the second (R449). -/
def trialDieLost (d : Nat) (s : State) : State :=
  if inTrial s 2 && bitOf (kindOf s 2).present d && decide (2 ≤ (kindOf s 2).trials) then revertKind 2 s else s

/-! ### Discovery (R152, R427) -/

/-- Discovery is to come: at bring-up after X, and in an exit from NAP. -/
def discovering (s : State) : Bool := ((s.boot == .boot && s.releaseX.isSome) || s.pwr.waking) && s.ring.discovery == 0

/-- The companion sends DISCOVER with a hop count of 0 (R152). -/
def sendDiscover (east : Bool) (s : State) : State :=
  let r := if east then { s.ring with east := some s.time.edges } else { s.ring with west := some s.time.edges }
  let k := seqKey 0 7 1
  let q := nextSeqOf s 0 7 1
  let t := if portUp s 0 east then [(east, neighbour 0 east, 0)] else []
  let s := { s with ring := { r with seqNo := tblSet 0 s.ring.seqNo k ((q + 1) % 256), tokens := t } }
  if portUp s 0 east then portQueue 0 east ⟨1, !east, false, 7, 0, 11, 0, q, 0, []⟩ none s else s

/-- Outcome of discovery for a die by its hop index (R152). -/
def hopRight (d : Nat) (h : Bool × Nat) : Bool := if h.1 then h.2 == d + 1 else h.2 == 5 - (d + 1)

/-- Discovery decides about one die (R152): present, a mismatch, or not reached. -/
def decideDie (d : Nat) (s : State) : State :=
  if (die s d).inReset then s
  else
    match (die s d).hello, (die s d).hop with
    | true, some h =>
      if hopRight d h then
        let s := { s with ring := { s.ring with present := s.ring.present ||| 2 ^ d } }
        if (die s d).st = 5 then s else copySet d s
      else
        let s := dieAbsent d 3 s
        { s with ring := { s.ring with mismatch := s.ring.mismatch ||| 2 ^ d } }
    | _, _ => dieAbsent d 1 s

/-- What an exit from NAP restores (R465 step 4): every DCRC is checked, the store rooms take their constants from the cellar copies. -/
def napRestored (s : State) : State :=
  let s := eachDie (fun d s => (die s d).ctx.foldl (fun s e => if ctxBad e.2 then contextFault d e.1 s else s) s) s
  (List.range 16).foldl (fun s n =>
    match (part s n).layout with
    | none => s
    | some l => (List.range l.regions.length).foldl (fun s g => stageRegion n g s) s) s

/-- An exit from NAP ends (R465 step 5). -/
def napExitEnds (s : State) : State :=
  let s := napRestored s
  let h := s.pwr.wakeHdr
  let s := { s with pwr := { s.pwr with state := 0, waking := false, wakeHdr := none, outcome := 1 } }
  let s := eachDie (fenceMoves · false) s
  let s := match h with
    | some h => complete h stOk s
    | none => s
  icuEvent 144 s

/-- Discovery ends (R152, R425 steps 11 to 13, R465): 3 with no die present, else 1 closed or 2 chain. -/
def discoveryEnds (closed : Bool) (s : State) : State :=
  let s := eachDie decideDie s
  let r := if s.ring.present = 0 then 3 else if closed then 1 else 2
  let s := icuEvent 41 { s with ring := { s.ring with discovery := r, east := none, west := none, tokens := [] } }
  if s.boot = .boot then loadStored (storedFrom s 0) { s with boot := .ready }
  else if s.pwr.waking then napExitEnds s else s

/-- All dies have announced themselves or are ABSENT: DISCOVER goes east (R427). -/
def discoverWhenAll (s : State) : State :=
  if discovering s && s.ring.east.isNone && [0, 1, 2, 3].all (fun d => (die s d).hello || (die s d).st == 6) then sendDiscover true s else s

/-! ### HELLO (R131, R132, R152, R425 steps 8 to 10) -/

/-- Self-test fences that were not there before are recorded; at bring-up that is every one (R485). -/
def selfTestLog (d : Nat) (t : SelfTest) (s : State) : State :=
  let x := die s d
  let wasCl (c : Nat) : Bool := decide (c ∈ x.oldClusters) || decide (c ∈ x.clFenceRt)
  let wasCore (c k : Nat) : Bool := wasCl c || bitOf (tblGet 0 x.oldCores c) k || bitOf (tblGet 0 x.fenceRt c) k
  let s := t.clusters.foldl (fun s c => if wasCl c then s else fenceLog d c 0xFF 8 (ownerAt s d c) 0xFFFF 0xFFFFFFFF s) s
  t.cores.foldl (fun s u => if wasCore u.1 u.2 then s else fenceLog d u.1 u.2 8 (ownerAt s d u.1) 0xFFFF 0xFFFFFFFF s) s

/-- What self-test found, brought to the units that exist: a cluster all of whose cores are fenced is fenced whole, and cores of a cluster
fenced whole are not listed apart (R123). -/
def selfTestOf (t : SelfTest) : SelfTest :=
  let cores := (t.cores.filter fun u => decide (u.1 < 64) && decide (u.2 < 32)).eraseDups
  let cl := ((t.clusters ++ (List.range 64).filter fun c => decide (32 ≤ (cores.filter fun u => u.1 == c).length)).filter fun c => decide (c < 64)).eraseDups
  ⟨cores.filter fun u => !decide (u.1 ∈ cl), cl, if t.dieFail ≤ 6 then t.dieFail else 0⟩

/-- Fences of self-test and of run time together leave a cluster no healthy core: it is fenced whole (R123, R130). -/
def fencesMerged (x : Die) : Die :=
  { x with clFenceRt := x.clFenceRt ++ (List.range 64).filter fun c => !clFenced x c && (healthyList x c).isEmpty }

/-- The clusters that loaded layouts give on a die (R133). -/
def ownersAgain (d : Nat) (s : State) : State :=
  s.parts.foldl (fun s e => match heldLayout e.2 with
    | some l => ownersOn e.1 l d s
    | none => s) s

/-- A die announces itself with its self-test's outcome: ANNOUNCED, or FAILED with its alarm pair at the alarm code, which is not
heard (R27, R131 to R133). -/
def dieHello (d : Nat) (t : SelfTest) (s : State) : State :=
  let s := selfTestLog d t s
  let s := modDie d (fun x => fencesMerged { x with
    hello := true, st := if t.dieFail = 0 then 3 else 5, dieFail := t.dieFail
    stCores := t.cores.length, stClusters := t.clusters.length, clFenceSt := t.clusters
    fenceSt := t.cores.foldl (fun m u => tblMod 0 m u.1 fun n => n ||| 2 ^ u.2) [] }) (ownersAgain d s)
  if t.dieFail = 0 then s
  else
    let s := logError 6 d 255 t.dieFail 0 (dieCount d 0x100C 1 (modDie d (fun x => { x with almT := true, almF := false }) s))
    trialDieLost d (icuLevel (32 + d) true s)

end Sys2Proof.Machine
end

