-- ==== Sys2Proof/Machine/Power.lean ====
section
/-! DEFINITION. Machine/Power.lean: the commands and events of resets, power states, bring-up and discovery (R23, R152, R424 to R431,
R456 to R468, R499, R507). -/

namespace Sys2Proof.Machine

/-! ### Resets -/

/-- POWER_ON: a reset of kind P with bring-up; the identity region is locked from here on (R424, R435, R456). -/
def execPowerOn (balls : Balls) (s : State) : Res := .next (bringUp 0 balls s)

/-- RESET_N: 10 µs and more reset, less than 1 µs is ignored, between them the reset is free (R457). -/
def execResetN (lowNs : Nat) (balls : Balls) (s : State) : Res :=
  .next (if lowNs < 1000 then s
    else if 10000 ≤ lowNs then bringUp 1 balls s
    else if chooses s then bringUp 1 balls (drawn s) else drawn s)

/-- SUPPLY_BROWNOUT: 2 µs and more below the trip reset, less than 0.5 µs is ignored, between them the reset is free; in ATTIC
only VDD_ATT is monitored (R499). -/
def execSupplyBrownout (supply : Supply) (lowNs : Nat) (balls : Balls) (s : State) : Res :=
  let code := if supply = .vddAtt then 0 else 1
  .next (if lowNs < 500 ∨ (s.boot = .off ∧ supply ≠ .vddAtt) then s
    else if 2000 ≤ lowNs then bringUp code balls s
    else if chooses s then bringUp code balls (drawn s) else drawn s)

/-- SYSTEM_RESET: the completion is posted, then a reset of kind Y (R458). -/
def execSystemReset (h : Hdr) (s : State) : Res :=
  command h (fun s =>
    let st := lowest [onlyAS h]
    if st = stOk then resetY (complete h stOk s) else complete h st s) s

/-- DIE_RESET (R459). In NAP, or in an entry to or an exit from it, no die can be reset, which is E_STATE (log 42). -/
def execDieReset (h : Hdr) (die : Nat) (s : State) : Res :=
  command h (fun s =>
    let x := Machine.die s die
    let st := lowest [onlyS h, (decide (3 < die), eFormat), (decide (die ≤ 3) && x.st == 6, eAbsent),
      (decide (die ≤ 3) && x.dReset.isSome, eBusy), (inNap s, eState)]
    if st = stOk then dieDReset die (some h) s else complete h st s) s

/-! ### Clocks and temperatures -/

/-- PLL_LOCK_LOSS: an AX die drives its alarm pair, the CX die enters SAFE (R23). -/
def execPllLockLoss (node : Fin 5) (s : State) : Res :=
  .next (if node = 0 then (if s.boot = .off then s else latchSafe 8 0 0 s)
    else
      let d := node.val - 1
      if (die s d).inReset then s else alarmRaise d s)

/-- REFCLK_FAULT (R23); the check begins 1 s after P0 (R509). -/
def execRefclkFault (s : State) : Res := .next (if s.boot = .off ∨ s.time.edges < 400000000 then s else latchSafe 8 0 0 s)

/-- The highest of the S10 temperatures so far, with another one (R507). -/
def maxS10 (a : Option Nat) (b : Nat) : Option Nat := some (a.elim b fun a => if sgn 10 a < sgn 10 b then b else a)

/-- TEMP_UPDATE (R507): NOW, and PEAK as the highest NOW. -/
def execTempUpdate (node : Fin 5) (t : BitVec 10) (s : State) : Res :=
  let v := t.toNat
  .next (if node = 0 then
    (if s.boot = .off then s
     else { s with pwr := { s.pwr with now := v, peak := maxS10 s.pwr.peak v } })
  else
    let d := node.val - 1
    if (die s d).inReset then s
    else modDie d (fun x => { x with now := v, peak := maxS10 x.peak v }) s)

/-! ### SLEEP (R462 to R468) -/

/-- A wake source is present (R468): WAKE_n low, a ready wake-set member, for ATTIC SAFE_REQ_n low as a member. -/
def wakePresent (s : State) (attic : Bool) : Bool :=
  decide (s.time.edges < s.pwr.wakeLow) || wakeMember s || (attic && s.sio.reqLow && inWakeSet s 121)

/-- What refuses a SLEEP (R463). -/
def sleepStatus (s : State) (h : Hdr) (target : Nat) : Nat :=
  lowest [onlyAS h, (deviceState s == 1, eState), (s.pwr.napping.isSome || s.pwr.waking, eBusy),
    (target == 1 && s.pwr.state == 2, eState),
    (target == 3 && (s.evd.safe || anyTrial s || inMaintenance s), eState),
    (target == 2 && inTrial s 2, eState)]

/-- OUTCOME and REQ of PWR_STATUS (R471). -/
def sleepNote (target outcome : Nat) (s : State) : State := { s with pwr := { s.pwr with req := target, outcome := outcome } }

/-- A SLEEP: refused, without a change where the state is the present one, aborted by a wake source, or entered (R463, R468). -/
def sleep (h : Hdr) (target : Nat) (enter : State → State) (s : State) : Res :=
  command h (fun s =>
    let st := sleepStatus s h target
    if st ≠ stOk then complete h st (if (onlyAS h).1 then s else sleepNote target 3 s)
    else if target = s.pwr.state then complete h stOk s
    else if target ≠ 0 ∧ wakePresent s (target == 3) = true then
      icuEvent 144 (completeWith h eBusy 2 0 0 [] (sleepNote target 2 s))
    else enter (sleepNote target 0 s)) s

/-- SLEEP_RUN: leaves DOZE at once, or starts the exit from NAP (R464, R465). -/
def execSleepRun (h : Hdr) (s : State) : Res :=
  sleep h 0 (fun s =>
    if s.pwr.state = 2 then beginNapExit (some h) s
    else
      let s := { s with pwr := { s.pwr with state := 0, outcome := 1 }, pair := { s.pair with asleep := false, asleepC := false } }
      complete h stOk (icuEvent 144 s)) s

/-- SLEEP_DOZE: the cores gate their clocks when idle (R464). -/
def execSleepDoze (h : Hdr) (s : State) : Res :=
  sleep h 1 (fun s => complete h stOk (icuEvent 144
    { s with pwr := { s.pwr with state := 1, outcome := 1 }, pair := { s.pair with asleep := true, asleepC := splitNow s } })) s

/-- SLEEP_NAP: step 1 of the entry: every RUNNING partition is stopped, the state reads READY (R465). -/
def execSleepNap (h : Hdr) (s : State) : Res :=
  sleep h 2 (fun s =>
    let s := (List.range 16).foldl (fun s n => stopPart n s) s
    icuSettle (okaySettle { s with pwr := { s.pwr with napping := some h }, pair := { s.pair with asleep := false, asleepC := false } })) s

/-- What the device is in ATTIC: the attic alone (R456, R466, R469). -/
def atticState (s : State) : State :=
  let t := afterReset 4 s
  emit (.railsOff true) { t with
    boot := .off, upd := { t.upd with boots := s.upd.boots, closed := s.upd.closed }
    time := { edges := s.time.edges }
    pwr := { t.pwr with state := 3, lastRst := s.pwr.lastRst, wakes := s.pwr.wakes, atticAt := s.time.edges, timer := s.pwr.timer
                        wakeLow := s.pwr.wakeLow, railsOff := true } }

/-- SLEEP_ATTIC: launching stops, frames in flight are discarded, the completion is posted, the islands go down (R466). -/
def execSleepAttic (h : Hdr) (timer : Nat) (s : State) : Res :=
  sleep h 3 (fun s => atticState (complete h stOk (icuEvent 144
    { s with pwr := { s.pwr with outcome := 1, timer := timer % 2 ^ 32 }, frames := [] }))) s

/-- DOZE_TICK: the duty tick runs the gated cores (R464). -/
def execDozeTick (s : State) : Res :=
  .next (if s.pwr.state = 1 ∧ s.time.edges % (s.pwr.tick * 40000) = 0 then
    icuSettle { s with pair := { s.pair with asleep := false, asleepC := false } } else s)

/-- What a die keeps in NAP: its cellar with the context table and fence list saved there (R160, R465, R469). -/
def dieNap (x : Die) : Die :=
  { dieGone x with
    st := 7, ctx := x.ctx, cellar := x.cellar, poison := x.poison, corrected := x.corrected, uncorrected := x.uncorrected
    scrubDone := x.scrubDone, programs := x.programs, windows := x.windows }

/-- A die is power-gated, unless it is ABSENT (R465 steps 2 and 3). -/
def dieToNap (d : Nat) (s : State) : State :=
  if (die s d).st = 6 then s
  else
    let s := endFenceCmds d s
    snapGone d (dieLinksDown d (alarmChange (modDie d dieNap) s))

/-- NAP_SELF_REFRESH: with the last started frame published, the dies are gated and the command completes; a wake that arose
meanwhile starts the exit at once (R465, R468). An entry waits for a D reset in progress (log 42). -/
def execNapSelfRefresh (s : State) : Res :=
  .next (match s.pwr.napping with
  | none => s
  | some h =>
    if !s.frames.isEmpty || [0, 1, 2, 3].any (fun d => (die s d).dReset.isSome) then s
    else
      let s := capNap (eachDie dieToNap s)
      let wake := s.pwr.wakePend || wakePresent s false
      let s := [1, 2, 3].foldl (fun s b => modBase b (fun x => { x with offLo := 0 }) s) (ringFields s)
      let s := { s with
        net := s.net.map (fun e => (e.1, { e.2 with stamps := [] }))
        ring := { s.ring with present := 0, east := none, west := none, tokens := [] }
        pwr := { s.pwr with state := 2, napping := none, outcome := 1, wakePend := false } }
      let s := icuEvent 144 (complete h stOk s)
      if wake && !s.pwr.waking then beginNapExit none s else s)

/-! ### Waking (R462, R465, R467) -/

/-- The exit from ATTIC: the wake record, the time spent there, RAILS_OFF_n, then bring-up (R467, R472, R501). -/
def atticWake (cause src : Nat) (b : Balls) (s : State) : State :=
  let n := (s.time.edges - s.pwr.atticAt) * 8192 / 100000000
  bringUp 4 b (emit (.railsOff false) { s with pwr := { s.pwr with
    railsOff := false, recCause := cause, recSrc := if cause = 2 then src else 0, ticks := min 0xFFFFFFFF n } })

/-- WAKE_n is low from now on for `lowNs`, or longer as it was already (R462, R468). -/
def wakeSeen (lowNs : Nat) (s : State) : State :=
  { s with pwr := { s.pwr with wakeLow := max s.pwr.wakeLow (s.time.edges + nsEdges lowNs) } }

/-- WAKE_n low for `lowNs` wakes from NAP at 1 µs, and from ATTIC when two ticks of 32.768 kHz see it; one tick may or may not be enough, as
the pin meets the samples (R462, R467). A NAP entry in progress ends first. -/
def wakeTaken (lowNs : Nat) (balls : Balls) (s : State) : State :=
  if s.boot = .off then
    (if 61036 ≤ lowNs then atticWake 1 0 balls s
     else if lowNs ≤ 30517 then s
     else if chooses s then atticWake 1 0 balls (drawn s) else drawn s)
  else if lowNs < 1000 then s
  else if s.pwr.napping.isSome then { s with pwr := { s.pwr with wakePend := true } }
  else if s.pwr.state = 2 ∧ s.pwr.waking = false then beginNapExit none s else s

/-- WAKE_N (R462, R467, R510). -/
def execWakeN (lowNs : Nat) (balls : Balls) (s : State) : Res := .next (wakeTaken lowNs balls (wakeSeen lowNs s))

/-- The sources of the pins that the attic samples (R467). -/
def atticPin (n : Nat) : Bool := (decide (104 ≤ n) && decide (n ≤ 112)) || n == 121

/-- ATTIC_PIN_WAKE: an edge of EVT or PPS_IN, or SAFE_REQ_n low, as a member of the wake set (R467). -/
def execAtticPinWake (source : Nat) (balls : Balls) (s : State) : Res :=
  .next (if s.boot = .off && atticPin source && inWakeSet s source && (!(source == 121) || s.sio.reqLow) then
    atticWake 2 source balls s else s)

/-- ATTIC_TIMER_WAKE: TIMER seconds after the entry (R467). -/
def execAtticTimerWake (balls : Balls) (s : State) : Res :=
  .next (if s.boot = .off ∧ s.pwr.timer ≠ 0 ∧ s.pwr.atticAt + s.pwr.timer * 400000000 ≤ s.time.edges then atticWake 3 0 balls s else s)

/-! ### Announcement and discovery (R152, R427, R459, R465) -/

/-- 1.5 s have passed since a die's release. -/
def announceLate (s : State) (d : Nat) : Bool := decide ((die s d).released + 600000000 ≤ s.time.edges)

/-- A die that did not announce itself in time is ABSENT; a D reset ends with E_ABSENT, a trial of kind 2 has failed (R152, R449,
R460). -/
def announceFails (d : Nat) (s : State) : State :=
  let h := (die s d).dReset.isSome
  let s := if h then dResetFails d s else s
  discoverWhenAll (trialDieLost d (dieAbsent d 1 s))

/-- A way from a die to the companion is up. -/
def heardBy (s : State) (d : Nat) : Bool := [true, false].any fun e => pathUp s.ring.up (d + 1) 0 e

/-- HELLO goes to node 0 on both ports of a die (R138, R152). -/
def sendHello (d : Nat) (s : State) : State :=
  let q := nextSeqOf s (d + 1) 0 1
  let s := { s with ring := { s.ring with seqNo := tblSet 0 s.ring.seqNo (seqKey (d + 1) 0 1) ((q + 1) % 256) } }
  let one (east : Bool) (s : State) : State :=
    if portUp s (d + 1) east then portQueue (d + 1) east ⟨1, !east, false, 0, d + 1, 10, 0, q, 0, []⟩ none s else s
  one false (one true s)

/-- HELLO: a die announces itself. A D reset ends with it; else, when all have announced themselves, DISCOVER goes east. -/
def execHello (die_ : Fin 4) (st : SelfTest) (s : State) : Res :=
  let d : Nat := die_
  let x := die s d
  .next (if x.inReset || x.hello || !x.microcode || !(heardBy s d) then s
  else if announceLate s d then announceFails d s
  else
    let s := dieHello d (selfTestOf st) (sendHello d s)
    if x.dReset.isSome then
      (if (die s d).st = 5 then dResetFailed d s else dResetEnds d s)
    else discoverWhenAll s)
where
  /-- A D reset that finds the die FAILED: the die is present on the ring, no context is written (R132, R459). -/
  dResetFailed (d : Nat) (s : State) : State :=
    let h := (die s d).dPending
    let s := modDie d (fun x => { x with dReset := none, dPending := none }) s
    let s := { s with ring := { s.ring with present := s.ring.present ||| 2 ^ d } }
    match h with
    | some h => complete h stOk s
    | none => s

/-- DISCOVER: the token comes to a node with a hop count of `hops`. A node takes one more as its hop index, west only where east has not
come, and passes the token on with it; its return to the companion ends discovery (R152). -/
def execDiscover (node : Fin 5) (east : Bool) (hops : Nat) (s : State) : Res :=
  .next (if (east, node.val, hops) ∉ s.ring.tokens then s
  else
    let s := { s with ring := { s.ring with tokens := s.ring.tokens.filter fun t => !(t == (east, node.val, hops)) } }
    if node = 0 then discoveryEnds east s
    else
      let d := node.val - 1
      if (die s d).inReset then s
      else
        let s := modDie d (fun x => { x with hop := x.hop.orElse fun _ => some (east, hops + 1) }) s
        if portUp s node east then { s with ring := { s.ring with tokens := (east, neighbour node east, hops + 1) :: s.ring.tokens } } else s)

/-- DISCOVERY_TIMEOUT: X + 1.5 s without every HELLO: late dies are ABSENT, DISCOVER goes east (R427). -/
def execDiscoveryTimeout (s : State) : Res :=
  .next (match s.releaseX with
  | some x =>
    if discovering s && s.ring.east.isNone && decide (x + 600000000 ≤ s.time.edges) then
      let s := eachDie (fun d s => if (die s d).hello || (die s d).st == 6 then s else trialDieLost d (dieAbsent d 1 s)) s
      if s.ring.east.isNone then sendDiscover true s else s
    else s
  | none => s)

/-- DISCOVER_RETURN_TIMEOUT: 1 ms without the token: the west DISCOVER is sent, and after that one discovery ends with a chain
(R152, R427). -/
def execDiscoverReturnTimeout (s : State) : Res :=
  let late (t : Nat) : Bool := decide (t + 400000 ≤ s.time.edges)
  .next (match s.ring.east, s.ring.west with
  | some e, none => if late e then sendDiscover false s else s
  | _, some w => if late w then discoveryEnds false s else s
  | none, none => s)

/-- DIE_ANNOUNCE_TIMEOUT: 1.5 s after its release a die has not announced itself (R152, R460, R465). -/
def execDieAnnounceTimeout (die_ : Fin 4) (s : State) : Res :=
  let d : Nat := die_
  let x := die s d
  .next (if !x.inReset && !x.hello && !(x.st == 6) && announceLate s d then announceFails d s else s)

end Sys2Proof.Machine
end

