-- ==== Sys2Proof/Machine/Sched.lean ====
section
/-! DEFINITION. Machine/Sched.lean: launches of plans on the disciplined bases, and the steps of those bases (R390, R394,
R395). -/

namespace Sys2Proof.Machine

/-- The TB_SAFE instant at which base `b` reaches `t`, by its long count and FREQ now; where that is no whole number of ns, the
free choice says to which side it is rounded (R394; log 5). -/
def toSafe (s : State) (b t : Nat) : Int :=
  let ahead : Int := (t : Int) - (longOf s b : Int)
  let num := ahead * 1000000000000
  let den := 1000000000000 + (baseOf s b).freq
  (tbSafe s : Int) + (if chooses s && !(num % den == 0) then num / den + 1 else num / den)

/-- The time of launch `k` on its base (R181). -/
def launchTime (s : State) (n p k : Nat) (r : PlanRec) : Nat := (planRt s n p).l0 + k * r.period

/-- The dies of a plan's copies: the region's, and its partner's (R241). -/
def launchDies (s : State) (n : Nat) (r : PlanRec) : List Nat :=
  ((mainCopy s n r.region).die :: ((partnerCopy s n r.region).toList.map (·.die))).eraseDups

/-- Launch `k` is issued to its dies with its TB_SAFE instant (R29, R394). -/
def issueLaunch (n p k t L : Nat) (r : PlanRec) (s : State) : State :=
  let s := modPlan n p (fun x => { x with converted := x.converted.filter (fun e => !(e.1 == k)) ++ [(k, t, L)] }) s
  (launchDies s n r).foldl (fun s d => if diePresent s d then sendCmd d cmdLaunch (launchArgs (launchId s n p k) L) s else s) s

/-- A launch that a step has overtaken, or that could not be issued in time, is REFUSED with source 71; `step` says in which
counter (R395). -/
def launchOvertaken (n p k t L : Nat) (step : Bool) (s : State) : State :=
  let s := launchFired n p k s
  let s := { s with time := { s.time with
    skipped := if step then up16 s.time.skipped else s.time.skipped
    lateIssue := if step then s.time.lateIssue else up16 s.time.lateIssue } }
  skipLaunch n p k t L (icuEvent 71 s)

/-- LAUNCH_CONVERT (R181, R394, R395): the next launch of a plan, at most 150 µs ahead. One less than 100 µs ahead is overtaken when
the last step skipped its time or left it less than 20 µs, is issued when the base has just stepped, and is late otherwise. -/
def execLaunchConvert (part : Fin 16) (plan : Nat) (s : State) : Res :=
  let n : Nat := part
  .next (match planRec s n plan with
  | none => s
  | some r =>
    if !planRuns s n plan then s
    else
      let k := (planRt s n plan).nextSeq
      let t := launchTime s n plan k r
      let L : Int := if r.base = 0 then t else toSafe s r.base t
      let ahead := L - (tbSafe s : Int)
      let x := baseOf s r.base
      if 150000 < ahead then s
      else
        let s := modPlan n plan (fun x => { x with nextSeq := k + 1 }) (drawn s)
        if 100000 ≤ ahead then issueLaunch n plan k t L.toNat r s
        else if r.base = 0 then launchOvertaken n plan k t L.toNat false s
        else if decide (x.stepLo < t) && decide (t ≤ x.stepHi) then launchOvertaken n plan k t L.toNat true s
        else if 0 < x.stepAt ∧ tbSafe s < x.stepAt + 150000 then issueLaunch n plan k t L.toNat r s
        else launchOvertaken n plan k t L.toNat false s)

/-- A converted launch of a stepped base: fired already, moved, or overtaken, which a backward step does to none (R395). -/
def stepLaunch (back : Bool) (n p : Nat) (r : PlanRec) (e : Nat × Nat × Nat) (s : State) : State :=
  if e.2.2 ≤ tbSafe s then s
  else
    let L := toSafe s r.base e.2.1
    if back = false ∧ L ≤ (tbSafe s : Int) + 20000 then launchOvertaken n p e.1 e.2.1 L.toNat true (drawn s)
    else issueLaunch n p e.1 e.2.1 L.toNat r (drawn s)

/-- The converted launches of every plan on these bases (R395). -/
def stepPlans (back : Bool) (bs : List Nat) (s : State) : State :=
  (List.range 16).foldl (fun s n =>
    (part s n).plans.foldl (fun s q =>
      match planRec s n q.1 with
      | none => s
      | some r => if r.base ∈ bs then q.2.converted.foldl (fun s e => stepLaunch back n q.1 r e s) s else s) s) s

/-- A master-mode port ends the block in progress (R390). -/
def stepCapture (s : State) : State :=
  (List.range 16).foldl (fun s p => if (capPort s p).master then modCap p (fun x => { x with held := none }) s else s) s

/-- STEP_APPLY (R390, R395, R397): a pending step of a base takes effect. -/
def execStepApply (base : Nat) (s : State) : Res :=
  .next (match dueStep s base with
  | none => s
  | some (_, amount) =>
    let s := modBase base (fun x => { x with pending := x.pending.drop 1 }) s
    let bs := stepBases s base
    let s := if base = 1 then netStep 0 amount s else if base = 2 then netStep 1 amount s else s
    let s := bs.foldl (fun s b => stepOne b amount s) s
    let s := [1, 2].foldl (fun s b => if b ∈ bs then netPump (netPort s (b - 1)).queue.length (b - 1) s else s) s
    let s := stepPlans (decide (amount < 0)) bs s
    if 3 ∈ bs then stepCapture s else s)

end Sys2Proof.Machine
end

