-- ==== Sys2Proof/Machine/Snap.lean ====
section
/-! DEFINITION. Machine/Snap.lean: the commands of the counter snapshots and the acknowledgement of CMD packets (R150, R479 to
R483). -/

namespace Sys2Proof.Machine

/-- SNAPSHOT_REQUEST: the firmware's write of SNAP_REQ through the internal view (R479, R484); none while it does not run (R319, R483). -/
def execSnapshotRequest (v : Word) (s : State) : Res := .next (if viewActs s .int then snapRequest v.toNat s else s)

/-- SNAPSHOT_LATCH (R480): unit 0 is the companion's ports, 1 to 4 an armed die, at its own TB_SAFE copy. -/
def execSnapshotLatch (unit : Fin 5) (s : State) : Res :=
  .next (if unit = 0 then
    match s.snap.pending with
    | some t => if 16 ≤ s.snap.waitFor ∧ t ≤ tbSafe s then snapSettle (snapPorts s) else s
    | none => s
  else
    let d := unit.val - 1
    match (die s d).snapArm with
    | some (t, id) => if !(die s d).inReset && decide (t ≤ dieTime s d) then snapSettle (snapDie d id false s) else s
    | none => s)

/-- SNAPSHOT_CMD (R480, R481): a die is armed, or latches at once as LATE when the instant has passed on its copy. -/
def execSnapshotCmd (die_ : Fin 4) (id : Nat) (instant : Nat) (s : State) : Res :=
  let d : Nat := die_
  .next (snapSettle (cmdArrives d cmdSnapshot [id, instant] (fun s =>
    if dieTime s d ≤ instant then modDie d (fun x => { x with snapArm := some (instant, id) }) s
    else snapDie d id true s) s))

/-- The FENCE_CORE commands whose fence the die has executed complete (R297). -/
def fenceAcked (d : Nat) (s : State) : State :=
  let l := (die s d).fenceCmds.filter fun e => e.2.2.2
  let s := modDie d (fun x => { x with fenceCmds := x.fenceCmds.filter fun e => !e.2.2.2 }) s
  l.foldl (fun s e => complete e.1 stOk s) s

/-- An ACK of a die reaches node 0 and signals its source, unless the ring's block delivery has brought the packet and signalled already
(R330). -/
def ackSignalled (d seq : Nat) (s : State) : State :=
  let mine (e : Nat × Packet) : Bool := e.1 == 0 && e.2.type == 9 && e.2.src == d + 1 && e.2.addr == seq % 256
  if s.ring.inbox.any mine then { s with ring := { s.ring with inbox := s.ring.inbox.eraseP mine } } else icuEvent (36 + d) s

/-- ACK_PACKET (R150): a CMD that the die has executed is acknowledged with its SEQ and its status, which is 0 for every CMD of
the model. What waited for it goes on. -/
def execAckPacket (die_ : Fin 4) (seq status : Nat) (s : State) : Res :=
  let d : Nat := die_
  .next (match (die s d).cmds.find? fun c => c.seq == seq % 256 && status == 0 && executedSeq (die s d) c.seq with
  | none => s
  | some c =>
    let s := ackSignalled d seq s
    let s := modDie d (fun x => { x with cmds := x.cmds.filter fun c => !(c.seq == seq % 256), reached := s.time.edges }) s
    let s := if c.kind = cmdFence then fenceAcked d s else s
    let s := if c.kind = cmdDerived then stageStep (ctx s d (c.args.headD 0)).part s else s
    dResetSettle d (snapSettle s))

end Sys2Proof.Machine
end

