-- ==== Sys2Proof/Machine/Wdg.lean ====
section
/-! DEFINITION. Machine/Wdg.lean: the commands of the watchdog units, the task monitor and the user tasks' services (R325, R347 to
R360, R411). -/

namespace Sys2Proof.Machine

/-- A view whose registers serve: the internal one always, a PCIe seat's from the first SERVICE on and outside its reset (R277,
R300). -/
def viewServes (s : State) (v : View) : Bool :=
  match v with
  | .int | .chk => true
  | .a => s.seats.served && !s.seats.a.inReset
  | .b => s.seats.served && !s.seats.b.inReset

/-- A write to WDG_SERVICE by a view, with a reset of kind W where it brings one. -/
def wdgKey (v : View) (n w : Nat) (s : State) : State := if viewServes s v then wdgEnds (wdgWrite v n w s) else s

/-- A write to WDG_SERVICE: a seat's reaches the unit at once, the main core's passes the write gate (R308, R349). -/
def serviceWrite (v : View) (n w : Nat) (s : State) : State :=
  if v = .int then gateHold (0x7000C + 0x40 * n) (w32 w) s else wdgKey v n w s

/-- WDG_ARM: 0x5A (R349). -/
def execWdgArm (view : View) (unit : Fin 8) (upper : BitVec 24) (s : State) : Res :=
  .next (if viewActs s view then serviceWrite view unit (0x5A + 256 * upper.toNat) s else s)

/-- WDG_SERVICE: 0xA5 (R349 to R351, R356). -/
def execWdgService (view : View) (unit : Fin 8) (upper : BitVec 24) (s : State) : Res :=
  .next (if viewActs s view then serviceWrite view unit (0xA5 + 256 * upper.toNat) s else s)

/-- WDG_EXPIRY (R351). -/
def execWdgExpiry (unit : Fin 8) (s : State) : Res := .next (wdgEnds (wdgExpire unit s))

/-- WDG_PULSE_END (R354). -/
def execWdPulseEnd (unit : Fin 8) (s : State) : Res := .next (wdgPulseEnd unit s)

/-- TASK_CYCLE_END (R356, R359, R360). -/
def execTaskCycleEnd (group : Fin 8) (s : State) : Res := .next (wdgEnds (taskCycle group s))

/-! ### SAFETY_SET items (R411) -/

/-- Limits of R350. -/
def limitsOk (opn close : Nat) : Bool := decide (100 ≤ close) && decide (close ≤ 60000000) && decide (opn < close)

/-- A mode and a pulse width that an item may carry. -/
def modeOk (mode width : Nat) : Bool := decide (mode ≤ 1) && decide (1 ≤ width) && decide (width ≤ 100)

/-- HOLDER of a PCIe seat. -/
def seatHolder (x : Seat) : Nat := if x = .a then 2 else 3

/-- A seat takes a unit, which is enabled at once (R347, R350). -/
def takeUnit (h : Nat) (n mode width opn close : Nat) (s : State) : State :=
  wdgEnable n (modWdg n (fun u => { u with
    holder := h, mode := mode == 1, width := width, opn := opn, close := close, warned := false, pendMode := none }) s)

/-- WDG_TAKE (R275, R411): seats A and B alone, for themselves, whatever S6 says. -/
def execWdgTake (h : Hdr) (unit mode width opn close : Nat) (s : State) : Res :=
  command h (fun s =>
    let fmt := unit == 0 || decide (7 < unit) || !modeOk mode width || !limitsOk opn close
    finish h (lowest [onlyAB h, (s.sio.fault, eSeal), (fmt, eFormat),
      (decide (1 ≤ unit) && decide (unit ≤ 7) && !((wdgUnit s unit).holder == 0), eState)])
      (takeUnit (seatHolder h.seat) unit mode width opn close) s) s

/-- WDG_RELEASE (R275, R411): seat A or B frees its own units, seat S any seat's. -/
def execWdgRelease (h : Hdr) (unit : Nat) (s : State) : Res :=
  command h (fun s =>
    let u := wdgUnit s unit
    let named := decide (1 ≤ unit) && decide (unit ≤ 7)
    let held := u.holder == 2 || u.holder == 3
    let mine := h.seat == .s || u.holder == seatHolder h.seat
    finish h (lowest [(h.seat == .n, eRights), (named && held && !mine, eRights), (s.sio.fault, eSeal), (!named, eFormat),
      (named && !held, eState)]) (wdgFree unit) s) s

/-- WDG_MODE (R348, R411). -/
def execWdgMode (h : Hdr) (unit mode width : Nat) (s : State) : Res :=
  command h (fun s => finish h (lowest (safetyRights s h ++ [(decide (7 < unit) || !modeOk mode width, eFormat)]))
    (fun s => storeSetting 3 unit (.wdgMode h unit mode width) (wdgModeEffect unit mode width s)) s) s

/-! ### Check-ins (R295, R358) -/

/-- CHECKIN (R295): one check-in of a task of SOURCE 0 of the partition's TASKS record, at its acceptance. -/
def execCheckin (h : Hdr) (task : Nat) (s : State) : Res :=
  command h (fun s =>
    let t := ((part s h.part).layout).bind (·.tasks)
    let row := t.bind fun t => t.tasks[task]?
    finish h (lowest (partChecks s h false ++ [onlyAB h, (t.isNone, eAbsent),
      (t.isSome && !((row.map (·.source)) == some 0), eFormat), (!((part s h.part).st == 2), eState)]))
      (fun s => (taskSlot s h.part task).elim s fun n => taskCheckin n s) s) s

/-! ### User tasks (R325) -/

/-- What a firmware service that a task may ask for does: a check-in (R358), a doorbell of a mailbox source (R328), a snapshot
request (R479); what another service does is the firmware's own matter. -/
def serviceEffect (svc : Service) (s : State) : State :=
  match svc with
  | .checkin n => checkinService n s
  | .mailbox w => if 512 ≤ fld w.toNat 9 0 then icuDoorbell w s else s
  | .snapshot at_ era id => snapRequest (id % 256 + 256 * (era % 4) + 2048) (modSnap (fun x => { x with at_ := at_ }) s)
  | .other _ => s

/-- TASK_ECALL (R319, R325): of a service by its number; one that the task's declaration does not name stops it: an environment call from user
mode is mcause 8. -/
def execTaskEcall (slot : Fin 8) (number : Nat) (svc : Service) (s : State) : Res :=
  .next (if !((userTask s slot).state == 1) || (userTask s slot).preempt || s.pair.halted then s
    else if bitOf (userTask s slot).services number then serviceEffect svc s else userFault slot 8 s)

end Sys2Proof.Machine
end

