-- ==== Sys2Proof/Machine/RegMap.lean ====
section
/-! DEFINITION. Machine/RegMap.lean: what every register reads as, block by block (R6 to R9, R133, R162, R163, R198 to R200, R239,
R271, R272, R304, R305, R327, R344, R345, R362, R363, R374, R399, R400, R423, R455, R471, R472, R475 to R478, R484, R487, R507,
R511 to R518). Offsets are within the block; a function answers 0 where the block has no register (R8). -/

namespace Sys2Proof.Machine

/-- A value at its field's lowest bit. -/
def at_ (lo n : Nat) : Nat := n * 2 ^ lo

/-- The number of a view in the tables of apertures and latches: 0 seat A, 1 seat B, 2 internal. -/
def viewNo : View → Nat
  | .a => 0
  | .b => 1
  | .int | .chk => 2

/-- The view's number as SEAT of SEAT_INFO (R305). -/
def viewSeat : View → Nat
  | .a => 0
  | .b => 1
  | .int | .chk => 3

/-- The view sees what belongs to partition `n` (R303, R513). -/
def sees (s : State) (v : View) (n : Nat) : Bool := v == .int || ownerNo s n == viewNo v

/-- Index of a register in an array of `n` of `stride` bytes each from `base`, none for an offset outside it. -/
def regIdx (o base stride n : Nat) : Option Nat := if base ≤ o ∧ o < base + stride * n then some ((o - base) / stride) else none

/-- The little-endian word `w` of some bytes. -/
def wordAt (l : List Byte) (w : Nat) : Nat := rd l (4 * w) 4

/-- A signed value clamped into an S32 word (R399). -/
def s32Clamped (x : Int) : Nat := unsgn 32 (clampInt (-2147483648) 2147483647 x)

/-! ### CMP, SEAT and QUE -/

/-- CMP (R517); the manual describes stepping B0 (R3). -/
def cmpReg (s : State) (o : Nat) : Nat :=
  match o with
  | 0x00 => 0x4416F1A7
  | 0x04 => 0x00B03042
  | 0x08 => deviceState s + at_ 3 (bit s.seats.served) + at_ 4 s.ring.present + at_ 8 (maskOf 4 fun d => (die s d).st == 5) +
      at_ 12 (maskOf 4 fun d => (die s d).st == 6)
  | 0x0C => 1 + at_ 8 (microcodeVersion s % 65536)
  | 0x10 => Config.romVersion.toNat
  | 0x40 => (Config.bootsBefore + s.upd.boots) % 2 ^ 32
  | _ =>
    let bytes (f : Nat → Byte) (i n : Nat) : Nat := ofLe ((List.range n).map fun k => f (i + k))
    if 0x20 ≤ o ∧ o < 0x30 then bytes Config.serial (o - 0x20) 4
    else if o = 0x30 then bytes Config.mac 0 4
    else if o = 0x34 then bytes Config.mac 4 2
    else if o = 0x38 then bytes Config.mac 6 4
    else if o = 0x3C then bytes Config.mac 10 2
    else 0

/-- The 256 bytes of IDENTIFY (R295). -/
def identity (s : State) : List Byte := ((List.range 64).map fun w => leBytes 4 (cmpReg s (4 * w))).flatten

/-- The PCIe seat of a host view. -/
def viewOwn : View → Seat
  | .a => .a
  | .b => .b
  | .int | .chk => .s

/-- SEAT (R305). The internal view shows seat S, which has the safety right. -/
def seatReg (s : State) (v : View) (o : Nat) : Nat :=
  let x := seatOf s (viewOwn v)
  match o with
  | 0x00 => viewSeat v + at_ 2 (bit (v == .int || (v == .a && sealRights s))) + at_ 8 x.gen
  | 0x04 => x.resetDrops + at_ 16 x.eventDrops
  | _ =>
    match regIdx o 0x100 4 16 with
    | some n => if v == .int || !(ownerNo s n == viewNo v) then 0 else ((part s n).ring.map (·.tail)).getD 0
    | none => 0

/-- Fetching of a queue pair waits for a CQ entry (R287). -/
def queStalled (u : Queue) : Bool := u.enabled && u.enable && !(u.sqHead == u.sqTail) && u.busy == 0 && cqFree u == 0

/-- The registers of a queue pair (R304). -/
def queReg (u : Queue) (o : Nat) : Nat :=
  match o with
  | 0x00 => u.sqBase % 2 ^ 32
  | 0x04 => u.sqBase / 2 ^ 32
  | 0x08 => u.cqBase % 2 ^ 32
  | 0x0C => u.cqBase / 2 ^ 32
  | 0x10 => u.sqSize + at_ 16 u.cqSize
  | 0x14 => bit u.enable + at_ 1 (bit u.intEn) + at_ 2 u.vector
  | 0x18 => u.status + at_ 8 (bit u.enabled) + at_ 9 (bit (queStalled u)) + at_ 10 (bit u.dbErr)
  | _ => 0

/-- The seat and number of the queue pair at an offset of QUE: a seat's own bank, or both in the internal view (R304). -/
def queAt (v : View) (o : Nat) : Option (Seat × Nat) :=
  match v with
  | .int => if o < 0x800 then some (.a, o / 32) else if o < 0x1000 then some (.b, (o - 0x800) / 32) else none
  | _ => if o < 0x800 then some (viewOwn v, o / 32) else none

/-! ### LAY, FRM and EVD -/

/-- LAY_STATE of a partition (R239). -/
def layState (p : Part) : Nat :=
  let rs := p.regions.map (·.2)
  p.st + at_ 3 (bit (p.seat == 1)) + at_ 4 (bit p.autoloaded) + at_ 5 (rs.filter fun r => !(r.spill == 0)).length +
    at_ 14 (rs.filter fun r => !(r.chosen == 0)).length

/-- LAY_LAST of a partition. -/
def layLastReg (p : Part) : Nat := p.lastStatus + at_ 8 (p.lastRecord % 2 ^ 24)

/-- LAY_DIGEST of a partition. -/
def layDigest (p : Part) (w : Nat) : Nat := if p.st = 0 then 0 else wordAt p.digest w

/-- LAY of a partition (R239). -/
def layReg (p : Part) (o : Nat) : Nat :=
  if o = 0 then layState p else if o = 4 then layLastReg p
  else match regIdx o 0x10 4 8 with
    | some w => layDigest p w
    | none => 0

/-- FRM of a partition (R200). -/
def frmReg (p : Part) (o : Nat) : Nat :=
  match o with
  | 0x0 => p.qfull + at_ 16 p.other
  | 0x4 => p.displaced + at_ 16 p.drops
  | 0x8 => p.delayed + at_ 16 p.skipped
  | 0xC => p.short + at_ 16 p.stale
  | _ => 0

/-- EVD_ESC of a partition: the largest window count and the lowest region that has it (R271). -/
def evdEsc (s : State) (n : Nat) : Nat :=
  let best := (List.range (((part s n).layout.map (·.regions.length)).getD 0)).foldl (fun (b : Nat × Nat) r =>
    if b.1 < winCount s n r then (winCount s n r, r) else b) (0, 0)
  best.1 + at_ 8 best.2 + at_ 16 (bit (part s n).escalated)

/-- EVD_COUNT_A and EVD_COUNT_B of a partition. -/
def evdCount (p : Part) (b : Bool) : Nat := if b then p.unproven + at_ 16 p.late else p.believed + at_ 16 p.doubted

/-- Index `i` is one of the last `size` before `head`; indices are 32 bits and wrap (R252, R485). -/
def inLast (head size i : Nat) : Bool :=
  let k := (head + 2 ^ 32 - i % 2 ^ 32) % 2 ^ 32
  decide (1 ≤ k) && decide (k ≤ size)

/-- The stored evidence record of an index, when it is in the store (R252). -/
def evidenceAt (s : State) (i : Nat) : Option EvStored :=
  if inLast s.evd.head 8192 i then (s.evd.store.find? fun e => e.1 == i % 2 ^ 32 % 8192).map (·.2) else none

/-- A view sees a stored record or entry whose partition had this owner then (R272, R487). -/
def seesOwner (v : View) (owner : Nat) : Bool := v == .int || owner == viewNo v

/-- A word of the record aperture (R272). -/
def apertureWord (s : State) (v : View) (o : Nat) : Nat :=
  match evidenceAt s (tblGet 0 s.evd.apert (viewNo v) + o / 128) with
  | some e => if seesOwner v e.owner then wordAt e.bytes (o % 128 / 4) else 0
  | none => 0

/-- A word of the log aperture (R487). -/
def logWord (s : State) (v : View) (o : Nat) : Nat :=
  let a := tblGet 0 s.evd.logApert (viewNo v)
  let i := a / 256 * 256 + o / 16
  let log := a % 2 == 1
  let e :=
    if log then (if inLast s.evd.logHead 4096 i then (s.evd.log.find? fun e => e.1 == i % 2 ^ 32 % 4096).map (·.2) else none)
    else if inLast s.evd.fenceHead 2048 i then (s.evd.fences.find? fun e => e.1 == i % 2 ^ 32 % 2048).map (·.2) else none
  match e with
  | some e => if e.part == 0xFF || seesOwner v e.owner then wordAt e.bytes (o % 16 / 4) else 0
  | none => 0

/-- EVD (R271, R272, R487). -/
def evdReg (s : State) (v : View) (o : Nat) : Nat :=
  let e := s.evd
  let int := v == .int
  match o with
  | 0x00 => e.head
  | 0x04 => tblGet 0 e.apert (viewNo v)
  | 0x08 => e.queue.length + at_ 13 (bit e.mismatch) + at_ 14 (bit e.stFail) + at_ 16 e.overflows + at_ 24 e.lateArr
  | 0x10 => if int then bit e.safe + at_ 2 e.cause + at_ 8 e.safePart + at_ 12 e.safeRegion else 0
  | 0x14 => if int then e.safeStamp % 2 ^ 32 else 0
  | 0x18 => if int then e.safeStamp / 2 ^ 32 % 4 else 0
  | 0x1C => sealK s + at_ 3 (sealW s)
  | 0x20 => e.fenceHead
  | 0x24 => e.logHead
  | 0x28 => tblGet 0 e.logApert (viewNo v)
  | 0x2C => e.suppressed
  | _ =>
    match regIdx o 0x100 8 16, regIdx o 0x200 4 16 with
    | some n, _ => if sees s v n then evdCount (part s n) (o % 8 == 4) else 0
    | _, some n => if sees s v n then evdEsc s n else 0
    | _, _ => if 0x1000 ≤ o ∧ o < 0x2000 then apertureWord s v (o - 0x1000)
      else if 0x2000 ≤ o ∧ o < 0x3000 then logWord s v (o - 0x2000) else 0

/-! ### ICU, WDG and CRC -/

/-- A bitmap word over sources; those from 256 to 511 have no bits (R345). -/
def icuBits (w : Nat) (p : Nat → Bool) : Nat := if 8 ≤ w ∧ w ≤ 15 then 0 else maskOf 32 fun b => p (32 * w + b)

/-- The source is on a target's stack. -/
def icuActive (s : State) (n : Nat) : Bool := (s.icu.stack0 ++ s.icu.stack1).any fun e => e.1 == n

/-- ICU_ERRORS (R344). -/
def icuErrors (s : State) : Nat := s.icu.bad + at_ 8 s.icu.typeErr + at_ 16 s.icu.eoiErr + at_ 24 s.icu.fwdDrops

/-- ICU through the internal view, with the main core's bank; the effect of a claim stands apart (R344, R345). -/
def icuReg (s : State) (checker : Bool) (o : Nat) : Nat :=
  if o = 0x04 then (claimWord (icuClaimed s checker)).toNat
  else if o = 0x0C then
    runPri s checker + at_ 4 (icuStack s checker).length + at_ 9 (((icuStack s checker).head?.map (·.1)).getD 0)
  else if o = 0x10 then icuErrors s
  else match regIdx o 0x100 4 32, regIdx o 0x1000 4 192, regIdx o 0x2000 4 1024 with
    | some n, _, _ => let e := tblGet (0, false) s.icu.wake n; e.1 + at_ 10 (bit e.2)
    | _, some k, _ =>
      let w := k % 32
      if k < 64 then icuBits w fun n => (srcOf s n).enable
      else if k < 128 then icuBits w fun n => (srcOf s n).pend
      else if k < 160 then icuBits w fun n => (srcOf s n).level
      else icuBits w (icuActive s)
    | _, _, some n =>
      let x := srcOf s n
      x.prio + at_ 4 (bit x.isLevel) + at_ 5 x.target + at_ 7 (bit x.routeAny) + at_ 8 x.fwdSeat + at_ 10 x.fwdVec
    | _, _, _ => 0

/-- A view sees a watchdog unit: the seat's own, and those of its partitions (R362). -/
def seesUnit (s : State) (v : View) (u : WdgUnit) : Bool :=
  v == .int || wdgHolds v u || (u.holder == 4 && ownerNo s u.part == viewNo v)

/-- WDG_ELAPSED. What it reads while the unit does not count is not stated: 0 before it ever has, else free (log 1). -/
def wdgElapsedReg (s : State) (n : Nat) : Nat :=
  let u := wdgUnit s n
  (if wdgCounts u then wdgElapsed s n else u.stopped) % 2 ^ 26

/-- The registers of a watchdog unit (R362). -/
def wdgUnitReg (s : State) (n o : Nat) : Nat :=
  let u := wdgUnit s n
  match o with
  | 0x00 => u.holder + at_ 3 u.part + at_ 7 (bit u.mode) + at_ 8 u.width + at_ 15 (bit u.enable)
  | 0x04 => u.opn
  | 0x08 => u.close
  | 0x10 => bit u.armed + at_ 1 (bit u.warned) + at_ 2 (bit u.pulse.isSome) + at_ 4 u.expiries + at_ 12 u.early + at_ 20 u.badKey
  | 0x14 => wdgElapsedReg s n
  | 0x18 => u.cycle
  | _ => 0

/-- WDG_GLOBAL (R362). -/
def wdgGlobal (s : State) : Nat := s.wdg.foreign + at_ 8 (slotsFree s)

/-- Half of a mask of slots. -/
def slotMask (l : List Nat) (hi : Bool) : Nat := maskOf 32 fun b => decide (b + (if hi then 32 else 0) ∈ l)

/-- The record registers of a group (R363). -/
def groupReg (x : Group) (o : Nat) : Nat :=
  match o with
  | 0x00 => slotMask x.missing false
  | 0x04 => slotMask x.missing true
  | 0x08 => slotMask x.excess false
  | 0x0C => slotMask x.excess true
  | 0x10 => slotMask x.order false
  | 0x14 => slotMask x.order true
  | 0x18 => x.num + at_ 16 (bit x.pass) + at_ 17 (bit x.valid) + at_ 18 (x.stamp / 2 ^ 32 % 4)
  | 0x1C => x.stamp % 2 ^ 32
  | _ => 0

/-- WDG (R362, R363). -/
def wdgReg (s : State) (v : View) (o : Nat) : Nat :=
  match regIdx o 0 0x40 8, regIdx o 0x400 8 64, regIdx o 0x800 0x20 8 with
  | some n, _, _ => if seesUnit s v (wdgUnit s n) then wdgUnitReg s n (o % 0x40) else 0
  | _, some t, _ =>
    let x := taskOf s t
    if !(v == .int || (x.valid && seesUnit s v (wdgUnit s x.group))) then 0
    else if o % 8 = 0 then
      bit x.valid + at_ 1 x.group + at_ 4 x.source + at_ 6 x.min + at_ 14 x.max + at_ 22 x.order
    else x.count + at_ 8 x.region + at_ 24 x.part
  | _, _, some g => if seesUnit s v (wdgUnit s g) then groupReg (groupOf s g) (o % 0x20) else 0
  | _, _, _ => if o = 0x200 ∧ v = .int then wdgGlobal s else 0

/-- CRC through the internal view (R369, R371, R374). -/
def crcReg (s : State) (o : Nat) : Nat :=
  if 8 * 0x40 ≤ o then 0
  else
    let x := crcUnit s (o / 0x40)
    let r := (crcResult (crcKind x.poly) x.run).toNat
    match o % 0x40 with
    | 0x00 => x.cfg + at_ 3 (bit x.aliveEn)
    | 0x14 => x.run.toNat % 2 ^ 32
    | 0x18 => x.run.toNat / 2 ^ 32
    | 0x1C => r % 2 ^ 32
    | 0x20 => r / 2 ^ 32
    | 0x24 => x.alive.toNat
    | 0x28 => x.count.toNat
    | _ => 0

/-! ### TIM, NET and SIO -/

/-- TIM of a disciplined base (R399). -/
def timBaseReg (x : Base) (o : Nat) : Nat :=
  match o with
  | 0x00 => x.count % 2 ^ 32
  | 0x04 => x.count / 2 ^ 32
  | 0x08 => bit x.feed + at_ 1 x.source + at_ 3 (bit x.hold)
  | 0x0C => x.kp + at_ 16 x.ki
  | 0x10 => x.stepLimit + at_ 16 x.nRefuse + at_ 20 x.pathStep
  | 0x14 => x.pathHold
  | 0x24 => unsgn 32 x.freq
  | 0x28 => bit x.set + at_ 1 (bit x.jump) + at_ 2 (bit x.shift) + at_ 3 (bit x.pathChg) + at_ 4 x.run + at_ 8 x.jumps +
      at_ 16 x.steps + at_ 24 x.pathChgs
  | 0x2C => s32Clamped x.last
  | 0x30 => s32Clamped x.refused
  | 0x34 => unsgn 32 x.path
  | 0x38 => unsgn 64 x.stepAmt % 2 ^ 32
  | 0x3C => unsgn 64 x.stepAmt / 2 ^ 32
  | _ => 0

/-- TIM (R399). -/
def timReg (s : State) (o : Nat) : Nat :=
  let t := s.time
  match o with
  | 0x00 => tbSafe s % 2 ^ 32
  | 0x04 => tbSafe s / 2 ^ 32
  | 0x104 => t.xdBound + at_ 16 (bit t.xdEn)
  | 0x108 => bit t.xdAlarm + at_ 8 t.xdAlarms
  | 0x10C => s32Clamped t.xdDiff
  | 0x110 => t.skipped + at_ 16 t.lateIssue
  | _ => if 0x40 ≤ o ∧ o < 0x100 then timBaseReg (baseOf s (o / 0x40)) (o % 0x40) else 0

/-- NET_TXTS_HI of a port (R398, R400). -/
def txtsHi (x : NetPort) : Nat :=
  match x.stamps with
  | [] => 0
  | e :: _ => e.id % 65536 + at_ 16 (e.stamp / 2 ^ 32 % 4) + at_ 18 (bit e.safe) + at_ 19 1 + at_ 20 x.stamps.length

/-- NET (R400, R518); the stamp queue shows in the internal view alone. -/
def netReg (s : State) (v : View) (o : Nat) : Nat :=
  let x := netPort s (o % 0x80 / 0x40)
  if o < 0x80 then
    match o % 0x40 with
    | 0x00 => bit x.up + at_ 1 (bit (x.up && x.tenGig)) + at_ 2 x.losses
    | 0x04 => x.addr.toNat
    | 0x08 => x.mask.toNat
    | 0x0C => x.gw.toNat
    | 0x10 => x.rx + at_ 16 x.fcs + at_ 24 x.nDrops
    | 0x14 => x.tx
    | _ => 0
  else if 0x800 ≤ o ∧ o < 0x880 then
    match o % 0x40 with
    | 0x00 => x.txLat + at_ 10 x.rxLat + at_ 20 x.grace
    | 0x04 => if v == .int then ((x.stamps.head?.map (·.stamp)).getD 0) % 2 ^ 32 else 0
    | 0x08 => if v == .int then txtsHi x else 0
    | 0x0C => x.tsDrops + at_ 8 x.lateDrops + at_ 16 x.rangeDrops
    | _ => 0
  else 0

/-- SIO (R423). -/
def sioReg (s : State) (v : View) (o : Nat) : Nat :=
  let x := s.sio
  match o with
  | 0x00 => bit x.toggling + at_ 1 (holds s) + at_ 8 (bit (sealFast s)) +
      at_ 9 (if v = .int then (inputSeen s 2).toNat % 2 else bit x.reqLow)
  | 0x04 => x.sealP.toNat + at_ 8 x.nowP.toNat + at_ 16 x.nowN.toNat + at_ 24 (bit x.fault) + at_ 25 x.kind + at_ 27 x.pair
  | 0x10 => x.txCycle + at_ 10 x.rxCycle + at_ 20 (bit x.tgEnable) + at_ 21 x.slotsEn
  | 0x14 => x.udpPort
  | 0x18 => x.srcId.toNat
  | 0x1C => x.dstId.toNat
  | 0x20 => x.peerNa.toNat
  | 0x24 => x.peerNb.toNat
  | 0x28 => x.alive + at_ 16 x.missed
  | 0x30 => bit x.timeout + at_ 1 (bit x.valid) + at_ 2 x.rxAlive
  | 0x34 => x.accepted + at_ 16 x.disagree + at_ 24 x.single
  | 0x38 => x.lost + at_ 8 x.repeat_ + at_ 16 x.foreign + at_ 24 x.timeouts
  | _ =>
    match regIdx o 0x40 4 10, regIdx o 0x80 4 8 with
    | some w, _ => wordAt x.payload w
    | _, some n =>
      let t := tblGet ⟨0, 0, 0, 0, none⟩ x.slots n
      t.element + at_ 16 t.region + at_ 24 t.part + at_ 28 t.output
    | _, _ => 0

/-! ### UPD, PWR, SNAP, RING, CAP, ATT and DBG -/

/-- The kind in trial; 0 none (R455). -/
def trialKind (s : State) : Nat := ([1, 2, 3].find? fun k => inTrial s k).getD 0

/-- Length of a kind's trial window in seconds (R448). -/
def trialWindow (x : Kind) : Nat := if x.window = 0 then 600 else x.window

/-- WINDOW_LEFT: whole seconds left in the trial window. -/
def windowLeft (s : State) : Nat :=
  let k := trialKind s
  if k = 0 then 0 else ((kindOf s k).trialAt + trialWindow (kindOf s k) * 1000000000 - tbSafe s) / 1000000000

/-- UPD of a kind (R455). -/
def updKindReg (s : State) (k o : Nat) : Nat :=
  let x := kindOf s k
  match o with
  | 0x0 => x.stage + at_ 3 (bit x.active) + at_ 4 x.trials + at_ 6 (bit x.reverted) + at_ 7 (bit x.bootFail) + at_ 8 x.lastStatus +
      at_ 16 (x.nextChunk % 65536)
  | 0x4 => x.version
  | 0x8 => (counterOf x).getD (Config.freeNat s.free % 2 ^ 32)
  | _ => 0

/-- UPD (R455). -/
def updReg (s : State) (o : Nat) : Nat :=
  if o < 0x30 then updKindReg s (o / 0x10 + 1) (o % 0x10) else if o = 0x30 then windowLeft s + at_ 12 (trialKind s) else 0

/-- PWR (R471, R507). -/
def pwrReg (s : State) (o : Nat) : Nat :=
  let x := s.pwr
  match o with
  | 0x00 => x.state + at_ 2 x.req + at_ 4 x.outcome + at_ 6 (bit (x.napping.isSome || x.waking))
  | 0x04 => x.lastRst + at_ 3 (maskOf 4 fun d => (die s d).dReset.isSome) + at_ 8 x.dResets
  | 0x08 => x.hwy + at_ 16 x.wakes
  | 0x0C => x.tick
  | 0x10 => x.now + at_ 10 (x.peak.getD 0)
  | _ => 0

/-- SNAP (R484). -/
def snapReg (s : State) (o : Nat) : Nat :=
  let x := s.snap
  match o with
  | 0x00 => x.at_.toNat
  | 0x08 => x.id + at_ 8 (bit x.pending.isSome) + at_ 9 (bit x.done) + at_ 10 (bit x.late) + at_ 11 x.latched + at_ 16 x.era +
      at_ 18 x.reason + at_ 20 x.refusals
  | 0x0C => x.stamp
  | 0x10 => bit x.periodic
  | _ => 0

/-- RING_TIME of a die; an offset that S8 does not hold reads as a free value, and UNSURE goes by OFFSET (R162, log 1). -/
def ringTime (s : State) (d : Nat) : Nat :=
  let x := die s d
  let off := if -128 ≤ x.tbMeas ∧ x.tbMeas ≤ 127 then unsgn 8 x.tbMeas else Config.freeNat s.free % 256
  x.tbSource + at_ 3 off + at_ 11 (bit (x.unsure && decide (10 < x.tbMeas.natAbs))) + at_ 12 (x.unsureCnt % 65536)

/-- RING (R162, R478). A link that its training did not bring up reads 2 once discovery has run; its reset value stands before. -/
def ringReg (s : State) (o : Nat) : Nat :=
  let x := s.ring
  if o = 0 then x.discovery + at_ 2 x.up + at_ 7 x.present + at_ 11 x.mismatch + at_ 15 x.stateSeq
  else match regIdx o 0x10 4 5, regIdx o 0x34 4 4, regIdx o 0x100 0x20 2, regIdx o 0x200 0x20 2 with
    | some k, _, _, _ =>
      (if bitOf x.up k then 0 else tblGet (if x.discovery = 0 then 0 else 2) x.cause k) + at_ 2 (tblGet 0 x.retries k % 2 ^ 14) + at_ 16 (tblGet 0 x.bcrc k % 2 ^ 14)
    | _, some d, _, _ => ringTime s d
    | _, _, some p, _ => tblGet 0 (portOf (creditCount 0 (p == 0) s) 0 (p == 0)).cnt (o % 0x20)
    | _, _, _, some p => tblGet 0 (portOf s 0 (p == 0)).cntShadow (o % 0x20)
    | _, _, _, _ => 0

/-- CAP_EVT_HI of an input (R198). -/
def evtHi (x : EvtIn) : Nat :=
  at_ 16 x.lost +
  match x.edges with
  | [] => 0
  | e :: _ => e.1 / 2 ^ 32 % 4 + at_ 2 (bit e.2) + at_ 3 1 + at_ 4 x.edges.length

/-- CAP_PPS_IN_HI (R198). -/
def ppsInHi (s : State) : Nat := s.cap.inStamp / 2 ^ 32 % 4 + at_ 2 (bit s.cap.inNew)

/-- CAP (R198). -/
def capReg (s : State) (o : Nat) : Nat :=
  match regIdx o 0 0x10 16, regIdx o 0x110 8 8 with
  | some p, _ =>
    let x := capPort s p
    match o % 0x10 with
    | 0x0 => bit x.enable + at_ 1 (bit x.master) + at_ 2 x.lastSlot + at_ 5 x.blockQ
    | 0x4 => x.rate
    | 0x8 => bit x.running + at_ 1 (bit x.fsLost) + at_ 2 (bit x.overflow) + at_ 16 x.nextSeq
    | _ => x.blocks + at_ 16 x.dropped + at_ 24 x.faults
  | _, some i => if o % 8 = 0 then (((evtIn s i).edges.head?.map (·.1)).getD 0) % 2 ^ 32 else evtHi (evtIn s i)
  | _, _ =>
    match o with
    | 0x100 => ((List.range 8).map fun i => at_ (2 * i) (tblGet 0 s.cap.edgeSel i)).sum
    | 0x150 => bit s.cap.outEn + at_ 1 s.cap.outBase + at_ 3 s.cap.outWidth + at_ 10 (bit s.cap.inEdge)
    | 0x158 => s.cap.inStamp % 2 ^ 32
    | 0x15C => ppsInHi s
    | _ => 0

/-- ATT (R472). -/
def attReg (s : State) (v : View) (o : Nat) : Nat :=
  match o with
  | 0x0 => if v = .int then (inputSeen s 1).toNat else s.pwr.recCause + at_ 2 s.pwr.recSrc
  | 0x4 => s.pwr.ticks
  | 0x8 => s.pwr.timer
  | _ => 0

/-- DBG (R327). -/
def dbgReg (s : State) (o : Nat) : Nat :=
  let x := s.pair
  match o with
  | 0x00 => pairStatus s
  | 0x04 => x.kind + at_ 3 x.group + at_ 5 x.half + at_ 7 x.bit + at_ 14 (x.stamp / 2 ^ 32 % 4)
  | 0x08 => x.stamp % 2 ^ 32
  | 0x0C => x.disagree + at_ 4 x.stuck + at_ 8 x.inCount
  | 0x10 => x.journal.length + at_ 7 (bit x.overflow)
  | 0x14 => x.memCorr + at_ 16 x.memUnc + at_ 24 x.cacheP
  | 0x18 => x.splitAt.toNat / 2 * 2
  | _ =>
    match regIdx o 0x100 4 8 with
    | some n => let t := userTask s n; t.state + at_ 8 t.overruns + at_ 16 t.cause
    | none => 0

/-! ### AXW (R133, R163, R475, R484, R507, R514) -/

/-- What a bank offset belongs to: 1 the die, 2 its ring ports, 3 a cluster (with its number), 0 nothing. -/
def bankPart (o : Nat) : Nat × Nat :=
  match regIdx o 0x1000 0x20 1, regIdx o 0x1100 0x20 2, regIdx o 0x2000 0x20 64, regIdx o 0x10000 0x10 2048 with
  | some _, _, _, _ => (1, 0)
  | _, some _, _, _ => (2, 0)
  | _, _, some c, _ => (3, c)
  | _, _, _, some i => (3, i / 32)
  | _, _, _, _ => (0, 0)

/-- A view sees a cluster's registers (R514). -/
def seesCluster (s : State) (v : View) (d c : Nat) : Bool := v == .int || sees s v (ownerAt s d c)

/-- A counter of die `d` at a bank offset; the live bank is brought up to now (R475, R476, R514). -/
def bankReg (s : State) (v : View) (d o : Nat) (shadow : Bool) : Nat :=
  let p := bankPart o
  let shown := if p.1 = 1 then v == .int else if p.1 = 2 then true else p.1 == 3 && seesCluster s v d p.2
  if !shown then 0 else if shadow then tblGet 0 (die s d).shadow o else tblGet 0 (die (snapCounts d s) d).live o

/-- Cores not fenced, over all clusters. -/
def healthyCores (x : Die) : Nat := ((List.range 64).map (healthy x)).sum

/-- AXW_DIE_STATUS; what self-test finds shows once the die has announced itself. -/
def dieStatus (s : State) (x : Die) : Nat :=
  let k := ((List.range 64).filter fun c => !clFenced x c).length
  let st := if x.st = 1 then (if s.time.edges < x.testAt then 0 else if s.time.edges < x.trainAt then 1 else 2) else x.st
  st + (if x.hello then at_ 4 k + at_ 11 (healthyCores x) else 0) + at_ 23 (bit (alarmCode x && !x.inReset && !(x.st == 7)))

/-- AXW of die `d` (R133, R163, R484, R507, R514). DESIGN CHOICE: before a die's first self-test AXW_FENCE_n and HEALTHY show no fence of
its own, so 0 and 32 (log 34). -/
def axwReg (s : State) (v : View) (d o : Nat) : Nat :=
  let x := die s d
  if x.st = 6 then (if o = 0 then 6 else 0)
  else match o with
    | 0x00 => dieStatus s x
    | 0x04 => x.stCores + at_ 12 x.stClusters + at_ 20 x.dieFail
    | 0x08 =>
      if seesCluster s v d x.last.cluster then
        x.last.cluster + at_ 6 x.last.core + at_ 11 x.last.cause + at_ 15 (bit x.last.valid) + at_ 16 x.last.count
      else 0
    | 0x10 => x.corrected % 65536 + at_ 16 (holdAt 255 x.uncorrected) + at_ 24 (holdAt 127 x.poison.length) + at_ 31 (bit x.scrubDone)
    | 0x14 => x.now + at_ 10 (x.peak.getD 0)
    | 0x200000 => x.shInfo
    | 0x200004 => x.shAt
    | _ =>
      match regIdx o 0x100 4 64, regIdx o 0x200 4 64 with
      | some c, _ => if seesCluster s v d c then coreMask x c else 0
      | _, some c =>
        if seesCluster s v d c then
          let p := ownerOf x c
          healthy x c + at_ 6 (bit (clFenced x c)) + (if p = 255 then 0 else at_ 8 p + at_ 12 1) + at_ 16 (bit (decide (c ∈ x.srSeen)))
        else 0
      | _, _ => if 0x200000 ≤ o then bankReg s v d (o - 0x200000) true else bankReg s v d o false

/-! ### The map (R511 to R515) -/

/-- A view reads a block: the internal one every block, a host none in its seat's reset, CMP alone before service (R277, R300). -/
def viewReads (s : State) (v : View) (block : Nat) : Bool := viewServes s v || (block == 0 && !(seatOf s (viewOwn v)).inReset)

/-- A register of a block below AXW. -/
def blockReg (s : State) (v : View) (block o : Nat) : Nat :=
  let int := v == .int
  match block with
  | 0x0 => cmpReg s o
  | 0x1 => seatReg s v o
  | 0x2 => ((queAt v o).map fun q => queReg (queueOf s q.1 q.2) (o % 32)).getD 0
  | 0x3 => if o < 0x400 && sees s v (o / 0x40) then layReg (part s (o / 0x40)) (o % 0x40) else 0
  | 0x4 => if o < 0x100 && sees s v (o / 0x10) then frmReg (part s (o / 0x10)) (o % 0x10) else 0
  | 0x5 => evdReg s v o
  | 0x6 => if int then icuReg s false o else 0
  | 0x7 => wdgReg s v o
  | 0x8 => if int then crcReg s o else 0
  | 0x9 => timReg s o
  | 0xA => netReg s v o
  | 0xB => sioReg s v o
  | 0xC => updReg s o
  | 0xD => pwrReg s o
  | 0xE => snapReg s o
  | 0xF => ringReg s o
  | 0x10 => capReg s o
  | 0x11 => attReg s v o
  | 0x12 => dbgReg s o
  | _ => 0

/-- What the register at a BAR0 offset holds for a view, without the effects that a read may have (R6, R8, R511). -/
def regRead (s : State) (v : View) (a : Nat) : Nat :=
  if a % 4 ≠ 0 ∨ 0x2000000 ≤ a ∨ viewReads s v (a / 65536) = false then 0
  else if 0x1000000 ≤ a then
    (if a < 0x2000000 then axwReg s v ((a - 0x1000000) / 0x400000) ((a - 0x1000000) % 0x400000) else 0)
  else blockReg s v (a / 65536) (a % 65536)

/-- The lower word of a value wider than 32 bits (R7): a MAC address, a queue base, EVD_SAFE_STAMP, a mask of the monitor, CRC_STATE,
CRC_RESULT, a long count, TIM_STEP, NET_TXTS, CAP_EVT and CAP_PPS_IN. -/
def isLower (a : Nat) : Bool :=
  let o := a % 65536
  match a / 65536 with
  | 0x0 => o == 0x30 || o == 0x38
  | 0x2 => decide (o < 0x1000) && (o % 32 == 0 || o % 32 == 8)
  | 0x5 => o == 0x14
  | 0x7 => decide (0x800 ≤ o) && decide (o < 0x900) && (o % 32 == 0 || o % 32 == 8 || o % 32 == 16)
  | 0x8 => decide (o < 0x200) && (o % 64 == 0x14 || o % 64 == 0x1C)
  | 0x9 => decide (o < 0x100) && (o % 64 == 0 || (o % 64 == 0x38 && !(o == 0x38)))
  | 0xA => o == 0x804 || o == 0x844
  | 0x10 => (regIdx o 0x110 8 8).isSome && o % 8 == 0 || o == 0x158
  | _ => false

/-- The latched upper word of a view at an address. -/
def latchOf (s : State) (v : View) (a : Nat) : Option Word := (s.latch.find? fun e => e.1 == v && e.2.1 == a).map (·.2.2)

/-- The latch of a view at an address replaced. -/
def setLatch (v : View) (a : Nat) (x : Option Word) (s : State) : State :=
  let l := s.latch.filter fun e => !(e.1 == v && e.2.1 == a)
  { s with latch := match x with
      | some w => (v, a, w) :: l
      | none => l }

/-- What a read of an upper word returns: the latched word once, then the register (R7). -/
def upperRead (v : View) (a : Nat) (s : State) : Nat × State :=
  match latchOf s v a with
  | some w => (w.toNat, setLatch v a none s)
  | none => (regRead s v a, s)

/-- A lower word is read: the upper one is latched for the view (R7). -/
def lowerRead (v : View) (a : Nat) (s : State) : Nat × State :=
  (regRead s v a, setLatch v (a + 4) (some (w32 (regRead s v (a + 4)))) s)

end Sys2Proof.Machine
end

