-- ==== Sys2Proof/Machine/Update.lean ====
section
/-! DEFINITION. Machine/Update.lean: identity, status, attestation and updates of images (R295, R432, R437 to R455). -/

namespace Sys2Proof.Machine

/-! ### IDENTIFY and GET_STATUS (R295) -/

/-- A command that answers with output; INFO1 is its full length (R283). -/
def answers (h : Hdr) (out : List Byte) (s : State) : State := completeWith h stOk 0 out.length 0 out s

/-- IDENTIFY. -/
def execIdentify (h : Hdr) (s : State) : Res := romCommand h (fun s => answers h (identity s) s) s

/-- GET_STATUS, SELECT 0. -/
def execGetStatusDevice (h : Hdr) (s : State) : Res := command h (fun s => answers h (identity s) s) s

/-- The 128 bytes of SELECT 1. -/
def partStatus (s : State) (n : Nat) : List Byte :=
  let p := part s n
  let ws := [layReg p 0, layReg p 4] ++ ((List.range 4).map fun i => frmReg p (4 * i)) ++
    [evdCount p false, evdCount p true, evdEsc s n] ++ (List.range 8).map fun w => layDigest p w
  (ws.map (leBytes 4)).flatten ++ zeroBytes 60

/-- Seat N has GET_STATUS for the device only (R293). -/
def notN (h : Hdr) : Bool × Nat := (h.seat == .n, eRights)

/-- GET_STATUS, SELECT 1. -/
def execGetStatusPartition (h : Hdr) (s : State) : Res :=
  command h (fun s =>
    let st := lowest (notN h :: partChecks s h false)
    if st = stOk then answers h (partStatus s h.part) s else complete h st s) s

/-- A PCIe seat names something of partition `n` that the other seat owns (R292). -/
def othersPart (s : State) (h : Hdr) (n : Nat) : Bool :=
  (h.seat == .a || h.seat == .b) && !(ownerNo s n == 3) && !(ownerNo s n == seatNo h.seat)

/-- GET_STATUS, SELECT 2: the context of index 16,384 × die + slot. -/
def execGetStatusContext (h : Hdr) (index : Nat) (s : State) : Res :=
  command h (fun s =>
    let d := index / 16384
    let c := index % 16384
    let x := ctx s d c
    let free := decide (3 < d) || x.kind == 0
    let st := lowest [notN h, (ctxForeign s h index || (!free && othersPart s h x.part), eRights), (free || dieLost s d, eAbsent)]
    if st = stOk then answers h (ctxBody x ++ leBytes 4 x.dcrc.toNat) s else complete h st s) s

/-- GET_STATUS, SELECT 3: an evidence record that is stored and that the seat may see (R252, R272, R292). -/
def execGetStatusEvidence (h : Hdr) (index : Nat) (s : State) : Res :=
  command h (fun s =>
    let e := evidenceAt s index
    let pcie := h.seat == .a || h.seat == .b
    let owner := (e.map (·.owner)).getD 3
    let st := lowest [notN h, (pcie && !(owner == 3) && !(owner == seatNo h.seat), eRights), (e.isNone || (pcie && owner == 3), eAbsent)]
    match st, e with
    | 0, some r => answers h r.bytes s
    | _, _ => complete h st s) s

/-! ### ATTEST (R437 to R439) -/

/-- ATTEST, SELECT 0: the signing begins, or one is under way. -/
def execAttestReport (h : Hdr) (nonce : List Byte) (s : State) : Res :=
  command h (fun s =>
    if s.upd.signing.isSome then complete h eBusy s else { s with upd := { s.upd with signing := some (h, nonce) } }) s

/-- An image kind's entry of the report (R438). -/
def imageEntry (s : State) (k : Nat) : List Byte :=
  let x := kindOf s k
  leBytes 1 k ++ leBytes 1 (bit x.active) ++ leBytes 1 (bit (inTrial s k)) ++ leBytes 1 0 ++ leBytes 4 x.version ++
  leBytes 4 ((counterOf x).getD (Config.freeNat s.free)) ++ leBytes 4 0 ++ padTo 32 x.bodyDigest

/-- A partition's entry of the report; zeros for one that the asking seat may not see. -/
def partEntry (s : State) (v : Seat) (n : Nat) : List Byte :=
  let p := part s n
  if (v == .a || v == .b) && !(ownerNo s n == seatNo v) then zeroBytes 48
  else leBytes 1 p.st ++ leBytes 1 p.seat ++ leBytes 1 (bit p.autoloaded) ++ leBytes 1 0 ++
    leBytes 4 ((p.layout.map (·.layoutVersion)).getD 0) ++ zeroBytes 8 ++ padTo 32 (if p.st = 0 then [] else p.digest)

/-- The 1,024 bytes of the report (R438). -/
def reportBody (s : State) (h : Hdr) (nonce : List Byte) : List Byte :=
  [0x52, 0x59, 0x41, 0x54] ++ leBytes 1 1 ++ leBytes 1 (deviceState s) ++ leBytes 1 (sealNow s).toNat ++ leBytes 1 (bit s.sio.fault) ++
  ((List.range 16).map Config.serial) ++ [0x42, 0x30] ++ leBytes 1 (seatNo h.seat) ++
  leBytes 1 (s.ring.present + 16 * maskOf 4 fun d => (die s d).st == 5) ++ leBytes 4 (Config.bootsBefore + s.upd.boots) ++
  padTo 32 nonce ++ leBytes 4 (nowNs s) ++ leBytes 1 (nowEra s) ++ zeroBytes 7 ++ leBytes 4 Config.romVersion.toNat ++
  ([1, 2, 3].map (imageEntry s)).flatten ++ zeroBytes 16 ++ ((List.range 16).map (partEntry s h.seat)).flatten ++ zeroBytes 16

/-- ATTEST_SIGNED: the report is signed as the device stands then, and the command completes. -/
def execAttestSigned (s : State) : Res :=
  .next (match s.upd.signing with
  | none => s
  | some (h, nonce) =>
    if !firmwareRuns s then s
    else
      let b := reportBody s h nonce
      answers h (b ++ padTo 49856 (Config.slhSign s.upd.shakeSlot b)) { s with upd := { s.upd with signing := none } })

/-- The certificate: a 128-byte body and its signature (R439). -/
def certificate : List Byte :=
  [0x52, 0x59, 0x44, 0x43] ++ leBytes 1 1 ++ zeroBytes 1 ++ [0x42, 0x30] ++ (List.range 16).map Config.serial ++
  (List.range 64).map Config.attestPublic ++ leBytes 4 Config.certIssued.toNat ++ zeroBytes 36 ++ padTo 29792 Config.certSignature

/-- ATTEST, SELECT 1: the certificate; a second ATTEST while a report is being signed is refused (R437). -/
def execAttestCert (h : Hdr) (s : State) : Res :=
  command h (fun s => if s.upd.signing.isSome then complete h eBusy s else answers h certificate s) s

/-! ### Updates: the general rules (R432, R445, R454) -/

/-- An update command ends; its status is the kind's LAST_STATUS (R455). -/
def updEnds (h : Hdr) (k status info0 info1 : Nat) (s : State) : State :=
  let s := if 1 ≤ k ∧ k ≤ 3 then modKind k (fun x => { x with lastStatus := status }) s else s
  completeWith h status info0 info1 0 [] s

/-- A KIND outside 1 to 3; the boot ROM accepts kind 1 alone (R432, R454). -/
def kindChecks (s : State) (k : Nat) : List (Bool × Nat) :=
  [(k == 0 || decide (3 < k), eFormat), (s.upd.seatSOnly && !(k == 1), eState)]

/-! ### DOWNLOAD (R441, R442, R446) -/

/-- Seat B lacks the right to DOWNLOAD (R293). -/
def notB (h : Hdr) : Bool × Nat := (h.seat == .b, eRights)

/-- Body bytes of the image last downloaded, from its chunk 0: in the inactive slot, and after CONFIRM in the active one. -/
def downloadBody (x : Kind) : Nat := rd (tblGet [] (slotChunks x (!(x.stage == 0))) 0) 0x0C 4

/-- Bytes of chunk `i` of the image being downloaded (R441). -/
def chunkLength (x : Kind) (i : Nat) : Nat :=
  if i = 0 then 29920
  else
    let n := chunkCount (downloadBody x)
    if i + 1 < n then 65536 else if i + 1 = n then downloadBody x - 65520 * (n - 2) + 16 else 0

/-- A piece that lies wholly within what has been received or within an earlier chunk (R446). -/
def pieceRepeats (x : Kind) (chunk offset len : Nat) : Bool :=
  (decide (chunk < x.nextChunk) && decide (offset + len ≤ chunkLength x chunk)) || (chunk == x.nextChunk && decide (offset + len ≤ x.partial_.length))

/-- The expected piece (R446). -/
def pieceExpected (x : Kind) (chunk offset len : Nat) : Bool :=
  x.stage == 1 && chunk == x.nextChunk && offset == x.partial_.length && decide (offset + len ≤ chunkLength x chunk)

/-- Chunk 0 at OFFSET 0 starts the download, and with it an update, afresh (R445, R446). -/
def downloadStarts (k : Nat) (s : State) : State :=
  let s := { s with upd := { s.upd with current := k } }
  modKind k (fun x => { x with
    stage := 1, nextChunk := 0, partial_ := [], partSeat := none, reverted := false, trialPend := false, trials := 0 }) s

/-- What a refused piece answers. While a chunk is being programmed, a piece that is no repeat finds the kind busy (log 105). -/
def downloadStatus (s : State) (h : Hdr) (k chunk offset len : Nat) : Nat :=
  let x := kindOf s k
  let again := chunk == 0 && offset == 0
  lowest (notB h :: kindChecks s k ++
    [(!(s.upd.current == 0) && !(s.upd.current == k), eBusy), (chunk == 0 && inTrial s k, eState), (x.committing.isSome && (again || !pieceRepeats x chunk offset len), eBusy),
     (!x.partial_.isEmpty && !(x.partSeat == some h.seat), eBusy),
     (again && decide (29920 < len), eFormat), (!again && !pieceRepeats x chunk offset len && !pieceExpected x chunk offset len, eFormat)])

/-- The assembled chunk is complete: its CRC-32C and, for chunk 0, its header decide; on a match the sector is erased (R441,
R446). -/
def chunkWhole (h : Hdr) (k chunk : Nat) (crc : Word) (s : State) : State :=
  let x := kindOf s k
  let discard := modKind k (fun x => { x with partial_ := [], partSeat := none })
  if !(crc32c x.partial_ == crc) then updEnds h k eCrc 0 0 (discard s)
  else if chunk == 0 && !imageFits k x.partial_ then updEnds h k eFormat 0 0 (discard s)
  else modKind k (fun x => { x with
    committing := some h
    slotA := if x.active then tblErase x.slotA chunk else x.slotA
    slotB := if x.active then x.slotB else tblErase x.slotB chunk
    facA := x.facA && !x.active }) s

/-- A piece is appended (R446). -/
def pieceAppended (h : Hdr) (k chunk : Nat) (crc : Word) (data : List Byte) (s : State) : State :=
  let s := modKind k (fun x => { x with partial_ := x.partial_ ++ data, partSeat := some h.seat }) s
  let x := kindOf s k
  if x.partial_.length = chunkLength x chunk then chunkWhole h k chunk crc s else updEnds h k stOk 0 0 s

/-- UPD_DOWNLOAD. LENGTH 0 polls (R446). -/
def execUpdDownload (h : Hdr) (kind chunk offset : Nat) (crc : Word) (data : List Byte) (s : State) : Res :=
  romCommand h (fun s =>
    let x := kindOf s kind
    if data.isEmpty then
      let st := lowest (notB h :: kindChecks s kind)
      if st = stOk then updEnds h kind stOk x.partial_.length x.nextChunk s else updEnds h kind st 0 0 s
    else
      let st := downloadStatus s h kind chunk offset data.length
      if st ≠ stOk then updEnds h kind st 0 0 s
      else if chunk = 0 ∧ offset = 0 then pieceAppended h kind 0 crc data (downloadStarts kind s)
      else if pieceRepeats x chunk offset data.length then updEnds h kind stOk 0 0 s
      else pieceAppended h kind chunk crc data s) s

/-- A stage change raises source 136 (R330). -/
def stageEvent (s : State) : State := icuEvent 136 s

/-- The programmed chunk of kind `k` is committed (R446, R452). -/
def commitChunk (k : Nat) (h : Hdr) (s : State) : State :=
  let s := modKind k (fun x =>
    let b := x.partial_
    let i := x.nextChunk
    { x with
      slotA := if x.active then tblPut x.slotA i b else x.slotA
      slotB := if x.active then x.slotB else tblPut x.slotB i b
      nextChunk := i + 1, partial_ := [], partSeat := none, committing := none }) s
  let x := kindOf s k
  let whole := decide (chunkCount (downloadBody x) ≤ x.nextChunk)
  let s := if whole then stageEvent (modKind k (fun x => { x with stage := 2 }) s) else s
  updEnds h k stOk 0 0 s

/-- The kind whose chunk is being written, with its command. -/
def committingKind (s : State) : Option (Nat × Hdr) := [1, 2, 3].findSome? fun k => (kindOf s k).committing.map fun h => (k, h)

/-- Firmware or boot ROM that serves updates runs (R319, R432). -/
def updRuns (s : State) : Bool := !s.pair.halted && (!s.upd.restart || s.upd.seatSOnly)

/-- CHUNK_COMMIT. -/
def execChunkCommit (s : State) : Res :=
  .next (match committingKind s with
  | some (k, h) => if updRuns s then commitChunk k h s else s
  | none => s)

/-! ### VERIFY (R447) -/

/-- A VERIFY or an ACTIVATE is in progress. -/
def updInProgress (s : State) : Bool :=
  s.upd.restart && !s.upd.seatSOnly || [1, 2, 3].any (fun k => (kindOf s k).verifying.isSome) ||
  (inTrial s 2 && [0, 1, 2, 3].any fun d => (die s d).dReset.isSome)

/-- UPD_VERIFY. -/
def execUpdVerify (h : Hdr) (kind : Nat) (s : State) : Res :=
  romCommand h (fun s =>
    let st := lowest (onlyAS h :: kindChecks s kind ++ [(!((kindOf s kind).stage == 2), eState), (updInProgress s, eBusy)])
    if st = stOk then stageEvent (modKind kind (fun x => { x with stage := 3, verifying := some h }) s) else updEnds h kind st 0 0 s) s

/-- The verification of kind `k` ends with R443's status. -/
def verifyEnds (k : Nat) (h : Hdr) (s : State) : State :=
  let x := kindOf s k
  let st := if x.stage = 3 then slotStatus s.upd.aesSlot k x true else eState
  let s := modKind k (fun x => { x with verifying := none, stage := if x.stage = 3 then (if st = stOk then 4 else 2) else x.stage }) s
  updEnds h k st 0 0 (stageEvent s)

/-- The kind under verification, with its command. -/
def verifyingKind (s : State) : Option (Nat × Hdr) := [1, 2, 3].findSome? fun k => (kindOf s k).verifying.map fun h => (k, h)

/-- VERIFY_DONE. -/
def execVerifyDone (s : State) : Res :=
  .next (match verifyingKind s with
  | some (k, h) => if updRuns s then verifyEnds k h s else s
  | none => s)

/-! ### ACTIVATE, the restart, CONFIRM and the window (R448 to R451) -/

/-- The trial begins by kind, after the completion (R448). -/
def trialBegins (k : Nat) (s : State) : State :=
  if k = 1 then restartBegins { s with upd := { s.upd with seatSOnly := false } }
  else if k = 2 then
    let s := modKind 2 (fun x => { x with present := s.ring.present }) s
    microcodeResets (bootKind 2 s)
  else bootKind 3 s

/-- UPD_ACTIVATE: TRIAL_PENDING is committed, the completion posted, then the trial begins. -/
def execUpdActivate (h : Hdr) (kind window : Nat) (s : State) : Res :=
  romCommand h (fun s =>
    let st := lowest (onlyAS h :: kindChecks s kind ++
      [(!(window == 0) && (decide (window < 60) || decide (3600 < window)), eFormat), (!((kindOf s kind).stage == 4), eState),
       (kind == 2 && s.parts.any (fun e => !(e.2.st == 0)), eState)])
    if st ≠ stOk then updEnds h kind st 0 0 s
    else
      let s := { s with upd := { s.upd with current := kind } }
      let s := modKind kind (fun x => { x with trialPend := true, trials := 0, window := window }) s
      trialBegins kind (updEnds h kind stOk 0 0 (stageEvent s))) s

/-- The restart ends: the boot ROM has chosen its image; the firmware takes up the running state, or comes up for the first time,
or only the boot ROM serves (R425, R432, R451). -/
def restartEnds (s : State) : State :=
  let s := bootKind 1 s
  if (kindOf s 1).bootFail then { s with upd := { s.upd with seatSOnly := true } }
  else
    let s := { s with upd := { s.upd with restart := false } }
    if s.releaseX.isNone then firmwareUp s else applySettings (declareTasks s)

/-- ACTIVATION_RESTART_DONE. -/
def execActivationRestartDone (s : State) : Res := .next (if s.upd.restart && !s.upd.seatSOnly then restartEnds s else s)

/-- UPD_CONFIRM (R450). -/
def execUpdConfirm (h : Hdr) (kind : Nat) (s : State) : Res :=
  romCommand h (fun s =>
    let st := lowest (onlyAS h :: kindChecks s kind ++ [(!(inTrial s kind), eState)])
    if st ≠ stOk then updEnds h kind st 0 0 s
    else
      let s := { s with upd := { s.upd with current := if s.upd.current = kind then 0 else s.upd.current } }
      let s := modKind kind (fun x => raiseCounter (slotVersion kind x true) { x with
        active := !x.active, trialPend := false, trials := 0, stage := 0 }) s
      updEnds h kind stOk 0 0 (stageEvent s)) s

/-- The kind's trial window has ended (R449). -/
def windowOver (s : State) (k : Nat) : Bool :=
  inTrial s k && decide ((kindOf s k).trialAt + trialWindow (kindOf s k) * 1000000000 ≤ tbSafe s)

/-- TRIAL_WINDOW_EXPIRY. -/
def execTrialWindowExpiry (s : State) : Res :=
  .next (match [1, 2, 3].find? (windowOver s) with
  | some k => revertKind k s
  | none => s)

end Sys2Proof.Machine
end

