-- ==== Sys2Proof/Machine/Operands.lean ====
section
/-! DEFINITION. Machine/Operands.lean: the 64-byte submission entry and its PARAMS as a command, and running a command by name (R282,
R283, R293, R294, R322, R411, R437, R454, R459, R463). -/

namespace Sys2Proof.Machine

/-! ### The entry (R282) -/

/-- OPCODE. -/
def entryOp (e : List Byte) : Nat := rd e 0 1

/-- LENGTH. -/
def entryLen (e : List Byte) : Nat := rd e 0x10 4

/-- PARAMS. -/
def entryParams (e : List Byte) : List Byte := sub e 0x18 40

/-- The header of an entry from seat `x`: its queue number, and `addr` in place of ADDR for a seat without host memory. -/
def entryHdr (x : Seat) (sq : Nat) (addr : Option Nat) (e : List Byte) : Hdr :=
  ⟨x, sq, rd e 2 2, rd e 4 1, addr.getD (rd e 8 8), entryLen e⟩

/-- FLAGS and the reserved bytes outside PARAMS are 0, and PARTITION is one or 0xFF. DEDUCED: another PARTITION is E_FORMAT also where the
command names none (log 97). -/
def entryClean (e : List Byte) : Bool :=
  zeros e 1 1 && zeros e 5 3 && zeros e 0x14 4 && (decide (rd e 4 1 ≤ 15) || rd e 4 1 == 255)

/-- The data range ends within the bus address space (R283). -/
def rangeOk (e : List Byte) : Bool := decide (rd e 8 8 + entryLen e ≤ 2 ^ 64)

/-- The commands that read the data range (R295, R446). -/
def opReads (op : Nat) : Bool := op == 0x10 || op == 0x14 || op == 0x16 || op == 0x20 || op == 0x21 || op == 0x40

/-- Every byte of PARAMS outside the listed fields, each an offset and a size, is 0 (R282, R294). -/
def paramsClean (p : List Byte) (fields : List (Nat × Nat)) : Bool :=
  (List.range 40).all fun i => fields.any (fun f => decide (f.1 ≤ i) && decide (i < f.1 + f.2)) || p.getD i 0 == 0

/-! ### PARAMS (R294, R322, R411, R437, R454, R459, R463) -/

/-- A command with whether its PARAMS are well formed. -/
abbrev Parsed := Option (Instr × Bool)

/-- GET_STATUS. -/
def parseStatus (h : Hdr) (p : List Byte) : Parsed :=
  let i := rd p 4 4
  let clean := paramsClean p [(0, 1), (4, 4)]
  match rd p 0 1 with
  | 0 => some (.getStatusDevice h, clean && i == 0)
  | 1 => some (.getStatusPartition h, clean && i == 0)
  | 2 => some (.getStatusContext h i, clean)
  | 3 => some (.getStatusEvidence h i, clean)
  | _ => none

/-- ATTEST. -/
def parseAttest (h : Hdr) (p : List Byte) : Parsed :=
  let clean := paramsClean p [(0, 1), (8, 32)]
  match rd p 0 1 with
  | 0 => some (.attestReport h (sub p 8 32), clean)
  | 1 => some (.attestCert h, clean)
  | _ => none

/-- The TIME item of SAFETY_SET. -/
def parseTime (h : Hdr) (p : List Byte) : Parsed :=
  let b := rd p 2 1
  let clean := paramsClean p [(0, 3), (8, 8)]
  match rd p 1 1 with
  | 0 => some (.timeStep (.cmd h) b (sgn 64 (rd p 8 8)), clean)
  | 1 => some (.timeAdopt (.cmd h) b, clean)
  | 2 => some (.timeDismiss (.cmd h) b, clean)
  | 3 => some (.timePathAck (.cmd h) b, clean)
  | _ => none

/-- A 32-bit field. -/
def word (p : List Byte) (o : Nat) : Word := w32 (rd p o 4)

/-- SAFETY_SET by item (R411). -/
def parseSafety (h : Hdr) (p : List Byte) : Parsed :=
  let b (i : Nat) : Nat := rd p i 1
  match b 0 with
  | 0x01 => some (.wdgTake h (b 1) (b 2) (b 3) (rd p 4 4) (rd p 8 4), paramsClean p [(0, 12)])
  | 0x02 => some (.wdgRelease h (b 1), paramsClean p [(0, 2)])
  | 0x03 => some (.wdgMode h (b 1) (b 2) (b 3), paramsClean p [(0, 4)])
  | 0x08 => parseTime h p
  | 0x09 => some (.timeCfg h (b 1) (BitVec.ofNat 4 (b 2)) (word p 4) (word p 8) (b 12),
      paramsClean p [(0, 3), (4, 9)] && decide (b 2 < 16))
  | 0x0A => some (.xd h (word p 4), paramsClean p [(0, 1), (4, 4)])
  | 0x0B => some (.netCfg h (b 1) (word p 4) (word p 8) (word p 12) (word p 16), paramsClean p [(0, 2), (4, 16)])
  | 0x10 => some (.telegram h
      { enable := b 1 == 1, udpPort := if rd p 2 2 = 0 then 50216 else rd p 2 2, srcId := word p 4, dstId := word p 8
        txCycle := rd p 12 2, rxCycle := rd p 14 2, peerNa := word p 16, peerNb := word p 20 },
      paramsClean p [(0, 24)] && decide (b 1 < 2))
  | 0x11 => some (.slot h
      { slot := b 1, enable := b 2 == 1, part := b 3, region := rd p 4 2, output := b 6, element := rd p 8 2 },
      paramsClean p [(0, 7), (8, 2)] && decide (b 2 < 2))
  | _ => none

/-- SLEEP; TIMER belongs to ATTIC alone (R463). -/
def parseSleep (h : Hdr) (p : List Byte) : Parsed :=
  match rd p 0 1 with
  | 0 => some (.sleepRun h, paramsClean p [(0, 1)])
  | 1 => some (.sleepDoze h, paramsClean p [(0, 1)])
  | 2 => some (.sleepNap h, paramsClean p [(0, 1)])
  | 3 => some (.sleepAttic h (rd p 4 4), paramsClean p [(0, 1), (4, 4)])
  | _ => none

/-- LOCKSTEP; a rejoin's tap test comes from outside the entry: DESIGN CHOICE: a half answers it as it answered the last (R322; log 103). -/
def parseLockstep (h : Hdr) (p : List Byte) (tap : TapResult) : Parsed :=
  match rd p 0 1 with
  | 0 => some (.lockstepSplit h, paramsClean p [(0, 1)])
  | 1 => some (.lockstepRejoin h tap, paramsClean p [(0, 1)])
  | _ => none

/-- The command of an opcode, its PARAMS and its input data (R293); none for an unknown opcode or selector. -/
def parseCommand (h : Hdr) (op : Nat) (p data : List Byte) (tap : TapResult) : Parsed :=
  match op with
  | 0x01 => some (.identify h, paramsClean p [])
  | 0x02 => parseStatus h p
  | 0x03 => parseAttest h p
  | 0x10 => some (.load h data, paramsClean p [])
  | 0x11 => some (.unload h, paramsClean p [])
  | 0x12 => some (.start h, paramsClean p [])
  | 0x13 => some (.stop h, paramsClean p [])
  | 0x14 => some (.storeLayout h data, paramsClean p [])
  | 0x15 => some (.eraseLayout h, paramsClean p [])
  | 0x16 => some (.uploadConst h (rd p 0 1) data, paramsClean p [(0, 1)])
  | 0x17 => some (.releaseConst h (sub p 0 32), paramsClean p [(0, 32)])
  | 0x18 => some (.setResultRing h (rd p 0 1), paramsClean p [(0, 1)])
  | 0x20 => some (.feedSamples h (rd p 0 2) (rd p 2 2) (rd p 4 4) (rd p 8 1) data, paramsClean p [(0, 9)])
  | 0x21 => some (.feedMessage h (rd p 0 2) (rd p 4 4) data, paramsClean p [(0, 2), (4, 4)])
  | 0x22 => some (.checkin h (rd p 0 1), paramsClean p [(0, 1)])
  | 0x23 => some (.fenceCore h (rd p 0 1) (rd p 1 1) (rd p 2 1), paramsClean p [(0, 3)])
  | 0x30 => parseSafety h p
  | 0x31 => some (.okayRelease h, paramsClean p [])
  | 0x38 => parseSleep h p
  | 0x39 => some (.systemReset h, paramsClean p [])
  | 0x3A => some (.dieReset h (rd p 0 1), paramsClean p [(0, 1)])
  | 0x40 => some (.updDownload h (rd p 0 1) (rd p 4 4) (rd p 8 4) (word p 12) data, paramsClean p [(0, 1), (4, 12)])
  | 0x41 => some (.updVerify h (rd p 0 1), paramsClean p [(0, 1)])
  | 0x42 => some (.updActivate h (rd p 0 1) (rd p 4 4), paramsClean p [(0, 1), (4, 4)])
  | 0x43 => some (.updConfirm h (rd p 0 1), paramsClean p [(0, 1)])
  | 0x48 => parseLockstep h p tap
  | _ => none

/-- The seat lacks the right to what an entry's opcode and its first byte of PARAMS select: GET_STATUS past the device, SAFETY_SET, of which
seat B has WDG_TAKE and WDG_RELEASE, SLEEP and LOCKSTEP (R275, R293, R411). -/
def opRefused (x : Seat) (e : List Byte) : Bool :=
  let op := entryOp e
  let sel := rd (entryParams e) 0 1
  match x with
  | .n => (op == 0x02 && !(sel == 0)) || op == 0x30 || op == 0x38 || op == 0x48
  | .b => (op == 0x30 && !(sel == 1 || sel == 2)) || op == 0x38 || op == 0x48
  | .a => op == 0x48
  | .s => false

/-! ### Running a command -/

/-- The meaning of a row that is a command; other rows are no commands of a seat. -/
def runCommand (i : Instr) (s : State) : Res :=
  match i with
  | .identify h => execIdentify h s
  | .getStatusDevice h => execGetStatusDevice h s
  | .getStatusPartition h => execGetStatusPartition h s
  | .getStatusContext h n => execGetStatusContext h n s
  | .getStatusEvidence h n => execGetStatusEvidence h n s
  | .attestReport h n => execAttestReport h n s
  | .attestCert h => execAttestCert h s
  | .load h b => execLoad h b s
  | .unload h => execUnload h s
  | .start h => execStart h s
  | .stop h => execStop h s
  | .storeLayout h b => execStoreLayout h b s
  | .eraseLayout h => execEraseLayout h s
  | .uploadConst h m b => execUploadConst h m b s
  | .releaseConst h d => execReleaseConst h d s
  | .setResultRing h c => execSetResultRing h c s
  | .feedSamples h c q t e b => execFeedSamples h c q t e b s
  | .feedMessage h c r b => execFeedMessage h c r b s
  | .checkin h t => execCheckin h t s
  | .fenceCore h d c k => execFenceCore h d c k s
  | .wdgTake h u m w o c => execWdgTake h u m w o c s
  | .wdgRelease h u => execWdgRelease h u s
  | .wdgMode h u m w => execWdgMode h u m w s
  | .timeStep t b a => execTimeStep t b a s
  | .timeAdopt t b => execTimeAdopt t b s
  | .timeDismiss t b => execTimeDismiss t b s
  | .timePathAck t b => execTimePathAck t b s
  | .timeCfg h b c g l p => execTimeCfg h b c g l p s
  | .xd h c => execXd h c s
  | .netCfg h p a m g t => execNetCfg h p a m g t s
  | .telegram h c => execTelegram h c s
  | .slot h c => execSlot h c s
  | .okayRelease h => execOkayRelease h s
  | .sleepRun h => execSleepRun h s
  | .sleepDoze h => execSleepDoze h s
  | .sleepNap h => execSleepNap h s
  | .sleepAttic h t => execSleepAttic h t s
  | .systemReset h => execSystemReset h s
  | .dieReset h d => execDieReset h d s
  | .updDownload h k c o x b => execUpdDownload h k c o x b s
  | .updVerify h k => execUpdVerify h k s
  | .updActivate h k w => execUpdActivate h k w s
  | .updConfirm h k => execUpdConfirm h k s
  | .lockstepSplit h => execLockstepSplit h s
  | .lockstepRejoin h t => execLockstepRejoin h t s
  | _ => .next s

/-- The state that an answer leaves. -/
def stateOf (r : Res) (s : State) : State :=
  match r with
  | .next t => t
  | _ => s

/-- The STATUS of a completion among outputs. -/
def completionStatus : Out → Option Nat
  | .hostWrite _ _ e => if e.length = 32 ∧ rd e 3 1 = 0 then some (rd e 6 1) else none
  | .answer _ e _ => some (rd e 6 1)
  | _ => none

/-- The STATUS with which a command completes at once. -/
def statusAtOnce (i : Instr) (s : State) : Option Nat :=
  let t := stateOf (runCommand i s) s
  (t.out.take (t.out.length - s.out.length)).findSome? completionStatus

/-- What a refusal leaves behind: LAY_LAST of a load or an unload, LAST_STATUS of an update command (R19, R225, R455). -/
def noteRefusal (i : Option Instr) (st : Nat) (s : State) : State :=
  let lay (h : Hdr) : State :=
    if (h.seat == .a || h.seat == .b) && ((part s h.part).st == 0 || (part s h.part).seat == seatNo h.seat) then layLast h.part st noRec s else s
  let upd (k : Nat) : State := if 1 ≤ k ∧ k ≤ 3 then modKind k (fun x => { x with lastStatus := st }) s else s
  match i with
  | some (.load h _) => lay h
  | some (.unload h) => lay h
  | some (.updDownload _ k _ _ _ _) => upd k
  | some (.updVerify _ k) => upd k
  | some (.updActivate _ k _) => upd k
  | some (.updConfirm _ k) => upd k
  | _ => s

/-- INFO0 of a refusal: no record for a load (R225), DBG_PAIR_STATUS for LOCKSTEP (R322). -/
def refusalInfo (op : Nat) (s : State) : Nat := if op = 0x10 ∨ op = 0x11 then noRec else if op = 0x48 then pairStatus s else 0

/-- A command refused before its data is looked at: `code`, or a right or a state that refuses it too (R19). -/
def refusedWith (h : Hdr) (e : List Byte) (i : Option Instr) (code : Nat) (s : State) : State :=
  let st := (i.bind fun i => statusAtOnce i s).getD 0
  let st := lowest [(true, code), (opRefused h.seat e, eRights), (st == eRights, eRights), (st == eState, eState)]
  completeWith h st (refusalInfo (entryOp e) s) 0 0 [] (noteRefusal i st (accept h s))

/-- An entry as the device reads it: the command, and whether its format is good (R282, R283). -/
def readEntry (h : Hdr) (e data : List Byte) (s : State) : Parsed :=
  let host := h.seat == .a || h.seat == .b
  (parseCommand h (entryOp e) (entryParams e) data s.pair.tap).map fun r => (r.1, r.2 && entryClean e && (!host || rangeOk e))

/-- An entry with its data runs, or is refused with E_FORMAT (R19, R282). -/
def runEntry (h : Hdr) (e data : List Byte) (s : State) : State :=
  match readEntry h e data s with
  | some (i, true) => stateOf (runCommand i (drawn s)) (drawn s)
  | some (i, false) => refusedWith h e (some i) eFormat s
  | none => refusedWith h e none eFormat s

end Sys2Proof.Machine
end

