-- ==== Sys2Proof/Machine/SeatOps.lean ====
section
/-! DEFINITION. Machine/SeatOps.lean: queue pairs and their doorbells, the registers of QUE as they are written (R281, R285, R304). -/

namespace Sys2Proof.Machine

/-! ### Queue pairs (R281, R304) -/

/-- The status of enabling a queue pair (R281); of several codes the lowest. -/
def queStatus (u : Queue) : Nat :=
  lowest [(u.sqSize == 0 || u.cqSize == 0, eZero),
    (u.sqSize == 1 || decide (4096 < u.sqSize) || u.cqSize == 1 || decide (4096 < u.cqSize), eFormat),
    (!(u.sqBase % 4096 == 0) || !(u.cqBase % 4096 == 0), eFormat)]

/-- A queue pair that is enabled afresh: empty, with phase 1 (R281, R286). -/
def queOn (u : Queue) : Queue :=
  let st := queStatus u
  if u.enable then u
  else if st = stOk then
    { u with enable := true, status := st, enabled := true, sqHead := 0, sqTail := 0, cqHead := 0, cqTail := 0, phase := true }
  else { u with enable := true, status := st, enabled := false }

/-- A queue pair that is disabled: what runs ends without its completion (R281). -/
def queOff (u : Queue) : Queue :=
  if u.enable then { u with enable := false, enabled := u.enabled && !(u.busy == 0), discard := u.busy } else u

/-- INT_EN and VECTOR of QUE_CTRL. -/
def queInt (v : Nat) (u : Queue) : Queue := { u with intEn := bitOf v 1, vector := fld v 7 2 }

/-- A write to a register of a queue pair; bases and sizes hold while ENABLE is 1 (R281, R304). -/
def queWrite (o v : Nat) (u : Queue) : Queue :=
  let low (b : Nat) : Nat := b / 2 ^ 32 * 2 ^ 32 + v / 4096 * 4096
  let high (b : Nat) : Nat := b % 2 ^ 32 + v * 2 ^ 32
  if o = 0x14 then (if bitOf v 0 then queOn (queInt v u) else queOff (queInt v u))
  else if o = 0x18 then { u with dbErr := u.dbErr && !bitOf v 10 }
  else if u.enable then u
  else match o with
    | 0x00 => { u with sqBase := low u.sqBase }
    | 0x04 => { u with sqBase := high u.sqBase }
    | 0x08 => { u with cqBase := low u.cqBase }
    | 0x0C => { u with cqBase := high u.cqBase }
    | 0x10 => { u with sqSize := fld v 12 0, cqSize := fld v 28 16 }
    | _ => u

/-! ### Doorbells (R285) -/

/-- An SQ tail doorbell (R285). -/
def sqBell (v : Nat) (u : Queue) : Queue :=
  if !(u.enabled && u.enable) then u else if v < u.sqSize then { u with sqTail := v } else { u with dbErr := true }

/-- The CQ head may move to `v`, a slot of the queue. -/
def cqHeadOk (u : Queue) (v : Nat) : Bool := decide (v < u.cqSize)

/-- A CQ head doorbell (R285). -/
def cqBell (v : Nat) (u : Queue) : Queue :=
  if !(u.enabled && u.enable) then u else if cqHeadOk u v then { u with cqHead := v } else { u with dbErr := true }

end Sys2Proof.Machine
end

