-- ==== Sys2Proof/Machine/Seats.lean ====
section
/-! DEFINITION. Machine/Seats.lean: doorbells, queues, the arbiter, the transports of seats N and S, host reads and seat resets (R277 to
R281, R285, R287, R291, R299 to R302). -/

namespace Sys2Proof.Machine

/-- Seat A or B, whose BARs serve. -/
def hostServes (s : State) (x : Seat) : Bool :=
  match x with
  | .a => viewServes s .a
  | .b => viewServes s .b
  | _ => false

/-! ### Doorbells and queue control (R281, R285) -/

/-- Sources 80 and 81: a submission doorbell was written (R330). -/
def sqEvent (x : Seat) (s : State) : State := icuEvent (80 + seatNo x) s

/-- The SQ tail doorbell of queue `q` written. -/
def sqRing (seat : Seat) (q v : Nat) (s : State) : State :=
  let u := queueOf s seat q
  if hostServes s seat && u.enable && u.enabled then
    let s := modQueue seat q (sqBell v) s
    if v < u.sqSize then sqEvent seat s else s
  else s

/-- SQ_DOORBELL. -/
def execSqDoorbell (seat : Seat) (q : Fin 64) (v : Word) (s : State) : Res := .next (sqRing seat q.val v.toNat s)

/-- The CQ head doorbell of queue `q` written. -/
def cqRing (seat : Seat) (q v : Nat) (s : State) : State := if hostServes s seat then modQueue seat q (cqBell v) s else s

/-- CQ_DOORBELL. -/
def execCqDoorbell (seat : Seat) (q : Fin 64) (v : Word) (s : State) : Res := .next (cqRing seat q.val v.toNat s)

/-- The ring after its head has moved to `v`; one position may be empty or full, and a head that frees more than is used empties the
ring (R289). -/
def headMoved (v : Nat) (r : ResRing) : ResRing :=
  let freed := (v + r.size - r.head) % r.size
  { r with head := v, used := if freed ≤ r.used then r.used - freed else (r.tail + r.size - v) % r.size }

/-- The result head doorbell of a partition written: a value beyond the ring, or no multiple of 16, sets DOORBELL_ERR of the ring's queue
(R285). -/
def headRing (seat : Seat) (n v : Nat) (s : State) : State :=
  if hostServes s seat && ownerNo s n == seatNo seat then
    match (part s n).ring with
    | none => s
    | some r =>
      if v < r.size ∧ v % 16 = 0 then modPart n (fun p => { p with ring := some (headMoved v r) }) s
      else modQueue seat r.cq (fun u => { u with dbErr := true }) s
  else s

/-- RESULT_HEAD_DOORBELL. -/
def execResultHeadDoorbell (seat : Seat) (part_ : Fin 16) (v : Word) (s : State) : Res := .next (headRing seat part_.val v.toNat s)

/-- QUEUE_ENABLE (R281). -/
def execQueueEnable (seat : Seat) (q : Fin 64) (s : State) : Res :=
  .next (if hostServes s seat then modQueue seat q.val queOn s else s)

/-! ### The arbiter (R283, R287) -/

/-- A command of the queue pair is ready: an entry is there, the previous one has completed, a CQ entry is free. -/
def queReady (u : Queue) : Bool :=
  u.enabled && u.enable && !(u.sqHead == u.sqTail) && u.busy == 0 && u.fetching.isNone && decide (0 < cqFree u)

/-- The next ready queue of a seat in rotation. -/
def nextQueue (s : State) (x : Seat) : Option Nat :=
  if serving s x then
    ((List.range 64).map fun i => ((seatOf s x).lastQ + 1 + i) % 64).find? fun q => queReady (queueOf s x q)
  else none

/-- The PCIe seat and queue that the arbiter fetches from next: of the two seats, the one whose turn is nearer (R287). -/
def nextFetch (s : State) : Option (Seat × Nat) :=
  let a := (nextQueue s .a).map fun q => (Seat.a, q)
  let b := (nextQueue s .b).map fun q => (Seat.b, q)
  if s.seats.lastSeat = 0 then b.or a else a.or b

/-- An entry leaves its SQ. -/
def entryTaken (x : Seat) (q : Nat) (s : State) : State :=
  let s := modQueue x q (fun u => { u with sqHead := (u.sqHead + 1) % max 1 u.sqSize }) s
  modSeat x (fun t => { t with lastQ := q }) { s with seats := { s.seats with lastSeat := seatNo x } }

/-- Seat S is served: by the firmware, or by the boot ROM alone. -/
def seatSServed (s : State) : Bool := serving s .s || (s.upd.seatSOnly && !s.pair.halted)

/-- A seat has a command ready (R287). -/
def seatReady (s : State) (x : Seat) : Bool :=
  match x with
  | .s => s.seats.sWait.isSome && seatSServed s
  | .n => !s.seats.nWait.isEmpty && serving s .n
  | x => (nextQueue s x).isSome

/-- The fixed rotation A, B, S, N, behind the seat served last (R287). -/
def turnsAfter (last : Nat) : List Seat :=
  match last with
  | 0 => [.b, .s, .n, .a]
  | 1 => [.s, .n, .a, .b]
  | 3 => [.n, .a, .b, .s]
  | _ => [.a, .b, .s, .n]

/-- The seat whose command the arbiter takes next: one that has none ready is skipped (R287). -/
def nextTurn (s : State) : Option Seat := (turnsAfter s.seats.lastSeat).find? (seatReady s)

/-- Seat S's entry is taken. -/
def takeS (w : Hdr × List Byte × List Byte) (s : State) : State :=
  runEntry w.1 w.2.1 w.2.2 { s with seats := { s.seats with sWait := none, lastSeat := 3 } }

/-- Seat N's oldest entry is taken: data that is not LENGTH bytes is E_FORMAT (R279). -/
def takeN (w : Hdr × List Byte × List Byte) (s : State) : State :=
  let s := { s with seats := { s.seats with nWait := s.seats.nWait.drop 1, lastSeat := 2 } }
  let (h, e, d) := w
  if opReads (entryOp e) && !(d.length == h.len) then refusedWith h e ((readEntry h e [] s).map (·.1)) eFormat s
  else runEntry h e (if opReads (entryOp e) then d else []) s

/-- While it is the turn of seat S or N its command is taken, at most `k` of them; a command of seat A or B must be fetched first. -/
def arbiterSteps : Nat → State → State
  | 0, s => s
  | k + 1, s =>
    match nextTurn s, s.seats.sWait, s.seats.nWait with
    | some .s, some w, _ => arbiterSteps k (takeS w s)
    | some .n, _, w :: _ => arbiterSteps k (takeN w s)
    | _, _, _ => s

/-- The arbiter runs on (R287). -/
def arbiterRuns (s : State) : State := arbiterSteps (s.seats.nWait.length + 1) s

/-- QUEUE_DISABLE (R281). -/
def execQueueDisable (seat : Seat) (q : Fin 64) (s : State) : Res :=
  .next (if hostServes s seat then arbiterRuns (modQueue seat q.val queOff s) else s)

/-- A command whose data must be read first waits for it, accepted (R278, R287). -/
def fetchBegins (h : Hdr) (e : List Byte) (s : State) : State :=
  let now := s.time.edges
  emit (.hostRead h.seat h.addr h.len) (modQueue h.seat h.sq (fun u => { u with fetching := some ⟨e, now⟩ }) (accept h s))

/-- COMMAND_FETCH: the 64 bytes at the SQ's head. -/
def execCommandFetch (entry : List Byte) (s : State) : Res :=
  .next (match nextFetch s with
  | none => s
  | some (x, q) =>
    let e := padTo 64 entry
    let h := entryHdr x q none e
    let s := entryTaken x q s
    let good := ((readEntry h e [] s).map (·.2)).getD false
    arbiterRuns (if good && opReads (entryOp e) && !(h.len == 0) then fetchBegins h e s else runEntry h e [] s))

/-! ### Host reads (R278) -/

/-- The read of a waiting command ends: it is run anew with what came. -/
def fetchEnds (x : Seat) (q : Nat) (s : State) : State :=
  modQueue x q (fun u => { u with fetching := none, busy := u.busy - 1 }) s

/-- A read fails: E_TIMEOUT, and no effect. -/
def fetchFails (x : Seat) (q : Nat) (e : List Byte) (s : State) : State :=
  let h := entryHdr x q none e
  let s := fetchEnds x q s
  refusedWith h e ((readEntry h e [] s).map (·.1)) eTimeout s

/-- HOST_DMA_READ_DONE: the data, or an error; or from now on the host rejects the port's writes, or takes them (log 99). -/
def execHostDmaReadDone (seat : Seat) (q : Fin 64) (ends : HostAnswer) (s : State) : Res :=
  let n : Nat := q
  .next (match (queueOf s seat n).fetching, ends with
  | _, .writes no => modSeat seat (fun t => { t with rejects := no }) s
  | some f, .data d =>
    if serving s seat && d.length == entryLen f.entry then runEntry (entryHdr seat n none f.entry) f.entry d (fetchEnds seat n s) else s
  | some f, .error => if serving s seat then fetchFails seat n f.entry s else s
  | none, _ => s)

/-- HOST_DMA_TIMEOUT: 10 ms without the data. -/
def execHostDmaTimeout (seat : Seat) (q : Fin 64) (s : State) : Res :=
  let n : Nat := q
  .next (match (queueOf s seat n).fetching with
  | some f => if serving s seat && decide (f.since + 4000000 ≤ s.time.edges) then fetchFails seat n f.entry s else s
  | none => s)

/-! ### Seats S and N (R279, R280, R432) -/

/-- The boot ROM accepts IDENTIFY and the update commands (R432). -/
def romTakes (s : State) (op : Nat) : Bool := serving s .s || op == 0x01 || (decide (0x40 ≤ op) && decide (op ≤ 0x43))

/-- USB_SUBMISSION: an entry and LENGTH bytes of input data. A second entry before the completion is discarded and counted. -/
def execUsbSubmission (entry data : List Byte) (s : State) : Res :=
  let h := entryHdr .s 0 (some 0) entry
  .next (if entry.length ≠ 64 ∨ seatSServed s = false then s
  else
    let s := icuEvent 84 s
    if s.seats.sBusy || s.seats.sWait.isSome then { s with seats := { s.seats with sDiscards := s.seats.sDiscards + 1 } }
    else if (opReads (entryOp entry) && !(data.length == h.len)) || !romTakes s (entryOp entry) then s
    else arbiterRuns { s with seats := { s.seats with sWait := some (h, entry, if opReads (entryOp entry) then data else []) } })

/-- At most 1,000 commands a second on a port; one beyond is dropped and counted (R279). -/
def rateTaken (x : NetPort) (sec : Nat) : NetPort × Bool :=
  let n := if x.nSecond = sec then x.nCount else 0
  if 1000 ≤ n then ({ x with nSecond := sec, nCount := n, nDrops := up8 x.nDrops }, false)
  else ({ x with nSecond := sec, nCount := n + 1 }, true)

/-- SEAT_N_DATAGRAM: the UDP payload of a datagram to port 50217. A port without an address serves none (R518). -/
def execSeatNDatagram (port : Fin 2) (srcIp : Word) (srcPort : Nat) (bytes : List Byte) (s : State) : Res :=
  let p : Nat := port
  let x := netPort s p
  let e := bytes.take 64
  let d := bytes.drop 64
  let h := entryHdr .n p (some (srcIp.toNat + srcPort % 65536 * 2 ^ 32)) e
  .next (if !x.up || x.addr == 0 then s
  else
    let s := icuEvent (72 + 2 * p) (modNet p (fun x => { x with rx := wrapAt 16 (x.rx + 1) }) s)
    if bytes.length < 64 ∨ 1088 < bytes.length ∨ serving s .n = false then s
    else
      let r := rateTaken (netPort s p) (tbSafe s / 1000000000)
      let s := modNet p (fun _ => r.1) s
      if !r.2 then s else arbiterRuns { s with seats := { s.seats with nWait := s.seats.nWait ++ [(h, e, d)] } })

/-! ### Seat resets (R299 to R302, R453) -/

/-- A command of the reset seat that goes on has no queue to complete into. -/
def lostHdr (x : Seat) (h : Hdr) : Hdr := if h.seat = x then { h with sq := 64 } else h

/-- Every command in progress of the reset seat goes on without its completion (R301). -/
def commandsLost (x : Seat) (s : State) : State :=
  let f := lostHdr x
  { s with
    seats := { s.seats with awaiting := s.seats.awaiting.map fun w => { w with hdr := f w.hdr } }
    parts := s.parts.map fun e => (e.1, { e.2 with unloading := e.2.unloading.map f, stopping := e.2.stopping.map f })
    dies := s.dies.map fun e => (e.1, { e.2 with
      dPending := e.2.dPending.map f, fenceCmds := e.2.fenceCmds.map fun c => (f c.1, c.2) })
    pwr := { s.pwr with napping := s.pwr.napping.map f, wakeHdr := s.pwr.wakeHdr.map f }
    upd := { s.upd with
      signing := s.upd.signing.map fun r => (f r.1, r.2)
      kinds := s.upd.kinds.map fun e => (e.1, { e.2 with committing := e.2.committing.map f, verifying := e.2.verifying.map f }) } }

/-- A chunk that the seat was assembling is discarded (R453). -/
def chunksLost (x : Seat) (s : State) : State :=
  [1, 2, 3].foldl (fun s k => modKind k (fun y =>
    if y.partSeat = some x ∧ y.committing = none then { y with partial_ := [], partSeat := none } else y) s) s

/-- The seat's partitions: RUNNING ones stop, a load that it presented is abandoned, the result ring is cleared (R229, R300). -/
def partsLost (x : Seat) (s : State) : State :=
  (List.range 16).foldl (fun s n =>
    if (part s n).st = 0 ∨ (part s n).seat ≠ seatNo x then s
    else if (part s n).st = 5 then (if ((part s n).loading.bind (·.hdr)).isSome then loadAbandoned n s else s)
    else modPart n (fun p => { p with ring := none }) (stopPart n s)) s

/-- Queue registers, apertures and MSI-X state cleared; SEAT_DROPS stay (R300, R302). -/
def seatCleared (x : Seat) (perst : Bool) (s : State) : State :=
  let s := modSeat x (fun t => { t with
    inReset := true, perst := t.perst || perst, cfgReady := t.cfgReady && !perst
    unmasked := [], pendingMsg := [], queues := [], lastQ := 63, fn := { aer := t.fn.aer } }) s
  { s with evd := { s.evd with apert := tblErase s.evd.apert (seatNo x), logApert := tblErase s.evd.logApert (seatNo x) } }

/-- A store in progress of the seat leaves the earlier contents or the new ones (R301). -/
def seatStoreCut (x : Seat) (s : State) : State :=
  let t := (s.seats.storing.filter fun e => e.1.seat == x).foldl (fun s e => storeCutOne e s) s
  { t with seats := { t.seats with storing := t.seats.storing.filter fun e => !(e.1.seat == x) } }

/-- A seat reset, kind T (R300). -/
def seatReset (x : Seat) (perst : Bool) (s : State) : State :=
  let s := modSeat x (fun t => { t with gen := wrapAt 8 (t.gen + 1), inReset := true }) (icuEvent (82 + seatNo x) s)
  let s := seatCleared x perst (partsLost x (commandsLost x (uploadsCut x s)))
  arbiterRuns (chunksLost x (seatStoreCut x s))

/-- SEAT_RESET. PERST#_n asserted before step 14 of bring-up takes the port's configuration readiness alone (R431). -/
def execSeatReset (seat : Seat) (cause : SeatResetCause) (s : State) : Res :=
  .next (if !(seat == .a || seat == .b) || s.boot == .off then s
  else if cause == .perst && !s.seats.served then modSeat seat (fun t => { t with perst := true, cfgReady := false }) s
  else seatReset seat (cause == .perst) s)

/-- SEAT_BARS_READY: the link has trained again (R300 step 5). -/
def execSeatBarsReady (seat : Seat) (s : State) : Res :=
  .next (modSeat seat (fun t => { t with inReset := t.inReset && t.perst }) s)

/-- PERST_RELEASE (R277). -/
def execPerstRelease (seat : Seat) (s : State) : Res :=
  .next (modSeat seat (fun t => { t with perst := false, cfgReady := true }) s)

/-- The pending message of an unmasked vector is sent, once the function itself masks none (R291). -/
def msixSend (x : Seat) (v : Nat) (s : State) : State :=
  let t := seatOf s x
  if decide (v ∈ t.pendingMsg) && decide (v ∈ t.unmasked) && msixEnabled s x && !t.fn.msixMask then
    emit (.msix x v) (modSeat x (fun t => { t with pendingMsg := without v t.pendingMsg }) s)
  else s

/-- The mask bit of a vector in the MSI-X table (R276, R291). -/
def vectorMask (x : Seat) (v : Nat) (masked : Bool) (s : State) : State :=
  msixSend x v (modSeat x (fun t => { t with unmasked := if masked then without v t.unmasked else withElem v t.unmasked }) s)

/-- MSIX_VECTOR_UNMASK: a pending message is sent (R291). -/
def execMsixVectorUnmask (seat : Seat) (vector : Fin 64) (s : State) : Res :=
  .next (if (seatOf s seat).inReset || (seat == .n || seat == .s) then s else vectorMask seat vector.val false s)

end Sys2Proof.Machine
end

