-- ==== Sys2Proof/Machine/Pcie.lean ====
section
/-! DEFINITION. Machine/Pcie.lean: what a host reaches of its port beside BAR0: the doorbells of BAR2, the MSI-X table and PBA of BAR4, and
the configuration space (R276, R277, R285, R291, R299). PRESUMED: the places of the configuration registers and of the MSI-X fields are those
of PCI Express, and what the spec does not name reads 0; DESIGN CHOICE: a host's offsets from 0x200_0000 on stand for them (log 98). -/

namespace Sys2Proof.Machine

/-- Where BAR2 stands in a host's offsets. -/
def bar2At : Nat := 0x2000000

/-- Where BAR4 stands. -/
def bar4At : Nat := 0x2010000

/-- Where the configuration space stands. -/
def configAt : Nat := 0x2020000

/-- The end of a host's offsets. -/
def hostEnd : Nat := 0x2021000

/-- `f` applied to a port's function. -/
def modFn (x : Seat) (f : PcieFn → PcieFn) (s : State) : State := modSeat x (fun t => { t with fn := f t.fn }) s

/-- A port answers its host: PERST#_n is released, and no seat reset is going on (R277, R300). -/
def portAnswers (s : State) (x : Seat) : Bool := (seatOf s x).cfgReady && !(seatOf s x).inReset

/-! ### BAR2 (R285) -/

/-- A write to BAR2: a doorbell, or nothing. -/
def bellWrite (x : Seat) (o v : Nat) (s : State) : State :=
  match regIdx o 0 8 64, regIdx o 0x400 4 16 with
  | some q, _ => if o % 8 = 0 then sqRing x q v s else cqRing x q v s
  | _, some n => headRing x n v s
  | _, _ => s

/-! ### BAR4 (R276, R291) -/

/-- The MSI-X table, 16 bytes for each vector with its mask bit in the last word, and the PBA, a bit for each pending vector. -/
def tableReg (t : SeatSt) (o : Nat) : Nat :=
  if o < 0x400 then (if o % 16 = 12 then bit (decide (o / 16 ∉ t.unmasked)) else tblGet 0 t.fn.table (o / 4))
  else if o = 0x1000 then maskOf 32 fun i => decide (i ∈ t.pendingMsg)
  else if o = 0x1004 then maskOf 32 fun i => decide (i + 32 ∈ t.pendingMsg)
  else 0

/-- A write to BAR4. -/
def tableWrite (x : Seat) (o v : Nat) (s : State) : State :=
  if 0x400 ≤ o then s
  else if o % 16 = 12 then vectorMask x (o / 16) (bitOf v 0) s
  else modFn x (fun t => { t with table := tblSet 0 t.table (o / 4) v }) s

/-! ### Configuration space (R276) -/

/-- The bits of a BAR's lower word that address it: 32 MiB, 64 KiB and 8 KiB. -/
def barMask (i : Nat) : Nat := if i = 0 then 25 else if i = 2 then 16 else 13

/-- Configuration register `o` of a port. -/
def configReg (x : Seat) (t : PcieFn) (o : Nat) : Nat :=
  match o with
  | 0x00 => 0xF1A7 + 0x4416 * 65536
  | 0x04 => t.cmd + 0x100000
  | 0x08 => 0xB0 + 0x120000 * 256
  | 0x2C => 0xF1A7 + (if x = .b then 2 else 1) * 65536
  | 0x34 => 0x40
  | 0x40 => 0x01 + 0x50 * 256 + 3 * 65536
  | 0x44 => (if t.d3 then 3 else 0) + 8
  | 0x50 => 0x10 + 0x90 * 256 + 2 * 65536
  | 0x54 => 2 + 2 ^ 15 + 2 ^ 28
  | 0x58 => t.devCtl
  | 0x5C => 4 + 4 * 16 + 2 * 1024
  | 0x7C => 0x1E
  | 0x90 => 0x11 + (63 + bit t.msixMask * 2 ^ 14 + bit t.msixOn * 2 ^ 15) * 65536
  | 0x94 => 4
  | 0x98 => 0x1000 + 4
  | 0x100 => 1 + 2 * 65536
  | 0x104 => t.aer
  | _ => match regIdx o 0x10 4 6 with
    | some i => tblGet 0 t.bars i + (if i % 2 = 0 then 4 else 0)
    | none => 0

/-- MSI-X enabled and unmasked as a whole: every pending message of an unmasked vector is sent (R291). -/
def msixFlush (x : Seat) (s : State) : State := (List.range 64).foldl (fun s v => msixSend x v s) s

/-- A write of the configuration space. -/
def configWrite (x : Seat) (o v : Nat) (s : State) : State :=
  match o with
  | 0x04 => modFn x (fun t => { t with cmd := v % 65536 }) s
  | 0x44 => if v % 4 = 0 ∨ v % 4 = 3 then modFn x (fun t => { t with d3 := v % 4 == 3 }) s else s
  | 0x58 =>
    let s := modFn x (fun t => { t with devCtl := v % 2 ^ 15 }) s
    if bitOf v 15 then seatReset x false s else s
  | 0x90 => msixFlush x (modFn x (fun t => { t with msixMask := bitOf v 30, msixOn := bitOf v 31 }) s)
  | _ => match regIdx o 0x10 4 6 with
    | some i => modFn x (fun t => { t with bars := tblSet 0 t.bars i (if i % 2 = 0 then v / 2 ^ barMask i * 2 ^ barMask i else v) }) s
    | none => s

/-! ### A host's offsets from BAR2 on -/

/-- A host's 32-bit write at an aligned offset from BAR2 on; BAR2 ignores it before service (R277, R285). -/
def hostWrite (x : Seat) (a v : Nat) (s : State) : State :=
  if a % 4 ≠ 0 ∨ portAnswers s x = false then s
  else if a < bar4At then bellWrite x (a - bar2At) v s
  else if a < bar4At + 0x2000 then tableWrite x (a - bar4At) v s
  else if configAt ≤ a ∧ a < hostEnd then configWrite x (a - configAt) v s
  else s

/-- What a host's read there finds; BAR2 reads 0 (R277, R285). -/
def hostRead (s : State) (x : Seat) (a : Nat) : Nat :=
  if a % 4 ≠ 0 ∨ a < bar4At then 0
  else if a < bar4At + 0x2000 then tableReg (seatOf s x) (a - bar4At)
  else if configAt ≤ a ∧ a < hostEnd then configReg x (seatOf s x).fn (a - configAt)
  else 0

end Sys2Proof.Machine
end

