-- ==== Sys2Proof/Machine/RegOps.lean ====
section
/-! DEFINITION. Machine/RegOps.lean: what a write to each register does (R6 to R11, R281, R304, R327, R345, R362, R363, R374, R399,
R400, R423, R471 to R473, R484, R198, R513), and reads that remove or clear (R12, R199, R344, R362, R398, R516). -/

namespace Sys2Proof.Machine

/-! ### Writes of the internal view, block by block -/

/-- ICU (R328, R338, R344, R345). -/
def icuRegWrite (o w : Nat) (s : State) : State :=
  if o = 0x00 then icuDoorbell (w32 w) s
  else if o = 0x08 then icuEoiEffect false (fld w 9 0) s
  else match regIdx o 0x100 4 32, regIdx o 0x1000 4 128, regIdx o 0x2000 4 1024 with
    | some n, _, _ =>
      icuSettle { s with icu := { s.icu with wake := tblSet (0, false) s.icu.wake n (fld w 9 0, bitOf w 10) } }
    | _, some k, _ =>
      let l := bitmapSources (k % 32) (w32 w)
      if k < 32 then icuEach l (fun x => { x with enable := true }) s
      else if k < 64 then icuEach l (fun x => { x with enable := false }) s
      else if k < 96 then icuEach l (fun x => { x with pend := true }) s
      else icuEach l (fun x => { x with pend := false }) s
    | _, _, some n => icuChange (modSrc n (srcCfg n w)) s
    | _, _, _ => s

/-- WDG_CFG of a unit: the holder as written, mode and width at once or, while it counts, at its next service (R348); ENABLE starts or stops
it, a free unit it does not start (R347, R350, R362). -/
def wdgCfgWrite (n w : Nat) (s : State) : State :=
  let on := bitOf w 15 && !(fld w 2 0 == 0)
  let was := wdgCounts (wdgUnit s n)
  let s := wdgModeEffect n (fld w 7 7) (fld w 14 8) (if !on && was then wdgStop n s else s)
  let s := modWdg n (fun u => { u with holder := fld w 2 0, part := fld w 6 3, enable := bitOf w 15 }) s
  if on && !was then wdgEnable n s else s

/-- WDG_CYCLE: a group that is linked to a counting unit starts its first cycle, one that is unlinked stops (R356, R362). -/
def wdgCycleWrite (n w : Nat) (s : State) : State :=
  let s := modWdg n (fun u => { u with cycle := fld w 25 0 }) s
  if fld w 25 0 = 0 then modGroup n (fun g => { g with running := false }) s
  else if wdgCounts (wdgUnit s n) && !(groupOf s n).running then
    modGroup n (fun _ => { groupReset with running := true, start := s.time.edges }) s
  else s

/-- WDG (R349, R362, R363); limits outside R350 are not taken. -/
def wdgRegWrite (o w : Nat) (s : State) : State :=
  match regIdx o 0 0x40 8, regIdx o 0x400 8 64 with
  | some n, _ =>
    let u := wdgUnit s n
    match o % 0x40 with
    | 0x00 => wdgCfgWrite n w s
    | 0x04 => if limitsOk (fld w 25 0) u.close then modWdg n (fun u => { u with opn := fld w 25 0 }) s else s
    | 0x08 => if limitsOk u.opn (fld w 25 0) then modWdg n (fun u => { u with close := fld w 25 0 }) s else s
    | 0x0C => wdgKey .int n w s
    | 0x18 => wdgCycleWrite n w s
    | _ => s
  | _, some t =>
    if o % 8 = 0 then
      modTask t (fun x => { x with
        valid := bitOf w 0, group := fld w 3 1, source := fld w 5 4, min := fld w 13 6, max := fld w 21 14, order := fld w 28 22 }) s
    else modTask t (fun x => { x with region := fld w 23 8, part := fld w 27 24 }) s
  | _, _ => s

/-- CRC (R366 to R371, R374). -/
def crcRegWrite (o w : Nat) (s : State) : State :=
  if 0x200 ≤ o then s
  else modCrc (o / 0x40) (fun x =>
    match o % 0x40 with
    | 0x00 => crcCfg w x
    | 0x04 => if bitOf w 0 then crcStartUnit x else x
    | 0x08 => crcFeedWord 1 (w32 w) x
    | 0x0C => crcFeedWord 2 (w32 w) x
    | 0x10 => crcFeedWord 4 (w32 w) x
    | 0x14 => crcStateLo (w32 w) x
    | 0x18 => crcStateHi (w32 w) x
    | 0x24 => { x with alive := BitVec.ofNat 8 w }
    | 0x28 => { x with count := w32 w }
    | _ => x) s

/-- TIM_CMD (R389, R399). -/
def timCmd (w : Nat) (s : State) : State :=
  let b := fld w 3 2
  let a : TimeAct := match fld w 1 0 with
    | 0 => .step (baseOf s b).stepAmt
    | 1 => .adopt
    | 2 => .dismiss
    | _ => .pathAck
  if timeActStatus a b s = 0 then timeActEffect a b s else s

/-- TIM of a disciplined base (R399). -/
def timBaseWrite (b o w : Nat) (s : State) : State :=
  match o with
  | 0x08 => servoLevel b (modBase b (ctrlWrite b w) s)
  | 0x0C => modBase b (fun x => { x with kp := fld w 15 0, ki := fld w 31 16 }) s
  | 0x10 => modBase b (limitWrite w) s
  | 0x14 => modBase b (fun x => { x with pathHold := if fld w 7 0 = 0 then x.pathHold else fld w 7 0 }) s
  | 0x18 => modBase b (fun x => { x with offLo := w32 w }) s
  | 0x1C => offsetWrite b w s
  | 0x20 => if (baseOf s b).feed then s else onPath b (sgn 32 w) s
  | 0x38 => modBase b (fun x => { x with stepAmt := sgn 64 (unsgn 64 x.stepAmt / 2 ^ 32 * 2 ^ 32 + w) }) s
  | 0x3C => modBase b (fun x => { x with stepAmt := sgn 64 (w * 2 ^ 32 + unsgn 64 x.stepAmt % 2 ^ 32) }) s
  | _ => s

/-- TIM (R399). -/
def timRegWrite (o w : Nat) (s : State) : State :=
  if o = 0x100 then timCmd w s
  else if o = 0x104 then xdWrite w s
  else if 0x40 ≤ o ∧ o < 0x100 then timBaseWrite (o / 0x40) (o % 0x40) w s else s

/-- NET (R400, R518). -/
def netRegWrite (o w : Nat) (s : State) : State :=
  let p := o % 0x80 / 0x40
  if o < 0x80 then
    match o % 0x40 with
    | 0x04 => modNet p (fun x => { x with addr := w32 w }) s
    | 0x08 => modNet p (fun x => { x with mask := w32 w }) s
    | 0x0C => modNet p (fun x => { x with gw := w32 w }) s
    | _ => s
  else if o = 0x800 ∨ o = 0x840 then modNet p (tscfgWrite w) s else s

/-- SIO (R423); a slot bound anew shows no record (R416). -/
def sioRegWrite (o w : Nat) (s : State) : State :=
  let set (f : Sio → Sio) : State := { s with sio := f s.sio }
  match o with
  | 0x10 => set fun x => { x with txCycle := fld w 9 0, rxCycle := fld w 19 10, tgEnable := bitOf w 20, slotsEn := fld w 28 21 }
  | 0x14 => set fun x => { x with udpPort := fld w 15 0 }
  | 0x18 => set fun x => { x with srcId := w32 w }
  | 0x1C => set fun x => { x with dstId := w32 w }
  | 0x20 => set fun x => { x with peerNa := w32 w }
  | 0x24 => set fun x => { x with peerNb := w32 w }
  | _ =>
    match regIdx o 0x80 4 8 with
    | some n => set fun x => { x with slots := tblSet ⟨0, 0, 0, 0, none⟩ x.slots n ⟨fld w 15 0, fld w 23 16, fld w 27 24, fld w 31 28, none⟩ }
    | none => s

/-- CAP (R198). -/
def capRegWrite (o w : Nat) (s : State) : State :=
  match regIdx o 0 0x10 16 with
  | some p =>
    match o % 0x10 with
    | 0x0 => modCap p (fun x => { x with
        enable := bitOf w 0, running := bitOf w 0, master := bitOf w 1, lastSlot := fld w 4 2, blockQ := fld w 8 5 }) s
    | 0x4 => modCap p (fun x => { x with rate := fld w 16 0 }) s
    | 0x8 => capLevel p (modCap p (fun x => { x with fsLost := x.fsLost && !bitOf w 1, overflow := x.overflow && !bitOf w 2 }) s)
    | _ => s
  | none =>
    if o = 0x100 then
      { s with cap := { s.cap with edgeSel := (List.range 8).foldl (fun t i => tblSet 0 t i (w / 2 ^ (2 * i) % 4)) s.cap.edgeSel } }
    else if o = 0x150 then
      { s with cap := { s.cap with outEn := bitOf w 0, outBase := fld w 2 1, outWidth := fld w 9 3, inEdge := bitOf w 10 } }
    else s

/-- SNAP (R479, R484). -/
def snapRegWrite (o w : Nat) (s : State) : State :=
  match o with
  | 0x00 => modSnap (fun x => { x with at_ := w32 w }) s
  | 0x04 => snapRequest w s
  | 0x10 => modSnap (fun x => { x with periodic := bitOf w 0 }) s
  | _ => s

/-- DBG (R327). -/
def dbgRegWrite (o w : Nat) (s : State) : State :=
  match o with
  | 0x0C => { s with pair := { s.pair with disagree := s.pair.disagree - (s.pair.disagree &&& fld w 2 0) } }
  | 0x18 => { s with pair := { s.pair with splitAt := w32 (w / 2 * 2) } }
  | _ => s

/-- Registers of the remaining blocks that the firmware writes: PWR_DOZE and ATT_TIMER (R471, R472). -/
def pwrRegWrite (o w : Nat) (s : State) : State :=
  let n := fld w 6 0
  if o = 0x0C ∧ 1 ≤ n ∧ n ≤ 100 then { s with pwr := { s.pwr with tick := n } } else s

/-- A write of the internal view. -/
def intWrite (a w : Nat) (s : State) : State :=
  let o := a % 65536
  match a / 65536 with
  | 0x6 => icuRegWrite o w s
  | 0x7 => wdgRegWrite o w s
  | 0x8 => crcRegWrite o w s
  | 0x9 => timRegWrite o w s
  | 0xA => netRegWrite o w s
  | 0xB => sioRegWrite o w s
  | 0xD => pwrRegWrite o w s
  | 0xE => snapRegWrite o w s
  | 0x10 => capRegWrite o w s
  | 0x11 => if o = 8 then { s with pwr := { s.pwr with timer := w } } else s
  | 0x12 => dbgRegWrite o w s
  | _ => s

/-! ### Writes of any view -/

/-- EVD_APERTURE and EVD_LOG_APERTURE, each view's own copy (R271, R487). -/
def evdWrite (v : View) (o w : Nat) (s : State) : State :=
  if o = 0x04 then { s with evd := { s.evd with apert := tblSet 0 s.evd.apert (viewNo v) (w / 32 * 32) } }
  else if o = 0x28 then { s with evd := { s.evd with logApert := tblSet 0 s.evd.logApert (viewNo v) (w / 256 * 256 + w % 2) } }
  else s

/-- A 32-bit write at an aligned BAR0 offset: a host reaches its queue registers, its apertures and the service registers of the
watchdogs; everything else ignores it (R6, R8, R277, R513). -/
def regWrite (v : View) (a w : Nat) (s : State) : State :=
  let o := a % 65536
  if a % 4 ≠ 0 ∨ viewServes s v = false then s
  else match a / 65536 with
    | 0x2 => match queAt v o with
      | some (x, q) => modQueue x q (queWrite (o % 32) w) s
      | none => s
    | 0x5 => evdWrite v o w s
    | b =>
      if v = .int then intWrite a w s
      else if b = 0x7 ∧ o < 0x200 ∧ o % 0x40 = 0x0C then wdgKey v (o / 0x40) w s else s

/-! ### Reads with an effect (R7, R12, R516) -/

/-- CAP_EVT_HI (R199): the latched value, whose edge the internal view removes. -/
def evtHiRead (v : View) (i : Nat) (s : State) : Nat × State :=
  let a := 0x100114 + 8 * i
  let taken := v == .int && (latchOf s v a).any fun w => bitOf w.toNat 3
  let r := upperRead v a s
  (r.1, if taken then
    let s := modEvt i (fun x => { x with edges := x.edges.drop 1 }) r.2
    icuLevel (104 + i) (!(evtIn s i).edges.isEmpty) s
  else r.2)

/-- CAP_PPS_IN_HI (R198): the internal view clears NEW. -/
def ppsHiRead (v : View) (s : State) : Nat × State :=
  let r := upperRead v 0x10015C s
  (r.1, if v = .int then { r.2 with cap := { r.2.cap with inNew := false } } else r.2)

/-- NET_TXTS_HI (R398): the latched value, whose entry leaves the queue; a host reads 0. -/
def txtsHiRead (v : View) (p : Nat) (s : State) : Nat × State :=
  let a := 0xA0808 + 0x40 * p
  if v ≠ .int then (0, s)
  else
    let taken := (latchOf s v a).any fun w => bitOf w.toNat 19
    let r := upperRead v a s
    (r.1, if taken then modNet p (fun x => { x with stamps := x.stamps.drop 1 }) r.2 else r.2)

/-- ICU_ERRORS (R344): the internal view reads and clears. -/
def errorsRead (v : View) (s : State) : Nat × State :=
  if v = .int then (icuErrors s, { s with icu := { s.icu with bad := 0, typeErr := 0, eoiErr := 0, fwdDrops := 0 } }) else (0, s)

/-- WDG_GLOBAL (R362): the internal view reads, and clears FOREIGN. -/
def globalRead (v : View) (s : State) : Nat × State :=
  if v = .int then (wdgGlobal s, { s with wdg := { s.wdg with foreign := 0 } }) else (0, s)

/-- A read at a BAR0 offset with all that it does. -/
def busRead (v : View) (a : Nat) (s : State) : Nat × State :=
  if a % 4 ≠ 0 ∨ viewReads s v (a / 65536) = false then (0, s)
  else if isLower a then lowerRead v a s
  else if a = 0x60010 then errorsRead v s
  else if a = 0x70200 then globalRead v s
  else if a = 0x10015C then ppsHiRead v s
  else if a = 0xA0808 ∨ a = 0xA0848 then txtsHiRead v ((a - 0xA0808) / 0x40) s
  else match regIdx a 0x100110 8 8 with
    | some i => evtHiRead v i s
    | none =>
      if a = 0x60004 ∧ v = .int then (regRead s v a, icuClaimEffect false s)
      else upperRead v a s

end Sys2Proof.Machine
end

