-- ==== Sys2Proof/Machine/Regs.lean ====
section
/-! DEFINITION. Machine/Regs.lean: the commands that read and write registers, and the debugger's system bus accesses (R6, R7, R9, R199,
R320, R326, R344, R362, R398, R516). -/

namespace Sys2Proof.Machine

/-- A write of the checker-as-core: ICU_EOI of its own target (R337), or as the internal view writes. -/
def chkWrite (a w : Nat) (s : State) : State := if a = 0x60008 then icuEoiEffect true (fld w 9 0) s else regWrite .int a w s

/-- A read of the checker-as-core: ICU_CLAIM and ICU_RUNPRI of its own target (R337), or as the internal view reads. -/
def chkRead (a : Nat) (s : State) : Nat × State :=
  if a = 0x60004 then (icuReg s true 4, icuClaimEffect true s)
  else if a = 0x6000C then (icuReg s true 0xC, s)
  else busRead .int a s

/-- A read by a view that reaches its registers; by another nothing happens (R319). -/
def viewRead (v : View) (a : Nat) (s : State) : Option (Nat × State) :=
  if viewActs s v then some (if v = .chk then chkRead a s else busRead v a s) else none

/-- REGISTER_WRITE: a write of 32 bits, aligned; any other is ignored (R6, R9). The main core's writes to WDG, SIO and UPD pass the write
gate (R308). Behind BAR0 a host reaches the rest of its port (R276, R285). -/
def execRegisterWrite (view : View) (addr width : Nat) (v : Word) (s : State) : Res :=
  .next (if !(width == 4) || !viewActs s view then s
  else if view = .chk then chkWrite addr v.toNat s
  else if bar2At ≤ addr then (if view = .int then s else hostWrite (viewOwn view) addr v.toNat s)
  else if view == .int && gated addr then gateHold addr v s else regWrite view addr v.toNat s)

/-- The writes whose three cycles are over leave the gate, oldest first; `k` bounds their number (R308). -/
def gatePass : Nat → State → State
  | 0, s => s
  | k + 1, s =>
    match s.pair.gate with
    | (t, a, v) :: r =>
      if t ≤ s.time.edges then gatePass k (regWrite .int a v.toNat { s with pair := { s.pair with gate := r } }) else s
    | [] => s

/-- With no command waiting, one edge of the TIME clock passes, what the gate held long enough lands (log 2), the arbiter takes a command of
seat S or N whose turn has come (R287), and a core with nothing to serve may gate its clock (R341, R464). -/
def idle (s : State) : State := coreGates true (coreGates false (arbiterRuns (gatePass s.pair.gate.length (okayHalf (tick s)))))

/-- The value read is driven out, and the state is as the read leaves it; a read that is not made changes nothing. -/
def answerRead (r : Option (Nat × State)) (s : State) : Res :=
  .next (match r with
    | some r => emit (.readValue (w32 r.1)) r.2
    | none => s)

/-- LOWER_WORD_READ (R6, R7, R9): a read of a register, with all that it does for the view; a lower word latches its upper word, and a read of
another width or alignment returns 0. Behind BAR0 a port that does not answer yet gives no value (R277). -/
def execLowerWordRead (view : View) (at_ : ReadAt) (s : State) : Res :=
  if bar2At ≤ at_.addr ∧ (view = .a ∨ view = .b) then
    answerRead (if portAnswers s (viewOwn view) then some (if at_.width = 4 then hostRead s (viewOwn view) at_.addr else 0, s) else none) s
  else answerRead (if at_.width = 4 then viewRead view at_.addr s else if viewActs s view then some (0, s) else none) s

/-- CAP_EVT_HI_READ (R199, R516). -/
def execCapEvtHiRead (view : View) (i : Fin 8) (s : State) : Res := answerRead (viewRead view (0x100114 + 8 * i.val) s) s

/-- CAP_PPS_IN_HI_READ (R198, R516). -/
def execCapPpsInHiRead (view : View) (s : State) : Res := answerRead (viewRead view 0x10015C s) s

/-- NET_TXTS_HI_READ (R398, R400). -/
def execNetTxtsHiRead (view : View) (port : Fin 2) (s : State) : Res := answerRead (viewRead view (0xA0808 + 0x40 * port.val) s) s

/-- ICU_ERRORS_READ (R344, R516). -/
def execIcuErrorsRead (view : View) (s : State) : Res := answerRead (viewRead view 0x60010 s) s

/-- WDG_GLOBAL_READ (R362, R516). -/
def execWdgGlobalRead (view : View) (s : State) : Res := answerRead (viewRead view 0x70200 s) s

/-! ### SYSTEM_BUS_ACCESS (R320, R326) -/

/-- A word of the flash's read window, where an image's chunk says what it holds (R440, R441). -/
def flashWord (s : State) (o : Nat) : Option Nat :=
  let slot (k : Nat) (b : Bool) (r : Nat) : Option Nat :=
    let x := kindOf s k
    let c := tblGet [] (if b then x.slotB else x.slotA) (r / 65536)
    if r % 65536 + 4 ≤ c.length then some (rd c (r % 65536) 4) else none
  if o < 0x1000000 then slot 1 (decide (0x800000 ≤ o)) (o % 0x800000)
  else if o < 0x2000000 then slot 2 (decide (0x1800000 ≤ o)) (o % 0x800000)
  else if o < 0x2080000 then slot 3 (decide (0x2040000 ≤ o)) (o % 0x40000)
  else none

/-- A word that the debugger reads from the retention RAM: what the firmware holds, above it the attic's program, or what a debugger has
written over it since it was loaded (R425, R473). -/
def atticWord (s : State) (o : Nat) : Nat :=
  if o < 0x400 then ofLe (memRead s.pwr.ram o 4)
  else ((s.pwr.patch.find? fun e => e.1 == o).map (·.2.toNat)).getD <| ofLe ((List.range 4).map fun i => Config.atticProgram (w32 (kindOf s 3).version) (o - 0x400 + i))

/-- What a read of the map finds: a value, or none where nothing stated gives one; outside every range no access (R326). -/
def mapRead (a : Nat) (s : State) : Option (Option Nat × State) :=
  if a < 0x10000 then some (some (Config.bootRom (a / 4)).toNat, s)
  else if 0x8000000 ≤ a ∧ a < 0x8001000 then some (some (atticWord s (a - 0x8000000)), s)
  else if 0x10000000 ≤ a ∧ a < 0x10100000 then
    let o := a - 0x10000000
    some (some (((s.evd.store.find? fun e => e.1 == o / 128).map fun e => rd e.2.bytes (o % 128) 4).getD 0), s)
  else if 0x10100000 ≤ a ∧ a < 0x10400000 then some ((s.pair.sram.find? fun e => e.1 == a).map (·.2.toNat), s)
  else if 0x20000000 ≤ a ∧ a < 0x20800000 then some (none, s)
  else if 0x40000000 ≤ a ∧ a < 0x42000000 then
    let r := busRead .int (a - 0x40000000) s
    some (some r.1, r.2)
  else if 0x50000000 ≤ a ∧ a < 0x54000000 then some (flashWord s (a - 0x50000000), s)
  else none

/-- A word of the SRAM as the debugger knows it. -/
def sramPut (a : Nat) (v : Word) (s : State) : State := { s with pair := { s.pair with sram := tblPut s.pair.sram a v } }

/-- A debugger's read; a value that no rule gives is free, and stays in the SRAM until the cores run (logs 1, 8). -/
def debugRead (a : Nat) (s : State) : State :=
  match mapRead a s with
  | none => s
  | some (some n, t) => emit (.debugValue (w32 n)) t
  | some (none, t) =>
    let v := w32 (Config.freeNat t.free)
    let t := drawn t
    emit (.debugValue v) (if 0x10100000 ≤ a ∧ a < 0x10400000 ∧ t.pair.halted then sramPut a v t else t)

/-- A write through the system bus while the cores are halted is remembered: their caches are invalidated at resume (R321). -/
def busNoted (s : State) : State := if s.pair.halted then { s with pair := { s.pair with sba := true } } else s

/-- One word of the retention RAM written, at an offset (R473). -/
def retentionPut (o : Nat) (v : Word) (s : State) : State :=
  { s with pwr := { s.pwr with ram := memWrite s.pwr.ram o (leBytes 4 v.toNat) } }

/-- A debugger's write where the map allows one: the retention RAM, the SRAM but for the evidence store, registers
(R326, R473). -/
def debugWrite (a : Nat) (v : Word) (s : State) : State :=
  if 0x8000000 ≤ a ∧ a < 0x8000400 then
    busNoted (retentionPut (a - 0x8000000) v s)
  else if 0x8000400 ≤ a ∧ a < 0x8001000 then
    busNoted { s with pwr := { s.pwr with patch := tblPut s.pwr.patch (a - 0x8000000) v } }
  else if 0x10100000 ≤ a ∧ a < 0x10400000 then busNoted (if s.pair.halted then sramPut a v s else s)
  else if 0x40000000 ≤ a ∧ a < 0x42000000 then regWrite .int (a - 0x40000000) v.toNat (busNoted s)
  else s

/-- SYSTEM_BUS_ACCESS (R320): one aligned word; an access that the map has not ends with a fault and changes nothing. A register block
ignores an unaligned write and answers an unaligned read with 0 (R6). -/
def execSystemBusAccess (write : Bool) (addr : Nat) (v : Word) (s : State) : Res :=
  .next (if s.boot = .off then s
  else if addr % 4 = 0 then (if write then debugWrite addr v s else debugRead addr s)
  else if !write && decide (0x40000000 ≤ addr) && decide (addr < 0x42000000) then emit (.debugValue 0) s
  else s)

end Sys2Proof.Machine
end

