-- ==== Sys2Proof/Machine/Dispatch.lean ====
section
/-! DEFINITION. Machine/Dispatch.lean: one arm per constructor of Instr, in the order of spec/opcode_table.json. -/

namespace Sys2Proof.Machine

def exec (i : Instr) (s : State) : Host.Outcome State Fault Refusal :=
  match i with
  | .identify h => Sys2Proof.Machine.execIdentify h s
  | .getStatusDevice h => Sys2Proof.Machine.execGetStatusDevice h s
  | .getStatusPartition h => Sys2Proof.Machine.execGetStatusPartition h s
  | .getStatusContext h index => Sys2Proof.Machine.execGetStatusContext h index s
  | .getStatusEvidence h index => Sys2Proof.Machine.execGetStatusEvidence h index s
  | .attestReport h nonce => Sys2Proof.Machine.execAttestReport h nonce s
  | .attestSigned => Sys2Proof.Machine.execAttestSigned s
  | .attestCert h => Sys2Proof.Machine.execAttestCert h s
  | .load h stream => Sys2Proof.Machine.execLoad h stream s
  | .loadComplete part badCode => Sys2Proof.Machine.execLoadComplete part badCode s
  | .unload h => Sys2Proof.Machine.execUnload h s
  | .start h => Sys2Proof.Machine.execStart h s
  | .stop h => Sys2Proof.Machine.execStop h s
  | .stopComplete part => Sys2Proof.Machine.execStopComplete part s
  | .storeLayout h stream => Sys2Proof.Machine.execStoreLayout h stream s
  | .eraseLayout h => Sys2Proof.Machine.execEraseLayout h s
  | .uploadConst h dieMask body => Sys2Proof.Machine.execUploadConst h dieMask body s
  | .releaseConst h digest => Sys2Proof.Machine.execReleaseConst h digest s
  | .setResultRing h cq => Sys2Proof.Machine.execSetResultRing h cq s
  | .feedSamples h ctx seq stamp era data => Sys2Proof.Machine.execFeedSamples h ctx seq stamp era data s
  | .feedMessage h ctx rows data => Sys2Proof.Machine.execFeedMessage h ctx rows data s
  | .checkin h task => Sys2Proof.Machine.execCheckin h task s
  | .fenceCore h die cluster core => Sys2Proof.Machine.execFenceCore h die cluster core s
  | .wdgTake h unit mode width opn close => Sys2Proof.Machine.execWdgTake h unit mode width opn close s
  | .wdgRelease h unit => Sys2Proof.Machine.execWdgRelease h unit s
  | .wdgMode h unit mode width => Sys2Proof.Machine.execWdgMode h unit mode width s
  | .timeStep src base amount => Sys2Proof.Machine.execTimeStep src base amount s
  | .timeAdopt src base => Sys2Proof.Machine.execTimeAdopt src base s
  | .timeDismiss src base => Sys2Proof.Machine.execTimeDismiss src base s
  | .timePathAck src base => Sys2Proof.Machine.execTimePathAck src base s
  | .timeCfg h base ctrl gain limit pathHold => Sys2Proof.Machine.execTimeCfg h base ctrl gain limit pathHold s
  | .xd h cfg => Sys2Proof.Machine.execXd h cfg s
  | .netCfg h port addr mask gw tscfg => Sys2Proof.Machine.execNetCfg h port addr mask gw tscfg s
  | .telegram h cfg => Sys2Proof.Machine.execTelegram h cfg s
  | .slot h cfg => Sys2Proof.Machine.execSlot h cfg s
  | .okayRelease h => Sys2Proof.Machine.execOkayRelease h s
  | .sleepRun h => Sys2Proof.Machine.execSleepRun h s
  | .sleepDoze h => Sys2Proof.Machine.execSleepDoze h s
  | .sleepNap h => Sys2Proof.Machine.execSleepNap h s
  | .sleepAttic h timer => Sys2Proof.Machine.execSleepAttic h timer s
  | .systemReset h => Sys2Proof.Machine.execSystemReset h s
  | .dieReset h die => Sys2Proof.Machine.execDieReset h die s
  | .updDownload h kind chunk offset crc data => Sys2Proof.Machine.execUpdDownload h kind chunk offset crc data s
  | .chunkCommit => Sys2Proof.Machine.execChunkCommit s
  | .updVerify h kind => Sys2Proof.Machine.execUpdVerify h kind s
  | .verifyDone => Sys2Proof.Machine.execVerifyDone s
  | .updActivate h kind window => Sys2Proof.Machine.execUpdActivate h kind window s
  | .activationRestartDone => Sys2Proof.Machine.execActivationRestartDone s
  | .updConfirm h kind => Sys2Proof.Machine.execUpdConfirm h kind s
  | .trialWindowExpiry => Sys2Proof.Machine.execTrialWindowExpiry s
  | .lockstepSplit h => Sys2Proof.Machine.execLockstepSplit h s
  | .lockstepRejoin h tap => Sys2Proof.Machine.execLockstepRejoin h tap s
  | .debugHalt => Sys2Proof.Machine.execDebugHalt s
  | .debugResume => Sys2Proof.Machine.execDebugResume s
  | .debugStep => Sys2Proof.Machine.execDebugStep s
  | .abstractWrite r v => Sys2Proof.Machine.execAbstractWrite r v s
  | .abstractRead r => Sys2Proof.Machine.execAbstractRead r s
  | .systemBusAccess write addr v => Sys2Proof.Machine.execSystemBusAccess write addr v s
  | .sqDoorbell seat q v => Sys2Proof.Machine.execSqDoorbell seat q v s
  | .cqDoorbell seat q v => Sys2Proof.Machine.execCqDoorbell seat q v s
  | .resultHeadDoorbell seat part v => Sys2Proof.Machine.execResultHeadDoorbell seat part v s
  | .queueEnable seat q => Sys2Proof.Machine.execQueueEnable seat q s
  | .queueDisable seat q => Sys2Proof.Machine.execQueueDisable seat q s
  | .commandFetch entry => Sys2Proof.Machine.execCommandFetch entry s
  | .usbSubmission entry data => Sys2Proof.Machine.execUsbSubmission entry data s
  | .seatNDatagram port srcIp srcPort bytes => Sys2Proof.Machine.execSeatNDatagram port srcIp srcPort bytes s
  | .hostDmaReadDone seat q ends => Sys2Proof.Machine.execHostDmaReadDone seat q ends s
  | .hostDmaTimeout seat q => Sys2Proof.Machine.execHostDmaTimeout seat q s
  | .seatReset seat cause => Sys2Proof.Machine.execSeatReset seat cause s
  | .seatBarsReady seat => Sys2Proof.Machine.execSeatBarsReady seat s
  | .perstRelease seat => Sys2Proof.Machine.execPerstRelease seat s
  | .registerWrite view addr width v => Sys2Proof.Machine.execRegisterWrite view addr width v s
  | .lowerWordRead view at_ => Sys2Proof.Machine.execLowerWordRead view at_ s
  | .capEvtHiRead view i_ => Sys2Proof.Machine.execCapEvtHiRead view i_ s
  | .capPpsInHiRead view => Sys2Proof.Machine.execCapPpsInHiRead view s
  | .netTxtsHiRead view port => Sys2Proof.Machine.execNetTxtsHiRead view port s
  | .icuErrorsRead view => Sys2Proof.Machine.execIcuErrorsRead view s
  | .wdgGlobalRead view => Sys2Proof.Machine.execWdgGlobalRead view s
  | .icuDoorbell v => Sys2Proof.Machine.execIcuDoorbell v s
  | .icuClaim checker => Sys2Proof.Machine.execIcuClaim checker s
  | .icuEoi checker source => Sys2Proof.Machine.execIcuEoi checker source s
  | .icuEnSet w v => Sys2Proof.Machine.execIcuEnSet w v s
  | .icuEnClr w v => Sys2Proof.Machine.execIcuEnClr w v s
  | .icuPendSet w v => Sys2Proof.Machine.execIcuPendSet w v s
  | .icuPendClr w v same => Sys2Proof.Machine.execIcuPendClr w v same s
  | .icuSrcCfgWrite src_ v => Sys2Proof.Machine.execIcuSrcCfgWrite src_ v s
  | .crcData8 u v => Sys2Proof.Machine.execCrcData8 u v s
  | .crcData16 u v => Sys2Proof.Machine.execCrcData16 u v s
  | .crcData32 u v => Sys2Proof.Machine.execCrcData32 u v s
  | .crcStart u => Sys2Proof.Machine.execCrcStart u s
  | .crcStateLoWrite u v => Sys2Proof.Machine.execCrcStateLoWrite u v s
  | .crcStateHiWrite u v => Sys2Proof.Machine.execCrcStateHiWrite u v s
  | .offsetSample base hi theta => Sys2Proof.Machine.execOffsetSample base hi theta s
  | .pathSample base sample => Sys2Proof.Machine.execPathSample base sample s
  | .snapshotRequest v => Sys2Proof.Machine.execSnapshotRequest v s
  | .snapshotLatch unit => Sys2Proof.Machine.execSnapshotLatch unit s
  | .wdgArm view unit upper => Sys2Proof.Machine.execWdgArm view unit upper s
  | .wdgService view unit upper => Sys2Proof.Machine.execWdgService view unit upper s
  | .wdgExpiry unit => Sys2Proof.Machine.execWdgExpiry unit s
  | .wdPulseEnd unit => Sys2Proof.Machine.execWdPulseEnd unit s
  | .taskCycleEnd group => Sys2Proof.Machine.execTaskCycleEnd group s
  | .checkinService slot => Sys2Proof.Machine.execCheckinService slot s
  | .taskEcall slot number svc => Sys2Proof.Machine.execTaskEcall slot number svc s
  | .taskFault slot mcause => Sys2Proof.Machine.execTaskFault slot mcause s
  | .taskBudgetExpiry slot => Sys2Proof.Machine.execTaskBudgetExpiry slot s
  | .coreMismatch lowBit => Sys2Proof.Machine.execCoreMismatch lowBit s
  | .stateTap main checker => Sys2Proof.Machine.execStateTap main checker s
  | .tapTest halfA halfB => Sys2Proof.Machine.execTapTest halfA halfB s
  | .comparePathFault f => Sys2Proof.Machine.execComparePathFault f s
  | .inputDisagree group => Sys2Proof.Machine.execInputDisagree group s
  | .inputStuck group => Sys2Proof.Machine.execInputStuck group s
  | .cacheParity => Sys2Proof.Machine.execCacheParity s
  | .memoryUncorrectable mem addr => Sys2Proof.Machine.execMemoryUncorrectable mem addr s
  | .companionScrub mem addr found => Sys2Proof.Machine.execCompanionScrub mem addr found s
  | .captureBlock port block => Sys2Proof.Machine.execCaptureBlock port block s
  | .fsLost port => Sys2Proof.Machine.execFsLost port s
  | .evtEdge i_ rising => Sys2Proof.Machine.execEvtEdge i_ rising s
  | .ppsInEdge rising => Sys2Proof.Machine.execPpsInEdge rising s
  | .ppsOutRise => Sys2Proof.Machine.execPpsOutRise s
  | .ppsOutFall => Sys2Proof.Machine.execPpsOutFall s
  | .writePacket die src addr data => Sys2Proof.Machine.execWritePacket die src addr data s
  | .resultPacket f partner offset data => Sys2Proof.Machine.execResultPacket f partner offset data s
  | .codePacket die kind code => Sys2Proof.Machine.execCodePacket die kind code s
  | .launchCmd die f instant => Sys2Proof.Machine.execLaunchCmd die f instant s
  | .fence die => Sys2Proof.Machine.execFence die s
  | .readCause die => Sys2Proof.Machine.execReadCause die s
  | .descriptorWrite die slot desc => Sys2Proof.Machine.execDescriptorWrite die slot desc s
  | .scanStateReset die slot => Sys2Proof.Machine.execScanStateReset die slot s
  | .derivedCommit die slot rows gap => Sys2Proof.Machine.execDerivedCommit die slot rows gap s
  | .snapshotCmd die id instant => Sys2Proof.Machine.execSnapshotCmd die id instant s
  | .ackPacket die seq status => Sys2Proof.Machine.execAckPacket die seq status s
  | .cmdResendTimeout die seq => Sys2Proof.Machine.execCmdResendTimeout die seq s
  | .hello die st => Sys2Proof.Machine.execHello die st s
  | .discover node east hops => Sys2Proof.Machine.execDiscover node east hops s
  | .discoveryTimeout => Sys2Proof.Machine.execDiscoveryTimeout s
  | .discoverReturnTimeout => Sys2Proof.Machine.execDiscoverReturnTimeout s
  | .dieAnnounceTimeout die => Sys2Proof.Machine.execDieAnnounceTimeout die s
  | .ringState node up seq => Sys2Proof.Machine.execRingState node up seq s
  | .evidPacket f partner bytes => Sys2Proof.Machine.execEvidPacket f partner bytes s
  | .timeBlockSend node east => Sys2Proof.Machine.execTimeBlockSend node east s
  | .timeBlockReceive node east theirTime echo => Sys2Proof.Machine.execTimeBlockReceive node east theirTime echo s
  | .linkRetryTimeout node east => Sys2Proof.Machine.execLinkRetryTimeout node east s
  | .linkDown link cause => Sys2Proof.Machine.execLinkDown link cause s
  | .dieUnreachable die => Sys2Proof.Machine.execDieUnreachable die s
  | .launchConvert part plan => Sys2Proof.Machine.execLaunchConvert part plan s
  | .frameLaunch part plan => Sys2Proof.Machine.execFrameLaunch part plan s
  | .frameStart die => Sys2Proof.Machine.execFrameStart die s
  | .engineBatch die core cycles work obs err => Sys2Proof.Machine.execEngineBatch die core cycles work obs err s
  | .batchBoundary die core => Sys2Proof.Machine.execBatchBoundary die core s
  | .sliverDone die core => Sys2Proof.Machine.execSliverDone die core s
  | .pegArrive die core peg => Sys2Proof.Machine.execPegArrive die core peg s
  | .pegWait die core peg => Sys2Proof.Machine.execPegWait die core peg s
  | .pegPost die core peg => Sys2Proof.Machine.execPegPost die core peg s
  | .pegTake die core peg => Sys2Proof.Machine.execPegTake die core peg s
  | .pegSet die core peg => Sys2Proof.Machine.execPegSet die core peg s
  | .dmaTransfer die core d found => Sys2Proof.Machine.execDmaTransfer die core d found s
  | .regionEnd die f partner hit outs => Sys2Proof.Machine.execRegionEnd die f partner hit outs s
  | .deadlineExpiry f => Sys2Proof.Machine.execDeadlineExpiry f s
  | .waitDeadlineExpiry f => Sys2Proof.Machine.execWaitDeadlineExpiry f s
  | .tuningSlotOpen part region => Sys2Proof.Machine.execTuningSlotOpen part region s
  | .regionReloadDone part region partner => Sys2Proof.Machine.execRegionReloadDone part region partner s
  | .autostart part => Sys2Proof.Machine.execAutostart part s
  | .alarmAssert die err => Sys2Proof.Machine.execAlarmAssert die err s
  | .alarmClear die => Sys2Proof.Machine.execAlarmClear die s
  | .alarmHoldExpiry die => Sys2Proof.Machine.execAlarmHoldExpiry die s
  | .evidenceWaitExpiry f => Sys2Proof.Machine.execEvidenceWaitExpiry f s
  | .resultWaitExpiry f => Sys2Proof.Machine.execResultWaitExpiry f s
  | .judgement differ => Sys2Proof.Machine.execJudgement differ s
  | .judgeSelftest ok => Sys2Proof.Machine.execJudgeSelftest ok s
  | .timebaseWrap base => Sys2Proof.Machine.execTimebaseWrap base s
  | .stepApply base => Sys2Proof.Machine.execStepApply base s
  | .appSample => Sys2Proof.Machine.execAppSample s
  | .xdSample => Sys2Proof.Machine.execXdSample s
  | .ptpMessageReceive port m => Sys2Proof.Machine.execPtpMessageReceive port m s
  | .ethTransmitRequest port r => Sys2Proof.Machine.execEthTransmitRequest port r s
  | .ethTransmitLaunch port => Sys2Proof.Machine.execEthTransmitLaunch port s
  | .ethLinkUp port tenGig => Sys2Proof.Machine.execEthLinkUp port tenGig s
  | .ethLinkLoss port => Sys2Proof.Machine.execEthLinkLoss port s
  | .ethLinkTryTimeout port => Sys2Proof.Machine.execEthLinkTryTimeout port s
  | .safeReqN lowNs => Sys2Proof.Machine.execSafeReqN lowNs s
  | .sealReread samples => Sys2Proof.Machine.execSealReread samples s
  | .okayPeriodBoundary => Sys2Proof.Machine.execOkayPeriodBoundary s
  | .telegramBuild inTime => Sys2Proof.Machine.execTelegramBuild inTime s
  | .telegramCopyReceive port bytes => Sys2Proof.Machine.execTelegramCopyReceive port bytes s
  | .telegramWaitExpiry => Sys2Proof.Machine.execTelegramWaitExpiry s
  | .telegramRxTimeout => Sys2Proof.Machine.execTelegramRxTimeout s
  | .powerOn balls => Sys2Proof.Machine.execPowerOn balls s
  | .resetN lowNs balls => Sys2Proof.Machine.execResetN lowNs balls s
  | .supplyBrownout supply lowNs balls => Sys2Proof.Machine.execSupplyBrownout supply lowNs balls s
  | .pllLockLoss node => Sys2Proof.Machine.execPllLockLoss node s
  | .refclkFault => Sys2Proof.Machine.execRefclkFault s
  | .cellarScrub die block found passDone => Sys2Proof.Machine.execCellarScrub die block found passDone s
  | .tempUpdate node t => Sys2Proof.Machine.execTempUpdate node t s
  | .dozeTick => Sys2Proof.Machine.execDozeTick s
  | .napSelfRefresh => Sys2Proof.Machine.execNapSelfRefresh s
  | .wakeN lowNs balls => Sys2Proof.Machine.execWakeN lowNs balls s
  | .atticPinWake source balls => Sys2Proof.Machine.execAtticPinWake source balls s
  | .atticTimerWake balls => Sys2Proof.Machine.execAtticTimerWake balls s
  | .fsRegular port => Sys2Proof.Machine.execFsRegular port s
  | .safeReqNRelease => Sys2Proof.Machine.execSafeReqNRelease s
  | .inputAgreement group value => Sys2Proof.Machine.execInputAgreement group value s
  | .unloadComplete part => Sys2Proof.Machine.execUnloadComplete part s
  | .storeLayoutComplete part => Sys2Proof.Machine.execStoreLayoutComplete part s
  | .taskBudgetRenewal slot => Sys2Proof.Machine.execTaskBudgetRenewal slot s
  | .msixVectorUnmask seat vector => Sys2Proof.Machine.execMsixVectorUnmask seat vector s
  | .linkBlockReceive node east bytes => Sys2Proof.Machine.execLinkBlockReceive node east bytes s

end Sys2Proof.Machine
end

