-- ==== Sys2Proof/Safety.lean ====
section
/-! DEFINITION. Safety.lean: what the claims about the block are stated in: completion, a seat's command as it is run, the legal states. -/

namespace Sys2Proof

open Machine

/-- The command answers the next state `t`. -/
def Answers (c : Instr) (s t : State) : Prop := exec c s = .next t

/-- The block steps from `s` to `t`. -/
def Steps (s t : State) : Prop := step s = .next t

/-- The command's seat, A or B, owns the partition that it names (R35, R292). -/
def Owns (h : Hdr) (s : State) : Prop :=
  h.part ≤ 15 ∧ (h.seat = .a ∨ h.seat = .b) ∧ (part s h.part).st ≠ 0 ∧ (part s h.part).seat = seatNo h.seat

/-- The command's seat holds safety rights and no seal fault is latched (R275, R410). -/
def HasSafetyRights (h : Hdr) (s : State) : Prop := (h.seat = .s ∨ (h.seat = .a ∧ sealRights s = true)) ∧ s.sio.fault = false

/-- A CMD of this kind with these operands has been sent to die `d`, which is out of reset and has not executed it yet (R150); `c` is the
oldest such. -/
def Sent (d kind : Nat) (args : List Nat) (c : CmdOut) (s : State) : Prop :=
  (die s d).inReset = false ∧ (die s d).cmds.find? (fun e => e.kind == kind && e.args == args && !executedSeq (die s d) e.seq) = some c

/-- The die notes that it has executed that CMD (R150). -/
def noted (d kind : Nat) (args : List Nat) (c : CmdOut) (s : State) : State :=
  modDie d (fun x => { x with executed := ((c.seq, kind, args) :: x.executed).take 64 }) s

/-- A state in which modes have values that the spec gives them (R306, R462, R471) and every byte-addressed memory of the companion is in
canonical form. -/
def Legal (s : State) : Prop := s.pair.mode ≤ 2 ∧ s.pwr.state ≤ 3 ∧ Memory.wf s.pwr.ram = true

end Sys2Proof
end

