-- ==== Sys2Proof/Certificates/Slice0/Obligations.lean ====
section
/-! DEFINITION. Certificates/Slice0/Obligations.lean: the statements for the provers. -/

open Sys2Proof Sys2Proof.Machine

/-- A step takes the command at the front of the queue: For every state whose queue has a front command, a step answers what that command answers on the state with the rest of the queue. (00_scope.md) -/
def Obligations.StepTakesFrontCommand : Prop :=
  ∀ (s : State) (c : Instr) (rest : List Instr), s.pending = c :: rest → step s = exec c { s with pending := rest }

/-- On an empty queue one TIME clock edge passes and the write gate lets through what is due (log 2): With nothing waiting, a step lets one edge of the TIME clock pass (the model's choice, log 2). Where that edge is not the middle of an OKAY period, no entry of seat S or N waits for its turn and no core can gate its clock: with no write in the write gate, or with the oldest not yet due, TB_SAFE's edge count rises by one, three free values are drawn, and nothing else changes but the counts of the three disciplined bases. A single write in the gate that is due after that edge is taken out and done as an internal write of its word, and then the arbiter runs on and the cores may gate. (10_companion_cores.md, 14_time.md) -/
def Obligations.EmptyQueueLetsOneEdgePass : Prop :=
  ∀ s : State, s.pending = [] → s.sio.toggling = false ∨ (s.time.edges + 1) % okayPeriod s ≠ okayPeriod s / 2 →
    (s.seats.sWait = none → s.seats.nWait = [] → s.pwr.state ≠ 1 → splitNow s = false → s.pair.gate = [] ∨ (∃ e a v r, s.pair.gate = (e, a, v) :: r ∧ s.time.edges + 1 < e) →
      ∃ t, Steps s t ∧ t.time.edges = s.time.edges + 1 ∧ t.free = s.free + 3 ∧
        t = { s with free := t.free, time := { s.time with edges := t.time.edges, na := t.time.na, nb := t.time.nb, app := t.time.app } } ∧
        (∀ b, 1 ≤ b → b ≤ 3 → baseOf t b = { baseOf s b with count := (baseOf t b).count, frac := (baseOf t b).frac })) ∧
    (∀ e a v, s.pair.gate = [(e, a, v)] → e ≤ s.time.edges + 1 →
      Steps s (coreGates true (coreGates false (arbiterRuns (regWrite .int a v.toNat { tick s with pair := { s.pair with gate := [] } })))))

/-- No command ends in a fault or a refusal: Every command, with every operand, answers a next state in every state. (00_scope.md) -/
def Obligations.EveryCommandAnswers : Prop :=
  ∀ (c : Instr) (s : State), ∃ t, Answers c s t

/-- No command changes the queue of waiting commands: Whatever command runs, the queue of waiting commands stays as it is; only a step takes from it. (00_scope.md) -/
def Obligations.QueueBelongsToTheStep : Prop :=
  ∀ (c : Instr) (s t : State), Answers c s t → t.pending = s.pending

/-- The identity region, once locked, stays locked under every step: In every state with the identity region locked, every step, whatever command it takes, leaves it locked. (16_startup_and_update.md) -/
def Obligations.IdentityStaysLocked : Prop :=
  ∀ s t : State, s.upd.locked = true → Steps s t → t.upd.locked = true

/-- Modes stay legal and the retention RAM canonical under every step: From every state whose pair mode and power state have values of the spec and whose retention RAM is in canonical form, every step gives such a state. (10_companion_cores.md, 17_power_and_reset.md) -/
def Obligations.LegalStaysLegal : Prop :=
  ∀ s t : State, Legal s → Steps s t → Legal t

/-- The state after reset is legal and holds the spec's reset values: State.reset is legal, its queue is empty, no partition is loaded, TB_SAFE reads 0, no base is SET, DOZE TICK is 10, every CRC unit selects CRC-32C, every die is in reset. (10_companion_cores.md, 13_check_values.md, 14_time.md, 17_power_and_reset.md) -/
def Obligations.ResetIsLegal : Prop :=
  Legal State.reset ∧ State.reset.pending = [] ∧ (∀ n, (part State.reset n).st = 0) ∧ tbSafe State.reset = 0 ∧
    (∀ b, 1 ≤ b → b ≤ 3 → (baseOf State.reset b).set = false) ∧ State.reset.pwr.tick = 10 ∧
    (∀ u, (crcUnit State.reset u).cfg = 3) ∧ (∀ d, (die State.reset d).inReset = true)

/-- IDENTIFY and GET_STATUS answer: A seat that the device serves is answered with status OK and its output: IDENTIFY and GET_STATUS of the device with the identity block, of a partition it owns, of a context of such a partition, in no slot that another seat's partition has, whose die is neither FAILED nor ABSENT, and of a stored evidence record of its own. (09_host_seats.md) -/
def Obligations.QueriesAnswerTheSeat : Prop :=
  ∀ (h : Hdr) (s : State), serving s h.seat = true →
    Answers (.identify h) s (answers h (identity (accept h s)) (accept h s)) ∧
    Answers (.getStatusDevice h) s (answers h (identity (accept h s)) (accept h s)) ∧
    (Owns h s → (part s h.part).st ≠ 5 →
      Answers (.getStatusPartition h) s (answers h (partStatus (accept h s) h.part) (accept h s))) ∧
    (∀ index, Owns h s → index < 65536 → ctxForeign s h index = false → (ctx s (index / 16384) (index % 16384)).kind ≠ 0 →
      (ctx s (index / 16384) (index % 16384)).part = h.part → dieLost s (index / 16384) = false →
      Answers (.getStatusContext h index) s (answers h (ctxBody (ctx s (index / 16384) (index % 16384)) ++
        leBytes 4 (ctx s (index / 16384) (index % 16384)).dcrc.toNat) (accept h s))) ∧
    (∀ index r, h.seat = .a ∨ h.seat = .b → evidenceAt s index = some r → r.owner = seatNo h.seat →
      Answers (.getStatusEvidence h index) s (answers h r.bytes (accept h s)))

/-- A completion is written behind the output and moves the queue on: For a PCIe seat's IDENTIFY on an enabled queue without INT_EN, while the host takes the seat's DMA writes: the first LENGTH bytes of the output go to ADDR, then the 32-byte entry with the current phase goes to the CQ's tail, the tail moves on by one and wraps at the CQ's size with the phase turned, and the busy count is as before. (09_host_seats.md) -/
def Obligations.CompletionReachesTheQueue : Prop :=
  ∀ (h : Hdr) (s : State) (q : Queue), serving s h.seat = true → h.seat = .a ∨ h.seat = .b → q = queueOf s h.seat h.sq →
    q.enable = true → q.discard = 0 → q.intEn = false → (seatOf s h.seat).rejects = false → 0 < h.len →
    ∃ t e, Answers (.identify h) s t ∧ e.length = 32 ∧ e.getD 31 0 = BitVec.ofNat 8 (bit q.phase) ∧
      t.out = .hostWrite h.seat (q.cqBase + 32 * q.cqTail) e :: .hostWrite h.seat h.addr ((identity (accept h s)).take h.len) :: s.out ∧
      queueOf t h.seat h.sq = { q with
        cqTail := if q.cqTail + 1 = q.cqSize then 0 else q.cqTail + 1, phase := if q.cqTail + 1 = q.cqSize then !q.phase else q.phase }

/-- ATTEST begins a signing, the signing answers it, the certificate is answered at once: ATTEST of a report with no signing under way notes the command and its nonce; when the signing is done the report and its padded signature are the output and no signing is under way; ATTEST of the certificate with no signing under way answers 29,920 bytes. (16_startup_and_update.md) -/
def Obligations.AttestationIsSigned : Prop :=
  (∀ (h : Hdr) (nonce : List Byte) (s : State), serving s h.seat = true → s.upd.signing = none →
    Answers (.attestReport h nonce) s { accept h s with upd := { s.upd with signing := some (h, nonce) } }) ∧
  (∀ (h : Hdr) (nonce : List Byte) (s : State), s.upd.signing = some (h, nonce) → firmwareRuns s = true →
    Answers .attestSigned s (answers h (reportBody s h nonce ++ padTo 49856 (Config.slhSign s.upd.shakeSlot (reportBody s h nonce)))
      { s with upd := { s.upd with signing := none } })) ∧
  (∀ (h : Hdr) (s : State), serving s h.seat = true → s.upd.signing = none →
    Answers (.attestCert h) s (answers h certificate (accept h s)) ∧ certificate.length = 29920)

/-- LOAD, its end, UNLOAD and its end: A clean stream for an EMPTY partition, from a seat with no load of its own in progress, makes the partition LOADING with everything reserved and its constants and descriptors sent to its dies; LOAD_COMPLETE ends the load of a partition whose codes hold no illegal operand, whose dies are present and hold its constants and descriptors, and whose regions all fit; an UNLOAD of a loaded partition that does not run, with no load of the seat in progress, is noted with its waiting frames quieted; when no frame of it is left the partition is emptied, its reservations and ports are released and the UNLOAD completes. (07_layout_stream.md) -/
def Obligations.LoadAndUnload : Prop :=
  (∀ (h : Hdr) (stream : List Byte) (s : State), serving s h.seat = true → h.seat = .a ∨ h.seat = .b → h.part ≤ 15 →
    (part s h.part).st = 0 → seatLoading (accept h s) (seatNo h.seat) = false → (loadErrs (accept h s) h.seat (seatNo h.seat) h.part stream).2.2 = [] →
    Answers (.load h stream) s (beginLoad h.part (seatNo h.seat) (loadErrs (accept h s) h.seat (seatNo h.seat) h.part stream).1
      (loadErrs (accept h s) h.seat (seatNo h.seat) h.part stream).2.1 stream (some h) (accept h s))) ∧
  (∀ (n : Fin 16) (g : Loading) (h : Hdr) (s v : State), (part s n).loading = some g → g.hdr = some h → firmwareRuns s = true →
    badProgs g.layout = [] → ((loadDies s n g.layout).any fun d => !diePresent s d) = false →
    ([0, 1, 2, 3].all fun d => loadStands s n d g.layout) = true →
    resettleAll n g.layout.regions.length (modPart n (fun p => { p with layout := some g.layout }) s) = some v →
    Answers (.loadComplete n none) s (loadEnds n g.layout g v)) ∧
  (∀ (h : Hdr) (s : State), serving s h.seat = true → Owns h s → (part s h.part).st = 1 ∨ (part s h.part).st = 3 ∨ (part s h.part).st = 4 →
    seatLoading (accept h s) (seatNo h.seat) = false →
    Answers (.unload h) s (quietPart h.part (modPart h.part (fun p => { p with unloading := some h }) (accept h s)))) ∧
  (∀ (n : Fin 16) (h : Hdr) (l : Layout) (s : State), (part s n).unloading = some h → (part s n).layout = some l → firmwareRuns s = true →
    (s.frames.any fun f => f.id.part == n.val) = false →
    Answers (.unloadComplete n) s (completeWith h 0 noRec 0 0 [] (layLast n 0 noRec (awaitUnloaded n (modPart n emptied (unreserve n (freePorts l
      (setPartState n 0 s))))))))

/-- START, STOP and their ends: START of a LOADED or STOPPED partition with a result ring, whose bases qualify and which is not being unloaded, starts it and reports launch 0 in INFO2; on a RUNNING one it only reports; STOP stops it, and completes at once when no frame is left, else with STOP_COMPLETE; a stored partition that waited for its bases starts when they qualify. (06_streams_and_frames.md, 09_host_seats.md) -/
def Obligations.StartAndStop : Prop :=
  (∀ (h : Hdr) (s : State), serving s h.seat = true → Owns h s → (part s h.part).unloading = none →
    ((part s h.part).st = 1 ∨ (part s h.part).st = 3 → (part s h.part).ring.isSome = true → basesReady (accept h s) h.part = true →
      Answers (.start h) s (completeWith h 0 0 0 (startInfo (startPart h.part (accept h s)) h.part) [] (startPart h.part (accept h s)))) ∧
    ((part s h.part).st = 2 → Answers (.start h) s (completeWith h 0 0 0 (startInfo (accept h s) h.part) [] (accept h s)))) ∧
  (∀ (h : Hdr) (s v : State), serving s h.seat = true → Owns h s → (part s h.part).st ≠ 5 → v = stopPart h.part (accept h s) →
    (framesLeft v h.part = false → Answers (.stop h) s (complete h 0 v)) ∧
    (framesLeft v h.part = true → Answers (.stop h) s (modPart h.part (fun p => { p with stopping := p.stopping ++ [h] }) v))) ∧
  (∀ (n : Fin 16) (s : State), framesLeft s n = false →
    Answers (.stopComplete n) s ((part s n).stopping.foldl (fun s h => complete h 0 s) (modPart n (fun p => { p with stopping := [] }) s))) ∧
  (∀ (n : Fin 16) (s : State), (part s n).autowait = true → (part s n).st = 1 → s.boot = .up → basesReady s n = true →
    Answers (.autostart n) s (startPart n s))

/-- STORE_LAYOUT, its end, ERASE_LAYOUT: A well-formed stream that names its own seat and fits is noted as a store in progress; its end puts it in place of an earlier one and completes with OK; ERASE_LAYOUT with no store of that partition number in progress removes the number's stored layout and leaves every other part of the state alone; behind a store in progress it waits for that store's end. (09_host_seats.md) -/
def Obligations.StoredLayouts : Prop :=
  (∀ (h : Hdr) (stream : List Byte) (s : State), serving s h.seat = true → h.seat = .a ∨ h.seat = .b → h.part ≤ 15 →
    (part s h.part).st = 0 → storedForeign (accept h s) h = false → stream ≠ [] →
    (readLayout (splitRecs (stream.length / 16 + 1) 0 stream).1).seat = seatNo h.seat →
    storedElse (accept h s) h.part + stream.length ≤ 0x1000000 → (s.seats.storing.all fun e => !(e.1.seat == h.seat)) = true →
    storeErrs stream = [] →
    Answers (.storeLayout h stream) s { accept h s with seats := { (accept h s).seats with
      storing := s.seats.storing ++ [(h, some ⟨h.part, seatNo h.seat, stream⟩)] } }) ∧
  (∀ (n : Fin 16) (h : Hdr) (x : Option Stored) (s : State), s.seats.storing = [(h, x)] → h.part = n.val → firmwareRuns s = true →
    Answers (.storeLayoutComplete n) s (complete h 0 { s with seats := { s.seats with
      storing := [], stored := (s.seats.stored.filter fun y => !(y.part == n.val)) ++ x.toList } })) ∧
  (∀ (h : Hdr) (s : State), serving s h.seat = true → h.seat = .a ∨ h.seat = .b → h.part ≤ 15 → (part s h.part).st = 0 →
    storedForeign (accept h s) h = false → (storedAhead (accept h s) h.part).isSome = true →
    ((s.seats.storing.all fun e => !(e.1.part == h.part)) = true →
      Answers (.eraseLayout h) s (complete h 0 { accept h s with seats := { (accept h s).seats with
        stored := (accept h s).seats.stored.filter fun x => !(x.part == h.part) } })) ∧
    ((s.seats.storing.any fun e => e.1.part == h.part) = true →
      Answers (.eraseLayout h) s { accept h s with seats := { (accept h s).seats with storing := s.seats.storing ++ [(h, none)] } }))

/-- UPLOAD_CONST, RELEASE_CONST, SET_RESULT_RING: A well-formed constant that fits on present dies is sent there, in WRITE packets through a window of its own, and completes, with the first 8 digest bytes in INFO2, when its last byte has reached every die (at once when no byte of it is to be sent); RELEASE_CONST drops the seat's upload when the seat's layout of that partition does not refer to it; SET_RESULT_RING gives a LOADED or STOPPED partition its ring with head and tail 0. (07_layout_stream.md, 09_host_seats.md) -/
def Obligations.UploadsAndRings : Prop :=
  (∀ (h : Hdr) (mask : Nat) (body : List Byte) (s : State), serving s h.seat = true → h.seat = .a ∨ h.seat = .b → h.part ≤ 15 →
    (part s h.part).st = 0 → body ≠ [] → 1 ≤ mask → mask ≤ 15 → tensorBad body 0 = false → body.length = hdrLength (readHdr body 0) →
    ((maskDies mask).any fun d => !diePresent (accept h s) d) = false →
    uploadOf (accept h s) h.seat h.part (shake256 32 body) = none →
    ((accept h s).seats.uploads.filter fun u => u.seat == h.seat).length < 64 →
    (∀ d ∈ maskDies mask, roundUp (constImage body).length 64 ≤ uploadRoom (accept h s) d ∧
      (uploadPlace (accept h s) d (roundUp (constImage body).length 64)).isSome = true) →
    ∀ x, x = uploadNew (accept h s) h.seat h.part mask (shake256 32 body) body →
    Answers (.uploadConst h mask body) s (awaits h (ofLe ((shake256 32 body).take 8))
      (if uploadEnd (constCells body) = 0 then [] else x.2.map fun d => (d, x.1.at_.getD d 0 + uploadEnd (constCells body)))
      (some (x.1, none)) (uploadEffect x.1 x.2 (accept h s)))) ∧
  (∀ (h : Hdr) (digest : List Byte) (s : State), serving s h.seat = true → h.seat = .a ∨ h.seat = .b → h.part ≤ 15 →
    (part s h.part).st = 0 → (uploadOf (accept h s) h.seat h.part digest).isSome = true → constReferred (accept h s) h.seat h.part digest = false →
    Answers (.releaseConst h digest) s (complete h 0 { accept h s with seats := { (accept h s).seats with
      uploads := (accept h s).seats.uploads.filter fun u => !(u.seat == h.seat && u.part == h.part && u.digest == digest) } })) ∧
  (∀ (h : Hdr) (cq : Nat) (s : State), serving s h.seat = true → Owns h s →
    (part s h.part).st = 1 ∨ (part s h.part).st = 3 →
    ringSizeOk h.len = true → h.addr % 4096 = 0 → h.addr + h.len ≤ 2 ^ 64 → cq ≤ 63 → (queueOf (accept h s) h.seat cq).enabled = true →
    Answers (.setResultRing h cq) s (complete h 0 (modPart h.part (fun p => { p with ring := some ⟨h.addr, h.len, cq, 0, 0, 0⟩ }) (accept h s))))

/-- FEED_SAMPLES, FEED_MESSAGE, CHECKIN, FENCE_CORE: Feeding a well-formed block not behind the next sequence number, or MESSAGE rows that the ring has room for, to a partition that is not FENCED, sends it to every replica of the stream and completes when its last byte has reached the last of them; CHECKIN counts one check-in of the task; FENCE_CORE, from the seat that owns the cluster or from seat S, notes the request and sends a FENCE command that names the cluster and the core to the die. (05_ring_and_cellar.md, 06_streams_and_frames.md, 12_watchdogs.md) -/
def Obligations.FeedsCheckinsAndFencing : Prop :=
  (∀ (h : Hdr) (i seq stamp era j : Nat) (r : StreamRec) (data : List Byte) (s : State), serving s h.seat = true → Owns h s →
    (part s h.part).st ≠ 5 → (part s h.part).st ≠ 4 → ctxStream s h.part i = some j → streamRec s h.part j = some r → r.kind = 1 →
    bitOf r.sflags 1 = true → ctxForeign s h i = false → diePresent s (i / 16384) = true → ctxBad (ctx s (i / 16384) (i % 16384)) = false →
    i ≤ 65535 → seq ≤ 65535 → era ≤ 3 → data ≠ [] →
    data.length = rowsLen r.fmt r.channels r.blockSamples → feedAhead s h.part j seq ≤ 32767 →
    Answers (.feedSamples h i seq stamp era data) s (awaits h 0 (feedEnd s h.part j ((blockPlace s h.part j seq).2 + 16)) none
      (feedBlock h.part j seq (stamp % 2 ^ 32 + era * 2 ^ 32) (readRows data r.fmt r.channels r.blockSamples) (accept h s)))) ∧
  (∀ (h : Hdr) (i rows j : Nat) (r : StreamRec) (data : List Byte) (s : State), serving s h.seat = true → Owns h s →
    (part s h.part).st ≠ 5 → (part s h.part).st ≠ 4 → ctxStream s h.part i = some j → streamRec s h.part j = some r → r.kind = 2 →
    8 ≤ r.evtBind → ctxForeign s h i = false → diePresent s (i / 16384) = true → ctxBad (ctx s (i / 16384) (i % 16384)) = false →
    i ≤ 65535 → 0 < rows → data.length = rowsLen r.fmt r.channels rows → feedHeld s h.part j + rows ≤ r.ringLength →
    Answers (.feedMessage h i rows data) s (awaits h 0 (feedEnd s h.part j (messageEnd s h.part j (readRows data r.fmt r.channels rows))) none
      (feedMessage h.part j (tbSafe s) (readRows data r.fmt r.channels rows) (accept h s)))) ∧
  (∀ (h : Hdr) (task n : Nat) (k : TasksRec) (l : Layout) (x : TaskRec) (s : State), serving s h.seat = true → Owns h s →
    (part s h.part).st = 2 → (part s h.part).layout = some l → l.tasks = some k → k.tasks[task]? = some x → x.source = 0 →
    taskSlot s h.part task = some n → Answers (.checkin h task) s (complete h 0 (taskCheckin n (accept h s)))) ∧
  (∀ (h : Hdr) (d cluster core : Nat) (s : State), serving s h.seat = true → d ≤ 3 → cluster ≤ 63 → core ≤ 31 ∨ core = 0xFF →
    h.seat = .s ∨ (h.seat = .a ∨ h.seat = .b) ∧ ownerNo s (ownerAt s d cluster) = seatNo h.seat → diePresent s d = true →
    Answers (.fenceCore h d cluster core) s (sendCmd d cmdFence [cluster, core] (modDie d (fun x => { x with
      fenceCmds := x.fenceCmds ++ [(h, cluster, core, false)] }) (accept h s))))

/-- The time actions of SAFETY_SET and of TIM_CMD: On a SET base, from a seat with safety rights or as a register write: STEP by a nonzero amount and ADOPT after a MASTER_SHIFT put a step 50 µs ahead, of the amount or of minus the refused offset, and keep its amount; DISMISS clears MASTER_SHIFT, JUMP_REFUSED and the run; PATH_ACK takes the last path sample and clears PATH_CHANGE; a command then completes with OK. (14_time.md) -/
def Obligations.TimeActions : Prop :=
  ∀ (b : Nat) (s : State), 1 ≤ b → b ≤ 3 → (baseOf s b).set = true →
    (∀ n : Int, n ≠ 0 →
      Answers (.timeStep .reg b n) s (modBase b (fun x => { x with pending := x.pending ++ [(tbSafe s + 50000, n)], stepAmt := n }) s)) ∧
    ((baseOf s b).shift = true → Answers (.timeAdopt .reg b) s (modBase b (fun x => { x with
      pending := x.pending ++ [(tbSafe s + 50000, -(baseOf s b).refused)], stepAmt := -(baseOf s b).refused }) s)) ∧
    Answers (.timeDismiss .reg b) s (servoLevel b (modBase b (fun x => { x with shift := false, jump := false, run := 0 }) s)) ∧
    ((baseOf s b).pathChg = true → Answers (.timePathAck .reg b) s (servoLevel b (modBase b (fun x => { x with
      path := x.lastPath, pathChg := false, pathRun := 0 }) s))) ∧
    (∀ h : Hdr, serving s h.seat = true → HasSafetyRights h s →
      (∀ n : Int, n ≠ 0 → Answers (.timeStep (.cmd h) b n) s (complete h 0 (modBase b (fun x => { x with
        pending := x.pending ++ [(tbSafe s + 50000, n)], stepAmt := n }) (accept h s)))) ∧
      ((baseOf s b).shift = true → Answers (.timeAdopt (.cmd h) b) s (complete h 0 (modBase b (fun x => { x with
        pending := x.pending ++ [(tbSafe s + 50000, -(baseOf s b).refused)], stepAmt := -(baseOf s b).refused }) (accept h s)))) ∧
      Answers (.timeDismiss (.cmd h) b) s (complete h 0 (servoLevel b (modBase b (fun x => { x with
        shift := false, jump := false, run := 0 }) (accept h s)))) ∧
      ((baseOf s b).pathChg = true → Answers (.timePathAck (.cmd h) b) s (complete h 0 (servoLevel b (modBase b (fun x => { x with
        path := x.lastPath, pathChg := false, pathRun := 0 }) (accept h s))))))

/-- A source that a loaded TIMEBIND rules out is refused; a change of TB_APP's source clears its run and flags: TIME_CFG of TB_APP with a SOURCE other than a loaded partition's APP_SOURCE completes with E_STATE; one that sets another SOURCE clears TB_APP's run, JUMP_REFUSED and MASTER_SHIFT, keeps its integrator and its rate; with SOURCE 3 TB_APP's sample does nothing. (14_time.md) -/
def Obligations.SourceOfTheApplicationBase : Prop :=
  (∀ (h : Hdr) (ctrl : BitVec 4) (gain limit : Word) (hold : Nat) (s : State), serving s h.seat = true → HasSafetyRights h s →
    sourceBound s (fld ctrl.toNat 2 1) = true → Answers (.timeCfg h 3 ctrl gain limit hold) s (complete h 2 (accept h s))) ∧
  (∀ (h : Hdr) (ctrl : BitVec 4) (gain limit : Word) (hold : Nat) (s : State), serving s h.seat = true → HasSafetyRights h s →
    sourceBound s (fld ctrl.toNat 2 1) = false → fld ctrl.toNat 2 1 ≠ s.time.app.source →
    ∃ t, Answers (.timeCfg h 3 ctrl gain limit hold) s t ∧ t.time.app.source = fld ctrl.toNat 2 1 ∧ t.time.app.run = 0 ∧
      t.time.app.jump = false ∧ t.time.app.shift = false ∧ t.time.app.integ = s.time.app.integ ∧ t.time.app.freq = s.time.app.freq) ∧
  (∀ s : State, s.time.app.source = 3 → Answers .appSample s s)

/-- Offset samples, path samples, the samples of TB_APP and of the cross-domain monitor, the wrap: An offset sample written with FEED 0 while the main core is not halted (the low word is then 0 again), or the oldest that the port's engine has computed, taken with FEED 1, goes through the servo; the first one sets an UNSET base; a path sample written with FEED 0 goes through the comparison; TB_APP and the cross-domain monitor take their samples once in a millisecond of TB_SAFE; a wrap signals source 64 + base. (14_time.md) -/
def Obligations.SamplesOfTheBases : Prop :=
  (∀ (b : Nat) (w : Word) (theta : Int) (s : State), b = 1 ∨ b = 2 →
    ((baseOf s b).feed = false → s.pair.halted = false → Answers (.offsetSample b (some w) theta) s
      (onOffset b (sgn 64 (w.toNat * 2 ^ 32 + (baseOf s b).offLo.toNat)) (modBase b (fun x => { x with offLo := 0 }) s))) ∧
    ((baseOf s b).feed = true → (netPort s (b - 1)).samples.head? = some theta → Answers (.offsetSample b none theta) s
      (onOffset b theta (modNet (b - 1) (fun x => { x with samples := x.samples.drop 1 }) s))) ∧
    ((baseOf s b).feed = false → s.pair.halted = false → Answers (.pathSample b theta) s (onPath b theta s)) ∧
    ((baseOf s b).feed = true → (netPort s (b - 1)).samples.head? = some theta → (baseOf s b).set = false →
      ∃ t, Answers (.offsetSample b none theta) s t ∧ (baseOf t b).set = true ∧ (baseOf t b).count = unsgn 64 ((baseOf s b).count - theta))) ∧
  (∀ s : State, s.time.edges % 400000 = 0 → s.time.app.source ≤ 1 → (baseOf s (s.time.app.source + 1)).set = true →
    Answers .appSample s (onOffset 3 (sgn 64 (unsgn 64 ((longOf s 3 : Int) - longOf s (s.time.app.source + 1)))) s)) ∧
  (∀ s : State, s.time.edges % 400000 = 0 → s.time.xdEn = true → s.time.na.set = true → s.time.nb.set = true →
    Answers .xdSample s (xdEffect s)) ∧
  (∀ (b : Fin 4) (s : State), longOf s b % 2 ^ 32 < 3 → 2 ^ 32 ≤ longOf s b → Answers (.timebaseWrap b) s (icuEvent (64 + b) s))

/-- A due step moves its bases, and launches are converted and issued anew: When the oldest pending step of a base is due, it is taken from the list, the base and, where TB_APP follows it, TB_APP are stepped, the transmit requests beyond the range of a stepped port are dropped and what is then due is sent, the plans of the stepped bases are gone through, and a master-mode capture restarts where TB_APP stepped. (14_time.md) -/
def Obligations.StepIsApplied : Prop :=
  ∀ (b : Nat) (at_ : Nat) (n : Int) (s : State), dueStep s b = some (at_, n) →
    Answers (.stepApply b) s
      (let s1 := modBase b (fun x => { x with pending := x.pending.drop 1 }) s
       let s2 := if b = 1 then netStep 0 n s1 else if b = 2 then netStep 1 n s1 else s1
       let s3 := (stepBases s1 b).foldl (fun s b => stepOne b n s) s2
       let s4 := [1, 2].foldl (fun s p => if p ∈ stepBases s1 b then netPump (netPort s (p - 1)).queue.length (p - 1) s else s) s3
       let s5 := stepPlans (decide (n < 0)) (stepBases s1 b) s4
       if 3 ∈ stepBases s1 b then stepCapture s5 else s5)

/-- TIME_CFG, XD, NET_CFG, TELEGRAM, SLOT and WDG_MODE: From a seat with safety rights, each of these SAFETY_SET items with values in range completes with OK, has its effect, and is stored as the latest of its item and index. (15_safety_io.md) -/
def Obligations.SettingsTakeEffectAndAreStored : Prop :=
  ∀ (h : Hdr) (s : State), serving s h.seat = true → HasSafetyRights h s →
    (∀ (b : Nat) (ctrl : BitVec 4) (gain limit : Word) (hold : Nat), 1 ≤ b → b ≤ 3 → (b = 3 → sourceBound s (fld ctrl.toNat 2 1) = false) →
      Answers (.timeCfg h b ctrl gain limit hold) s (complete h 0 (storeSetting 9 b (.timeCfg h b ctrl gain limit hold)
        (timeCfgEffect b ctrl.toNat gain.toNat limit.toNat hold (accept h s))))) ∧
    (∀ cfg : Word, Answers (.xd h cfg) s (complete h 0 (storeSetting 10 0 (.xd h cfg) { accept h s with
      time := { s.time with xdBound := cfg.toNat % 65536, xdEn := bitOf cfg.toNat 16 } }))) ∧
    (∀ (port : Nat) (addr mask gw tscfg : Word), port ≤ 1 →
      Answers (.netCfg h port addr mask gw tscfg) s (complete h 0 (storeSetting 11 port (.netCfg h port addr mask gw tscfg)
        (netCfgEffect port addr mask gw tscfg (accept h s))))) ∧
    (∀ cfg : TgCfg, 10 ≤ cfg.txCycle → cfg.txCycle ≤ 1000 → cfg.rxCycle = 0 ∨ 10 ≤ cfg.rxCycle ∧ cfg.rxCycle ≤ 1000 →
      Answers (.telegram h cfg) s (complete h 0 (storeSetting 16 0 (.telegram h cfg) (telegramEffect cfg (accept h s))))) ∧
    (∀ cfg : SlotCfg, cfg.slot ≤ 7 → cfg.part ≤ 15 → cfg.output ≤ 15 → cfg.region ≤ 255 → cfg.element ≤ 65535 →
      (h.seat = .a → ownerNo s cfg.part = 0) →
      Answers (.slot h cfg) s (complete h 0 (storeSetting 17 cfg.slot (.slot h cfg) (slotEffect cfg (accept h s))))) ∧
    (∀ unit mode width : Nat, unit ≤ 7 → mode ≤ 1 → 1 ≤ width → width ≤ 100 →
      Answers (.wdgMode h unit mode width) s (complete h 0 (storeSetting 3 unit (.wdgMode h unit mode width)
        (wdgModeEffect unit mode width (accept h s)))))

/-- With SEAL_FAULT latched, SAFETY_SET and OKAY_RELEASE complete with E_SEAL: While SEAL_FAULT is latched, OKAY_RELEASE outside SAFE, the alarm hold, fence sequences and MAINTENANCE, and XD, NET_CFG, TELEGRAM, SLOT, WDG_MODE, TIME_CFG and the four time actions with operands in range and no other reason for a refusal, from seat A or S, WDG_TAKE of a free unit from seat A or B, and WDG_RELEASE from the seat that holds the unit or from seat S, complete with E_SEAL and have no effect. (09_host_seats.md, 15_safety_io.md) -/
def Obligations.SealFaultRefusesSafetyCommands : Prop :=
  ∀ (h : Hdr) (s : State), serving s h.seat = true → s.sio.fault = true →
    (h.seat = .a ∨ h.seat = .s →
      (s.evd.safe = false → alarmOn s = false → fencing s = false → inMaintenance s = false →
        Answers (.okayRelease h) s (complete h 0x0C (accept h s))) ∧
      (∀ cfg : Word, Answers (.xd h cfg) s (complete h 0x0C (accept h s))) ∧
      (∀ (port : Nat) (addr mask gw tscfg : Word), port ≤ 1 →
        Answers (.netCfg h port addr mask gw tscfg) s (complete h 0x0C (accept h s))) ∧
      (∀ cfg : TgCfg, 10 ≤ cfg.txCycle → cfg.txCycle ≤ 1000 → cfg.rxCycle = 0 ∨ 10 ≤ cfg.rxCycle ∧ cfg.rxCycle ≤ 1000 →
        Answers (.telegram h cfg) s (complete h 0x0C (accept h s))) ∧
      (∀ cfg : SlotCfg, cfg.slot ≤ 7 → cfg.part ≤ 15 → cfg.output ≤ 15 → cfg.region ≤ 255 → cfg.element ≤ 65535 →
        (h.seat = .a → ownerNo s cfg.part = 0) → Answers (.slot h cfg) s (complete h 0x0C (accept h s))) ∧
      (∀ unit mode width : Nat, unit ≤ 7 → mode ≤ 1 → 1 ≤ width → width ≤ 100 →
        Answers (.wdgMode h unit mode width) s (complete h 0x0C (accept h s))) ∧
      (∀ (b : Nat) (n : Int), 1 ≤ b → b ≤ 3 → (baseOf s b).set = true → n ≠ 0 →
        Answers (.timeStep (.cmd h) b n) s (complete h 0x0C (accept h s))) ∧
      (∀ (b : Nat) (ctrl : BitVec 4) (gain limit : Word) (hold : Nat), 1 ≤ b → b ≤ 3 → (b = 3 → sourceBound s (fld ctrl.toNat 2 1) = false) →
        Answers (.timeCfg h b ctrl gain limit hold) s (complete h 0x0C (accept h s))) ∧
      (∀ b : Nat, 1 ≤ b → b ≤ 3 → (baseOf s b).set = true →
        ((baseOf s b).shift = true → Answers (.timeAdopt (.cmd h) b) s (complete h 0x0C (accept h s))) ∧
        Answers (.timeDismiss (.cmd h) b) s (complete h 0x0C (accept h s)) ∧
        ((baseOf s b).pathChg = true → Answers (.timePathAck (.cmd h) b) s (complete h 0x0C (accept h s))))) ∧
    (∀ unit : Nat, 1 ≤ unit → unit ≤ 7 → (wdgUnit s unit).holder = 2 ∧ h.seat = .a ∨ (wdgUnit s unit).holder = 3 ∧ h.seat = .b ∨
        ((wdgUnit s unit).holder = 2 ∨ (wdgUnit s unit).holder = 3) ∧ h.seat = .s →
      Answers (.wdgRelease h unit) s (complete h 0x0C (accept h s))) ∧
    (h.seat = .a ∨ h.seat = .b → ∀ unit mode width opn close : Nat, 1 ≤ unit → unit ≤ 7 → mode ≤ 1 → 1 ≤ width → width ≤ 100 →
      100 ≤ close → close ≤ 60000000 → opn < close → (wdgUnit s unit).holder = 0 →
      Answers (.wdgTake h unit mode width opn close) s (complete h 0x0C (accept h s)))

/-- WDG_TAKE, WDG_RELEASE and the release of OKAY: With no seal fault: seat A or B takes a free unit with limits and mode in range, and the unit is enabled; the seat that holds it, or seat S, frees it; OKAY_RELEASE, from a seat with safety rights while SAFE, the alarm hold, a fence sequence and MAINTENANCE are all absent, clears RELEASE_PENDING and nothing else. (12_watchdogs.md, 15_safety_io.md) -/
def Obligations.WatchdogUnitsChangeHands : Prop :=
  ∀ (h : Hdr) (s : State), serving s h.seat = true → s.sio.fault = false →
    (∀ unit mode width opn close : Nat, h.seat = .a ∨ h.seat = .b → 1 ≤ unit → unit ≤ 7 → mode ≤ 1 → 1 ≤ width → width ≤ 100 →
      100 ≤ close → close ≤ 60000000 → opn < close → (wdgUnit s unit).holder = 0 →
      Answers (.wdgTake h unit mode width opn close) s (complete h 0 (wdgEnable unit (modWdg unit (fun u => { u with
        holder := (if h.seat = .a then 2 else 3), mode := mode == 1, width := width, opn := opn, close := close, warned := false,
        pendMode := none }) (accept h s))))) ∧
    (∀ unit : Nat, 1 ≤ unit → unit ≤ 7 → (wdgUnit s unit).holder = 2 ∧ h.seat = .a ∨ (wdgUnit s unit).holder = 3 ∧ h.seat = .b ∨
        ((wdgUnit s unit).holder = 2 ∨ (wdgUnit s unit).holder = 3) ∧ h.seat = .s →
      Answers (.wdgRelease h unit) s (complete h 0 (wdgFree unit (accept h s)))) ∧
    (HasSafetyRights h s → s.evd.safe = false → alarmOn s = false → fencing s = false → inMaintenance s = false →
      Answers (.okayRelease h) s (complete h 0 { accept h s with sio := { s.sio with release := false } }))

/-- SLEEP, its states and the duty tick: A SLEEP that nothing refuses, with no wake source present for a state other than RUN: RUN leaves DOZE at once and completes, DOZE gates the clocks and completes, NAP stops every partition and waits, ATTIC completes with nothing in flight and leaves the attic alone; at a duty tick in DOZE the gated cores run; when no frame is left and no D reset runs, the dies are gated, the capture, stamp, offset and ring registers that NAP does not keep are cleared, and the NAP completes. (17_power_and_reset.md) -/
def Obligations.SleepEntersAndLeaves : Prop :=
  (∀ (h : Hdr) (s : State), serving s h.seat = true → h.seat = .a ∨ h.seat = .s →
    (sleepStatus (accept h s) h 0 = 0 → s.pwr.state = 1 →
      Answers (.sleepRun h) s (complete h 0 (icuEvent 144 { accept h s with
        pwr := { s.pwr with req := 0, state := 0, outcome := 1 }, pair := { s.pair with asleep := false, asleepC := false } }))) ∧
    (sleepStatus (accept h s) h 1 = 0 → s.pwr.state ≠ 1 → wakePresent (accept h s) false = false →
      Answers (.sleepDoze h) s (complete h 0 (icuEvent 144 { accept h s with
        pwr := { s.pwr with req := 1, state := 1, outcome := 1 }, pair := { s.pair with asleep := true, asleepC := splitNow s } }))) ∧
    (sleepStatus (accept h s) h 2 = 0 → s.pwr.state ≠ 2 → wakePresent (accept h s) false = false →
      Answers (.sleepNap h) s (let u := (List.range 16).foldl (fun s n => stopPart n s) (sleepNote 2 0 (accept h s))
        icuSettle (okaySettle { u with pwr := { u.pwr with napping := some h }, pair := { u.pair with asleep := false, asleepC := false } }))) ∧
    (∀ timer : Nat, sleepStatus (accept h s) h 3 = 0 → s.pwr.state ≠ 3 → wakePresent (accept h s) true = false →
      Answers (.sleepAttic h timer) s (atticState (complete h 0 (icuEvent 144 { accept h s with
        pwr := { s.pwr with req := 3, outcome := 1, timer := timer % 4294967296 }, frames := [] }))))) ∧
  (∀ s : State, s.pwr.state = 1 → s.time.edges % (s.pwr.tick * 40000) = 0 →
    Answers .dozeTick s (icuSettle { s with pair := { s.pair with asleep := false, asleepC := false } })) ∧
  (∀ (h : Hdr) (s u v : State), s.pwr.napping = some h → s.frames = [] → (∀ d, d ≤ 3 → (die s d).dReset = none) →
    u = capNap (eachDie dieToNap s) → wakePresent u false = false → u.pwr.wakePend = false →
    v = [1, 2, 3].foldl (fun s b => modBase b (fun x => { x with offLo := 0 }) s) (ringFields u) →
    Answers .napSelfRefresh s (icuEvent 144 (complete h 0 { v with
      net := v.net.map (fun e => (e.1, { e.2 with stamps := [] }))
      ring := { v.ring with present := 0, east := none, west := none, tokens := [] }
      pwr := { v.pwr with state := 2, napping := none, outcome := 1, wakePend := false } })))

/-- WAKE_n, a pin of the wake set and the timer end NAP and ATTIC: WAKE_n low for 1 µs in NAP starts the exit with every die in NAP released at this instant; low for 61,036 ns in ATTIC, a sampled pin or SAFE_REQ_n low that is a member of the wake set, or the timer running out bring the device up from ATTIC with the cause and source recorded. (17_power_and_reset.md) -/
def Obligations.WakingStartsTheExit : Prop :=
  ∀ (balls : Balls) (s : State),
    (∀ lowNs : Nat, 1000 ≤ lowNs → s.boot ≠ .off → s.pwr.napping = none → s.pwr.state = 2 → s.pwr.waking = false →
      Answers (.wakeN lowNs balls) s (beginNapExit none (wakeSeen lowNs s))) ∧
    (∀ lowNs : Nat, 61036 ≤ lowNs → s.boot = .off →
      Answers (.wakeN lowNs balls) s (atticWake 1 0 balls (wakeSeen lowNs s))) ∧
    (∀ n : Nat, s.boot = .off → 104 ≤ n → n ≤ 112 → inWakeSet s n = true →
      Answers (.atticPinWake n balls) s (atticWake 2 n balls s)) ∧
    (s.boot = .off → s.sio.reqLow = true → inWakeSet s 121 = true → Answers (.atticPinWake 121 balls) s (atticWake 2 121 balls s)) ∧
    (s.boot = .off → s.pwr.timer ≠ 0 → s.pwr.atticAt + s.pwr.timer * 400000000 ≤ s.time.edges →
      Answers (.atticTimerWake balls) s (atticWake 3 0 balls s))

/-- POWER_ON, RESET_n, a brownout, SYSTEM_RESET and DIE_RESET: Power-on, RESET_n low for 10 µs and more, and a supply below its trip for 2 µs and more bring the device up anew, with the kind of reset kept; RESET_n low for less than 1 µs does nothing; SYSTEM_RESET completes and then resets; DIE_RESET from seat S of a die that is present, not being reset and not in NAP resets that die alone. (16_startup_and_update.md, 17_power_and_reset.md) -/
def Obligations.ResetsBringTheDeviceUp : Prop :=
  (∀ (balls : Balls) (s : State),
    Answers (.powerOn balls) s (bringUp 0 balls s) ∧
    (∀ lowNs : Nat, 10000 ≤ lowNs → Answers (.resetN lowNs balls) s (bringUp 1 balls s)) ∧
    (∀ lowNs : Nat, lowNs < 1000 → Answers (.resetN lowNs balls) s s) ∧
    (∀ (supply : Supply) (lowNs : Nat), 2000 ≤ lowNs → s.boot ≠ .off →
      Answers (.supplyBrownout supply lowNs balls) s (bringUp (if supply = .vddAtt then 0 else 1) balls s))) ∧
  (∀ (h : Hdr) (s : State), serving s h.seat = true → h.seat = .a ∨ h.seat = .s →
    Answers (.systemReset h) s (bringUp 3 ⟨(complete h 0 (accept h s)).sio.lastP, (complete h 0 (accept h s)).sio.lastN⟩
      (complete h 0 (accept h s)))) ∧
  (∀ (h : Hdr) (d : Nat) (s : State), serving s .s = true → h.seat = .s → d ≤ 3 → (die s d).st ≠ 6 → (die s d).dReset = none →
    inNap s = false → Answers (.dieReset h d) s (dieDReset d (some h) (accept h s)))

/-- What a reset keeps and what it clears: After power-on and after RESET_n low for 10 µs and more the identity region is locked and the power state is RUN; the retention RAM reads 0 throughout after power-on and is as it was after RESET_n. (17_power_and_reset.md) -/
def Obligations.AResetKeepsTheAttic : Prop :=
  ∀ (balls : Balls) (s : State),
    (∃ t, Answers (.powerOn balls) s t ∧ t.upd.locked = true ∧ t.pwr.ram = [] ∧ t.pwr.state = 0) ∧
    (∀ lowNs : Nat, 10000 ≤ lowNs → ∃ t, Answers (.resetN lowNs balls) s t ∧ t.upd.locked = true ∧ t.pwr.ram = s.pwr.ram ∧ t.pwr.state = 0)

/-- DOWNLOAD, the commit of a chunk, VERIFY and its end: Chunk 0 at offset 0 of an image, from seat A, N or S with no other kind in update, starts the download afresh and appends its piece; a poll of LENGTH 0 answers what has been received; the programmed chunk is committed with its completion; VERIFY of a downloaded image begins and its end completes with the checks' status. (16_startup_and_update.md) -/
def Obligations.UpdatesAreDownloadedAndVerified : Prop :=
  (∀ (h : Hdr) (k : Nat) (crc : Word) (data : List Byte) (s : State), serving s h.seat = true → h.seat ≠ .b → 1 ≤ k → k ≤ 3 →
    s.upd.seatSOnly = false → s.upd.current = 0 ∨ s.upd.current = k → inTrial s k = false → (kindOf s k).committing = none →
    (kindOf s k).partial_ = [] → data ≠ [] → data.length ≤ 29920 →
    Answers (.updDownload h k 0 0 crc data) s (pieceAppended h k 0 crc data (downloadStarts k (accept h s)))) ∧
  (∀ (h : Hdr) (k chunk offset : Nat) (crc : Word) (s : State), serving s h.seat = true → h.seat ≠ .b → 1 ≤ k → k ≤ 3 →
    s.upd.seatSOnly = false →
    Answers (.updDownload h k chunk offset crc []) s
      (updEnds h k 0 (kindOf s k).partial_.length (kindOf s k).nextChunk (accept h s))) ∧
  (∀ (h : Hdr) (k : Nat) (s : State), committingKind s = some (k, h) → s.pair.halted = false → s.upd.restart = false →
    Answers .chunkCommit s (commitChunk k h s)) ∧
  (∀ (h : Hdr) (k : Nat) (s : State), serving s h.seat = true → h.seat = .a ∨ h.seat = .s → 1 ≤ k → k ≤ 3 → s.upd.seatSOnly = false →
    (kindOf s k).stage = 2 → updInProgress (accept h s) = false →
    Answers (.updVerify h k) s (icuEvent 136 (modKind k (fun x => { x with stage := 3, verifying := some h }) (accept h s)))) ∧
  (∀ (h : Hdr) (k : Nat) (s : State), verifyingKind s = some (k, h) → (kindOf s k).stage = 3 → s.pair.halted = false → s.upd.restart = false →
    Answers .verifyDone s (updEnds h k (slotStatus s.upd.aesSlot k (kindOf s k) true) 0 0 (icuEvent 136 (modKind k (fun x => { x with
      verifying := none, stage := if slotStatus s.upd.aesSlot k x true = 0 then 4 else 2 }) s))))

/-- ACTIVATE, the end of the restart, CONFIRM and the end of the window: ACTIVATE of a verified image with a window of 0 or 60 to 3,600 s completes and begins the trial; the end of a restart lets the firmware chosen run with its user tasks and its stored settings, or leaves seat S alone where no image can run; CONFIRM of a kind in trial makes the trial slot the active one and raises the counter; a trial whose window has ended is reverted. (16_startup_and_update.md) -/
def Obligations.TrialsBeginAndEnd : Prop :=
  (∀ (h : Hdr) (k window : Nat) (s : State), serving s h.seat = true → h.seat = .a ∨ h.seat = .s → 1 ≤ k → k ≤ 3 →
    s.upd.seatSOnly = false → window = 0 ∨ 60 ≤ window ∧ window ≤ 3600 → (kindOf s k).stage = 4 →
    (k = 2 → ∀ e ∈ s.parts, e.2.st = 0) →
    Answers (.updActivate h k window) s (trialBegins k (updEnds h k 0 0 0 (icuEvent 136
      (modKind k (fun x => { x with trialPend := true, trials := 0, window := window })
        { accept h s with upd := { (accept h s).upd with current := k } }))))) ∧
  (∀ s : State, s.upd.restart = true → s.upd.seatSOnly = false → s.releaseX.isSome = true →
    Answers .activationRestartDone s (let u := bootKind 1 s
      if (kindOf u 1).bootFail then { u with upd := { u.upd with seatSOnly := true } }
      else applySettings (declareTasks { u with upd := { u.upd with restart := false } }))) ∧
  (∀ (h : Hdr) (k : Nat) (s : State), serving s h.seat = true → h.seat = .a ∨ h.seat = .s → 1 ≤ k → k ≤ 3 → s.upd.seatSOnly = false →
    inTrial s k = true →
    Answers (.updConfirm h k) s (updEnds h k 0 0 0 (icuEvent 136 (modKind k (fun x => raiseCounter (slotVersion k x true) { x with
      active := !x.active, trialPend := false, trials := 0, stage := 0 })
        { accept h s with upd := { (accept h s).upd with current := if s.upd.current = k then 0 else s.upd.current } })))) ∧
  (∀ s : State, windowOver s 1 = true → Answers .trialWindowExpiry s (revertKind 1 s)) ∧
  (∀ s : State, windowOver s 1 = false → windowOver s 2 = true → Answers .trialWindowExpiry s (revertKind 2 s)) ∧
  (∀ s : State, windowOver s 1 = false → windowOver s 2 = false → windowOver s 3 = true → Answers .trialWindowExpiry s (revertKind 3 s))

/-- LOCKSTEP SPLIT and REJOIN: SPLIT from seat S in lockstep outside BOOT makes the checker a core of its own that begins at the split address, OKAY held, and completes; REJOIN of a split or lost pair restores lockstep with the checker taking the registers of the main core that a rejoin copies and every cache invalid, empties the journal, makes a release pending, moves a good tap test on to its next bit and completes. (10_companion_cores.md) -/
def Obligations.LockstepSplitsAndRejoins : Prop :=
  ∀ (h : Hdr) (s : State), serving s .s = true → h.seat = .s →
    (s.pair.mode = 0 → deviceState (accept h s) ≠ 1 →
      Answers (.lockstepSplit h) s (lockstepEnds h 0 (icuSettle (okaySettle { accept h s with pair := { s.pair with
        mode := 1, checker := { pc := s.pair.splitAt }, asleepC := false } })))) ∧
    (s.pair.mode ≠ 0 → ∃ u, Answers (.lockstepRejoin h ⟨true, true⟩) s (lockstepEnds h 0 (icuSettle u)) ∧
      u.pair.mode = 0 ∧ u.pair.checker = coreCopied s.pair.main ∧ u.pair.main = { s.pair.main with icache := .empty, dcache := .empty } ∧
      u.pair.tapBit = (s.pair.tapBit + 1) % 128 ∧ u.pair.journal = [] ∧ u.pair.overflow = false ∧
      u.sio.release = true ∧ u.icu.stack1 = [])

/-- Halt, resume, step and the accesses of the debugger: While their input group agrees: a halt of running cores holds OKAY and signals source 131; while halted a resume replays the journal and signals it again, a step leaves what ran free. While the group differs such a request waits. An abstract write of a register that is reached, with room in the journal, is applied to the main core and journalled; the 65th loses lockstep; an abstract read answers the register held and changes no register. (10_companion_cores.md) -/
def Obligations.TheDebuggerRunsTheCores : Prop :=
  (∀ s : State, inputDiffers s 0 = true →
    Answers .debugHalt s { s with pair := { s.pair with dbgReq := some .halt } } ∧
    Answers .debugResume s { s with pair := { s.pair with dbgReq := some .resume } } ∧
    Answers .debugStep s { s with pair := { s.pair with dbgReq := some .step } }) ∧
  (∀ s : State, inputDiffers s 0 = false → s.pair.halted = false →
    Answers .debugHalt s (icuEvent 131 (okaySettle (coresRan { s with pair := { s.pair with halted := true } })))) ∧
  (∀ s : State, inputDiffers s 0 = false → s.pair.halted = true →
    Answers .debugResume s (icuEvent 131 { journalReplay s with pair := { (journalReplay s).pair with halted := false } }) ∧
    Answers .debugStep s (icuEvent 131 (coresRan (journalReplay s)))) ∧
  (∀ s : State, s.pair.halted = true →
    (∀ (r : DbgReg) (v : Word), dbgReaches r = true → s.pair.journal.length < 64 →
      Answers (.abstractWrite r v) s { s with pair := { s.pair with
        main := cpuWrite r v s.pair.main, journal := s.pair.journal ++ [⟨r, v⟩] } }) ∧
    (∀ (r : DbgReg) (v : Word), dbgReaches r = true → 64 ≤ s.pair.journal.length → s.pair.mode = 0 →
      Answers (.abstractWrite r v) s (okaySettle { s with pair := { s.pair with
        main := cpuWrite r v s.pair.main, overflow := true, mode := 2 } })) ∧
    (∀ (r : DbgReg) (v : Word), dbgReaches r = true → cpuRead r s.pair.main = some v →
      Answers (.abstractRead r) s { s with pair := { s.pair with lastRead := v }, free := s.free + 1, out := .debugValue v :: s.out }))

/-- Mismatches and comparator faults of an active pair latch SAFE: While the pair is active in lockstep: a bus mismatch and a millisecond tap of different CRCs are counted, noted as the first fault and latch SAFE with cause 4, the write gate holding nothing any more, the checker taking the main core's state and a tap test following, answered as the last one (log 103); a half that misses the injected mismatch and a parity fault of a half latch SAFE with cause 5; a good tap test moves on to the next bit alone. (10_companion_cores.md) -/
def Obligations.PairFaultsLatchSafe : Prop :=
  ∀ s : State, pairActive s = true →
    (∀ b : Fin 128, ∃ u, Answers (.coreMismatch b) s (tapTest (resync u).pair.tap (resync u)) ∧
      u = latchSafe 4 0 0 (pairDiag 1 (bitGroup b) 0 b { s with pair := { s.pair with mism := up8 s.pair.mism, gate := [] } })) ∧
    (∀ main checker : List Word, s.time.edges % 400000 = 0 →
      crc32c ((main.map fun w => leBytes 4 w.toNat).flatten) ≠ crc32c ((checker.map fun w => leBytes 4 w.toNat).flatten) →
      ∃ u, Answers (.stateTap main checker) s (tapTest (resync u).pair.tap (resync u)) ∧
      u = latchSafe 4 0 0 (pairDiag 2 0 0 0 { s with pair := { s.pair with mism := up8 s.pair.mism, gate := [] } })) ∧
    (s.time.edges % 400000 = 200000 →
      Answers (.tapTest true true) s { s with pair := { s.pair with tapBit := (s.pair.tapBit + 1) % 128, tap := ⟨true, true⟩ } } ∧
      Answers (.tapTest true false) s (latchSafe 5 0 0 (pairDiag 4 (bitGroup s.pair.tapBit) 0 s.pair.tapBit { s with pair := { s.pair with
        tapBit := (s.pair.tapBit + 1) % 128, tap := ⟨true, false⟩, pathF := up8 s.pair.pathF } }))) ∧
    (∀ half : Nat, Answers (.comparePathFault (.parity half)) s (latchSafe 5 0 0 (pairDiag 5 0 (half % 2) 0 { s with pair := { s.pair with
      pathF := up8 s.pair.pathF } })))

/-- Input groups, cache parity, companion memories and clocks: A group that begins to disagree is noted, counted, logged and signalled, with the value it last agreed on kept; one that has disagreed for 1 ms is STUCK; agreement, with no debug request waiting, delivers the value, clears STUCK and leaves the other groups alone; a cache parity error is counted and makes both cores fetch the line again; an uncorrectable word of a companion memory is counted, latches SAFE with cause 9 and stops the user task whose area a read met (log 101); a corrected one is counted and signals 132; a clean word changes nothing; a reference-clock fault, from 1 s on, and a lost lock of the companion latch SAFE with cause 8; a temperature is shown and raises the peak; a lost lock of a die out of reset raises its alarm. (10_companion_cores.md) -/
def Obligations.CompanionInputsAndMemories : Prop :=
  ∀ s : State,
    (∀ g : Fin 3, inputDiffers s g = false → Answers (.inputDisagree g) s (icuEvent (128 + g) (logError 7 g 255 0 0 { s with pair := { s.pair with
      disagree := s.pair.disagree ||| 2 ^ g.val, inCount := up8 s.pair.inCount, agreed := tblSet 0 s.pair.agreed g (inputNow s g), differ := tblSet 0 s.pair.differ g (s.time.edges + 1) } }))) ∧
    (∀ g : Fin 3, tblGet 0 s.pair.differ g ≠ 0 → tblGet 0 s.pair.differ g + 399995 ≤ s.time.edges →
      Answers (.inputStuck g) s { s with pair := { s.pair with stuck := s.pair.stuck ||| 2 ^ g.val } }) ∧
    (∀ (g : Fin 3) (v : Word), s.pair.dbgReq = none → ∃ t, Answers (.inputAgreement g v) s t ∧ tblGet 0 t.pair.agreed g = v ∧ t.pair.stuck.testBit g = false ∧
      tblGet 0 t.pair.differ g = 0 ∧ ∀ k, k ≠ g.val → tblGet 0 t.pair.agreed k = tblGet 0 s.pair.agreed k) ∧
    (∃ t, Answers .cacheParity s t ∧ t.pair.cacheP = up8 s.pair.cacheP ∧ (s.pair.main = s.pair.checker → t.pair.main = t.pair.checker) ∧
      t.pair.main.x = s.pair.main.x ∧ t.pair.main.csr = s.pair.main.csr ∧ t.pair.main.pc = s.pair.main.pc ∧ t.free = s.free + 1) ∧
    (∀ a : Nat, Answers (.memoryUncorrectable .emram a) s (latchSafe 9 0 0 { s with pair := { s.pair with memUnc := up8 s.pair.memUnc } }) ∧
      (taskArea a = none → Answers (.memoryUncorrectable .sram a) s (latchSafe 9 0 0 { s with pair := { s.pair with memUnc := up8 s.pair.memUnc } })) ∧
      (∀ n code, taskArea a = some (n, code) → Answers (.memoryUncorrectable .sram a) s (userFault n (if code then 1 else 5)
        (latchSafe 9 0 0 { s with pair := { s.pair with memUnc := up8 s.pair.memUnc } })))) ∧
    (∀ (m : CxMem) (a : Nat),
      Answers (.companionScrub m a .uncorrectable) s (latchSafe 9 0 0 { s with pair := { s.pair with memUnc := up8 s.pair.memUnc } }) ∧
      Answers (.companionScrub m a .corrected) s (icuEvent 132 { s with pair := { s.pair with memCorr := wrapAt 16 (s.pair.memCorr + 1) } }) ∧
      Answers (.companionScrub m a .clean) s s) ∧
    (s.boot ≠ .off → (400000000 ≤ s.time.edges → Answers .refclkFault s (latchSafe 8 0 0 s)) ∧ Answers (.pllLockLoss 0) s (latchSafe 8 0 0 s) ∧
      ∀ v : BitVec 10,
        Answers (.tempUpdate 0 v) s { s with pwr := { s.pwr with now := v.toNat, peak := maxS10 s.pwr.peak v.toNat } }) ∧
    (∀ n : Fin 4, (die s n).inReset = false → Answers (.pllLockLoss n.succ) s (alarmRaise n s))

/-- User tasks, their budgets and services: A READY task that faults is stopped with the low byte of its cause; one that has used up its budget of a millisecond waits and is counted, until the next millisecond begins; while the main core is not halted an ecall for a service that the task has not declared stops it with cause 8, and a check-in service reaches its monitor slot. (10_companion_cores.md, 12_watchdogs.md) -/
def Obligations.UserTasksAndCheckins : Prop :=
  ∀ (n : Fin 8) (s : State),
    ((userTask s n).state = 1 →
      (∀ c : Word, Answers (.taskFault n c) s (modUser n (fun t => { t with state := 2, cause := c.toNat % 256 }) s)) ∧
      ((userTask s n).preempt = false →
        ((userTask s n).budget * 400 ≤ s.time.edges % 400000 → Answers (.taskBudgetExpiry n) s (modUser n (fun t => { t with preempt := true, overruns := up8 t.overruns }) s)) ∧
        (∀ (q : Nat) (svc : Service), s.pair.halted = false → bitOf (userTask s n).services q = false →
          ∃ t, Answers (.taskEcall n q svc) s t ∧ (userTask t n).state = 2 ∧ (userTask t n).cause = 8) ∧
        (∀ q k : Nat, s.pair.halted = false → bitOf (userTask s n).services q = true → (taskOf s k).valid = true → (taskOf s k).source = 3 →
          Answers (.taskEcall n q (.checkin k)) s (taskCheckin k s)))) ∧
    (s.time.edges % 400000 = 0 → Answers (.taskBudgetRenewal n) s (modUser n (fun t => { t with preempt := false }) s)) ∧
    (∀ k : Fin 64, s.pair.halted = false → (taskOf s k).valid = true → (taskOf s k).source = 3 → Answers (.checkinService k) s (taskCheckin k s))

/-- Submission, completion and result-head doorbells, enabling and disabling a queue pair complete: On an enabled queue pair of a seat whose BARs serve: a tail below SQ_SIZE is taken and signals the seat's source, a tail at or above it sets DOORBELL_ERR alone; a head below CQ_SIZE is taken, one at or above it sets DOORBELL_ERR alone; a result head that is a multiple of 16 within the ring becomes that partition's head, one beyond it or no multiple of 16 sets DOORBELL_ERR of the ring's queue; enabling well-formed registers gives an empty queue pair with phase 1; disabling an idle one disables it at once and lets the arbiter run on. (09_host_seats.md) -/
def Obligations.DoorbellsMoveTheQueues : Prop :=
  ∀ (x : Seat) (q : Fin 64) (s : State), hostServes s x = true →
    ((queueOf s x q).enable = true → (queueOf s x q).enabled = true →
      (∀ v : Word, v.toNat < (queueOf s x q).sqSize → Answers (.sqDoorbell x q v) s
        (icuEvent (80 + seatNo x) (modQueue x q (fun u => { u with sqTail := v.toNat }) s))) ∧
      (∀ v : Word, (queueOf s x q).sqSize ≤ v.toNat → Answers (.sqDoorbell x q v) s (modQueue x q (fun u => { u with dbErr := true }) s)) ∧
      (∀ v : Word, v.toNat < (queueOf s x q).cqSize → Answers (.cqDoorbell x q v) s (modQueue x q (fun u => { u with cqHead := v.toNat }) s)) ∧
      (∀ v : Word, (queueOf s x q).cqSize ≤ v.toNat → Answers (.cqDoorbell x q v) s (modQueue x q (fun u => { u with dbErr := true }) s))) ∧
    (∀ (n : Fin 16) (r : ResRing) (v : Word), (part s n).st ≠ 0 → (part s n).seat = seatNo x → (part s n).ring = some r →
      (v.toNat < r.size → v.toNat % 16 = 0 →
        Answers (.resultHeadDoorbell x n v) s (modPart n (fun p => { p with ring := some (headMoved v.toNat r) }) s) ∧
        (headMoved v.toNat r).head = v.toNat) ∧
      (r.size ≤ v.toNat ∨ v.toNat % 16 ≠ 0 → Answers (.resultHeadDoorbell x n v) s (modQueue x r.cq (fun u => { u with dbErr := true }) s))) ∧
    ((queueOf s x q).enable = false → 2 ≤ (queueOf s x q).sqSize → (queueOf s x q).sqSize ≤ 4096 → 2 ≤ (queueOf s x q).cqSize →
      (queueOf s x q).cqSize ≤ 4096 → (queueOf s x q).sqBase % 4096 = 0 → (queueOf s x q).cqBase % 4096 = 0 →
      Answers (.queueEnable x q) s (modQueue x q (fun u => { u with
        enable := true, status := 0, enabled := true, sqHead := 0, sqTail := 0, cqHead := 0, cqTail := 0, phase := true }) s)) ∧
    ((queueOf s x q).enable = true → (queueOf s x q).busy = 0 →
      Answers (.queueDisable x q) s (arbiterRuns (modQueue x q (fun u => { u with enable := false, enabled := false, discard := 0 }) s)))

/-- COMMAND_FETCH, USB_SUBMISSION, SEAT_N_DATAGRAM, HOST_DMA_READ_DONE and HOST_DMA_TIMEOUT complete: For every state and operands that meet the conditions named: COMMAND_FETCH takes the entry at the head of the next ready queue: one that reads no host data runs, one with it waits for its data, and the arbiter runs on; HOST_DMA_READ_DONE with the data in full runs the waiting entry, with an error it fails it, and a word that the host rejects the port's writes or takes them is kept; HOST_DMA_TIMEOUT after 10 ms without data fails the entry with E_TIMEOUT; USB_SUBMISSION of a whole entry with its data waits for its turn while none is outstanding, and is counted as a discard otherwise; SEAT_N_DATAGRAM of an entry and its data to a port with an address, up, and with less than 1,000 in this second, is counted, signalled and waits behind the earlier ones. The arbiter, when the turn is seat S's and none of seat N waits, takes seat S's entry and runs it. (09_host_seats.md) -/
def Obligations.CommandsComeFromTheirSeats : Prop :=
  (∀ (e : List Byte) (x : Seat) (q : Nat) (s : State), nextFetch s = some (x, q) → e.length = 64 →
    (opReads (entryOp e) = false → Answers (.commandFetch e) s (arbiterRuns (runEntry (entryHdr x q none e) e [] (entryTaken x q s)))) ∧
    (∀ i : Instr, readEntry (entryHdr x q none e) e [] (entryTaken x q s) = some (i, true) → opReads (entryOp e) = true → 0 < entryLen e →
      Answers (.commandFetch e) s (arbiterRuns (fetchBegins (entryHdr x q none e) e (entryTaken x q s))))) ∧
  (∀ (x : Seat) (q : Fin 64) (s : State),
    (∀ no : Bool, Answers (.hostDmaReadDone x q (.writes no)) s (modSeat x (fun t => { t with rejects := no }) s)) ∧
    ∀ f : Fetching, (queueOf s x q).fetching = some f → serving s x = true →
      (∀ d : List Byte, d.length = entryLen f.entry →
        Answers (.hostDmaReadDone x q (.data d)) s (runEntry (entryHdr x q none f.entry) f.entry d (fetchEnds x q s))) ∧
      Answers (.hostDmaReadDone x q .error) s (fetchFails x q f.entry s) ∧
      (f.since + 4000000 ≤ s.time.edges → Answers (.hostDmaTimeout x q) s (fetchFails x q f.entry s))) ∧
  (∀ (e d : List Byte) (s u : State), e.length = 64 → serving s .s = true → u = icuEvent 84 s →
    (u.seats.sBusy = true ∨ u.seats.sWait.isSome = true →
      Answers (.usbSubmission e d) s { u with seats := { u.seats with sDiscards := u.seats.sDiscards + 1 } }) ∧
    (u.seats.sBusy = false → u.seats.sWait = none → romTakes u (entryOp e) = true →
      (opReads (entryOp e) = true → d.length = (entryHdr .s 0 (some 0) e).len →
        Answers (.usbSubmission e d) s (arbiterRuns { u with seats := { u.seats with sWait := some (entryHdr .s 0 (some 0) e, e, d) } })) ∧
      (opReads (entryOp e) = false →
        Answers (.usbSubmission e d) s (arbiterRuns { u with seats := { u.seats with sWait := some (entryHdr .s 0 (some 0) e, e, []) } })))) ∧
  (∀ (p : Fin 2) (ip : Word) (prt : Nat) (e d : List Byte) (h : Hdr) (s u v : State), e.length = 64 → d.length ≤ 1024 →
    h = entryHdr .n p (some (ip.toNat + prt % 65536 * 4294967296)) e →
    (netPort s p).up = true → (netPort s p).addr ≠ 0 →
    u = icuEvent (72 + 2 * p) (modNet p (fun x => { x with rx := wrapAt 16 (x.rx + 1) }) s) → serving u .n = true →
    (rateTaken (netPort u p) (tbSafe u / 1000000000)).2 = true →
    v = modNet p (fun _ => (rateTaken (netPort u p) (tbSafe u / 1000000000)).1) u →
    Answers (.seatNDatagram p ip prt (e ++ d)) s (arbiterRuns { v with seats := { v.seats with nWait := v.seats.nWait ++ [(h, e, d)] } })) ∧
  (∀ (w : Hdr × List Byte × List Byte) (s : State), s.seats.nWait = [] → s.seats.sWait = some w → nextTurn s = some .s →
    arbiterRuns s = runEntry w.1 w.2.1 w.2.2 { s with seats := { s.seats with sWait := none, lastSeat := 3 } })

/-- SEAT_RESET, SEAT_BARS_READY, PERST_RELEASE and MSIX_VECTOR_UNMASK complete: SEAT_RESET of seat A or B outside ATTIC, by another event than PERST or after the device has served: the source 82 or 83 is signalled, the generation rises by one, and in turn an upload under way is cut, the seat's commands go on without their completions, its partitions stop, the seat is cleared, its stores and chunks under way end and the arbiter runs on. To clear a seat holds it in reset with no queues, no unmasked vector, no pending message and no aperture, and leaves the other seat as it was. PERST before the device has served takes the configuration readiness alone. SEAT_BARS_READY takes the seat out of reset unless PERST holds it; PERST_RELEASE makes it ready for configuration; MSIX_VECTOR_UNMASK unmasks the vector, and a message pending on it is sent and forgotten while the port has MSI-X enabled and not masked as a whole. (09_host_seats.md, 16_startup_and_update.md) -/
def Obligations.SeatsResetAndReturn : Prop :=
  (∀ (x : Seat) (cause : SeatResetCause) (s : State), x = .a ∨ x = .b → s.boot ≠ .off →
    (cause ≠ .perst ∨ s.seats.served = true → Answers (.seatReset x cause) s (arbiterRuns (chunksLost x (seatStoreCut x
      (seatCleared x (cause == .perst) (partsLost x (commandsLost x (uploadsCut x
        (modSeat x (fun t => { t with gen := wrapAt 8 (t.gen + 1), inReset := true }) (icuEvent (82 + seatNo x) s)))))))))) ∧
    (cause = .perst → s.seats.served = false →
      Answers (.seatReset x cause) s (modSeat x (fun t => { t with perst := true, cfgReady := false }) s))) ∧
  (∀ (x : Seat) (perst : Bool) (s t : State), x = .a ∨ x = .b → t = seatCleared x perst s →
    (seatOf t x).inReset = true ∧ (seatOf t x).queues = [] ∧ (seatOf t x).unmasked = [] ∧ (seatOf t x).pendingMsg = [] ∧
    t.evd.apert = tblErase s.evd.apert (seatNo x) ∧ t.evd.logApert = tblErase s.evd.logApert (seatNo x) ∧
    ∀ y : Seat, y ≠ x → seatOf t y = seatOf s y) ∧
  (∀ (x : Seat) (s : State), x = .a ∨ x = .b →
    Answers (.seatBarsReady x) s (modSeat x (fun u => { u with inReset := u.inReset && u.perst }) s) ∧
    Answers (.perstRelease x) s (modSeat x (fun u => { u with perst := false, cfgReady := true }) s)) ∧
  (∀ (x : Seat) (v : Fin 64) (s u : State), x = .a ∨ x = .b → (seatOf s x).inReset = false →
    u = modSeat x (fun t => { t with unmasked := withElem v.val t.unmasked }) s →
    (v.val ∈ (seatOf s x).pendingMsg → (seatOf s x).fn.msixOn = true → (seatOf s x).fn.msixMask = false →
      Answers (.msixVectorUnmask x v) s (emit (.msix x v) (modSeat x (fun t => { t with pendingMsg := without v.val t.pendingMsg }) u))) ∧
    (v.val ∉ (seatOf s x).pendingMsg ∨ (seatOf s x).fn.msixOn = false ∨ (seatOf s x).fn.msixMask = true →
      Answers (.msixVectorUnmask x v) s u))

/-- REGISTER_WRITE and the reads LOWER_WORD_READ, ICU_ERRORS_READ, WDG_GLOBAL_READ, CAP_PPS_IN_HI_READ, CAP_EVT_HI_READ and NET_TXTS_HI_READ complete: By a view that reaches its registers, at a BAR0 offset: a 32-bit write reaches its register at once, or, from the companion's main core to the watchdogs, the safety I/O and the update unit, waits three edges in the write gate; a write of another width does nothing. A 32-bit read answers what the register reads as, a read of another width answers 0 and does nothing; a read of a lower word latches the upper one for the view; ICU_ERRORS and WDG_GLOBAL answer and clear their counts for the companion; CAP_PPS_IN_HI clears NEW; CAP_EVT_HI and NET_TXTS_HI answer the latched word and remove the entry that it says was taken. Behind BAR0 a host's 32-bit read and write reach the rest of its port. While the main core is halted its reads and writes do nothing. (00_scope.md, 10_companion_cores.md, 20_register_index.md) -/
def Obligations.RegistersAreReadAndWritten : Prop :=
  (∀ (v : View) (a : Nat) (w : Word) (s : State), viewActs s v = true → v ≠ .chk → a < 0x2000000 →
    (v ≠ .int ∨ gated a = false → Answers (.registerWrite v a 4 w) s (regWrite v a w.toNat s)) ∧
    (v = .int → gated a = true → Answers (.registerWrite v a 4 w) s { s with pair := { s.pair with
      gate := s.pair.gate ++ [(s.time.edges + 3, a, w)] } }) ∧
    (∀ width : Nat, width ≠ 4 → Answers (.registerWrite v a width w) s s ∧ Answers (.lowerWordRead v ⟨a, width⟩) s (emit (.readValue 0) s))) ∧
  (∀ (v : View) (a : Nat) (s : State), viewActs s v = true → v ≠ .chk → a < 0x2000000 → Answers (.lowerWordRead v ⟨a, 4⟩) s (emit (.readValue (w32 (busRead v a s).1)) (busRead v a s).2)) ∧
  (∀ (v : View) (a : Nat) (s : State), viewActs s v = true → v ≠ .chk → a < 0x2000000 → a % 4 = 0 → isLower a = true → viewReads s v (a / 65536) = true →
    Answers (.lowerWordRead v ⟨a, 4⟩) s (emit (.readValue (w32 (regRead s v a))) (setLatch v (a + 4) (some (w32 (regRead s v (a + 4)))) s))) ∧
  (∀ (x : Seat) (v : View) (a : Nat) (w : Word) (s : State), x = .a ∧ v = .a ∨ x = .b ∧ v = .b → 0x2000000 ≤ a →
    Answers (.registerWrite v a 4 w) s (hostWrite x a w.toNat s) ∧
    (portAnswers s x = true → Answers (.lowerWordRead v ⟨a, 4⟩) s (emit (.readValue (w32 (hostRead s x a))) s))) ∧
  (∀ (a : Nat) (w : Word) (s : State), s.pair.halted = true →
    Answers (.registerWrite .int a 4 w) s s ∧ Answers (.lowerWordRead .int ⟨a, 4⟩) s s ∧ Answers (.icuErrorsRead .int) s s) ∧
  (∀ s : State, viewActs s .int = true →
    Answers (.icuErrorsRead .int) s (emit (.readValue (w32 (icuErrors s)))
      { s with icu := { s.icu with bad := 0, typeErr := 0, eoiErr := 0, fwdDrops := 0 } }) ∧
    Answers (.wdgGlobalRead .int) s (emit (.readValue (w32 (wdgGlobal s))) { s with wdg := { s.wdg with foreign := 0 } }) ∧
    (∀ w : Word, latchOf s .int 0x10015C = some w →
      Answers (.capPpsInHiRead .int) s (emit (.readValue (w32 w.toNat)) { setLatch .int 0x10015C none s with cap := { s.cap with inNew := false } })) ∧
    (∀ (p : Fin 2) (w : Word), latchOf s .int (0xA0808 + 0x40 * p) = some w → bitOf w.toNat 19 = true →
      Answers (.netTxtsHiRead .int p) s (emit (.readValue (w32 w.toNat)) (modNet p (fun x => { x with stamps := x.stamps.drop 1 })
        (setLatch .int (0xA0808 + 0x40 * p) none s)))) ∧
    (∀ (i : Fin 8) (w : Word), latchOf s .int (0x100114 + 8 * i) = some w → bitOf w.toNat 3 = true →
      ∃ u, u = modEvt i (fun x => { x with edges := x.edges.drop 1 }) (setLatch .int (0x100114 + 8 * i) none s) ∧
        Answers (.capEvtHiRead .int i) s (emit (.readValue (w32 w.toNat)) (icuLevel (104 + i) (!(evtIn u i).edges.isEmpty) u))))

/-- SYSTEM_BUS_ACCESS completes: it reaches the map and nothing else: Outside ATTIC SYSTEM_BUS_ACCESS completes at every address. An aligned word written to the lower 1 KiB of the retention RAM reads back byte by byte, and every byte of the retention RAM outside it is as before; an aligned read of that RAM answers its word and changes nothing; a word written above it, where the attic's program lies, is kept there; a word written to the halted cores' SRAM is what a later read answers; an aligned access of the register blocks is a write or a read of the companion's view; an unaligned read of them answers 0; an unaligned write and an access outside the map change nothing. (00_scope.md, 10_companion_cores.md) -/
def Obligations.SystemBusReachesTheMap : Prop :=
  ∀ (v : Word) (s : State), s.boot ≠ .off →
    (∀ o : Nat, o < 0x400 → o % 4 = 0 → (∃ t, Answers (.systemBusAccess true (0x8000000 + o) v) s t ∧
      (∀ i, i < 4 → memGet t.pwr.ram (o + i) = BitVec.ofNat 8 (v.toNat / 256 ^ i)) ∧
      (∀ a, a < o ∨ o + 4 ≤ a → memGet t.pwr.ram a = memGet s.pwr.ram a) ∧ t.pair.main = s.pair.main) ∧
      Answers (.systemBusAccess false (0x8000000 + o) v) s (emit (.debugValue (w32 (atticWord s o))) s)) ∧
    (∀ a : Nat, 0x10100000 ≤ a → a < 0x10400000 → a % 4 = 0 → s.pair.halted = true →
      Answers (.systemBusAccess true a v) s { s with pair := { s.pair with sram := tblPut s.pair.sram a v, sba := true } }) ∧
    (∀ a : Nat, a < 0x2000000 → a % 4 = 0 →
      Answers (.systemBusAccess true (0x40000000 + a) v) s (regWrite .int a v.toNat
        (if s.pair.halted = true then { s with pair := { s.pair with sba := true } } else s)) ∧
      Answers (.systemBusAccess false (0x40000000 + a) v) s (emit (.debugValue (w32 (busRead .int a s).1)) (busRead .int a s).2)) ∧
    (∀ a : Nat, a % 4 ≠ 0 → Answers (.systemBusAccess true a v) s s ∧
      (0x40000000 ≤ a → a < 0x42000000 → Answers (.systemBusAccess false a v) s (emit (.debugValue 0) s)) ∧
      (a < 0x40000000 ∨ 0x42000000 ≤ a → Answers (.systemBusAccess false a v) s s)) ∧
    (∀ o : Nat, 0x400 ≤ o → o < 0x1000 → o % 4 = 0 → s.pair.halted = false →
      Answers (.systemBusAccess true (0x8000000 + o) v) s { s with pwr := { s.pwr with patch := tblPut s.pwr.patch o v } }) ∧
    (∀ a : Nat, a % 4 = 0 → 0x54000000 ≤ a → ∀ write : Bool, Answers (.systemBusAccess write a v) s s)

/-- ICU_DOORBELL, ICU_CLAIM, ICU_EOI, the writes of ICU_EN and ICU_PEND and ICU_SRC_CFG_WRITE complete: For every state and operands named: an event doorbell of an event source sets it PENDING, an assert and a deassert of a level source set and clear it; a claim answers the source presented to the claiming core with its priority, takes it off PENDING, forgets what it was presented to before and puts it on that core's stack; outside DOZE an end of interrupt of the top of the stack takes it off, of another source is counted; outside a split the checker claims and ends as the main core; the bitmaps set and clear ENABLE and PENDING of the sources named, and a doorbell in the same cycle as a clear comes after it; a configuration write is applied. (11_interrupts.md) -/
def Obligations.InterruptsAreRaisedAndClaimed : Prop :=
  ∀ s : State,
    (∀ n : Nat, n < 256 ∨ 512 ≤ n ∧ n < 1024 →
      ((srcOf s n).isLevel = false → Answers (.icuDoorbell (w32 n)) s
        (icuForward n (icuChange (modSrc n fun x => { x with pend := true }) s))) ∧
      ((srcOf s n).isLevel = true →
        Answers (.icuDoorbell (w32 (0x40000000 + n))) s (icuForward n (icuChange (modSrc n fun x => { x with pend := true, level := true }) s)) ∧
        Answers (.icuDoorbell (w32 (0x80000000 + n))) s (icuChange (modSrc n fun x => { x with pend := false, level := false }) s))) ∧
    (∀ (c : Bool) (n p at_ : Nat), (c = true → splitNow s = true) → icuLate s c = none → icuPres s c = some (n, at_) → p = (srcOf s n).prio →
      ∃ u w, u = icuSettle (setStack c ((n, p) :: icuStack s c) (modSrc n (fun x => { x with pend := false })
          { setPres c none s with icu := { (setPres c none s).icu with held := s.icu.held.filter fun e => !(e.1 == n) } })) ∧
        w = w32 (n + p * 1024 + 16384) ∧
        Answers (.icuClaim c) s { u with icu := (if c then { u.icu with lastClaim1 := w } else { u.icu with lastClaim0 := w }), out := .readValue w :: u.out }) ∧
    (∀ (c : Bool) (n p : Nat) (r : List (Nat × Nat)), (c = true → splitNow s = true) → n < 1024 → icuStack s c = (n, p) :: r → s.pwr.state ≠ 1 →
      Answers (.icuEoi c (BitVec.ofNat 10 n)) s (icuSettle (modSrc n (fun x => { x with pend := x.pend || (x.isLevel && x.level) }) (setStack c r s)))) ∧
    (∀ (c : Bool) (m : BitVec 10), (c = true → splitNow s = true) → (∀ e ∈ (icuStack s c).head?, e.1 ≠ m.toNat) →
      Answers (.icuEoi c m) s { s with icu := { s.icu with eoiErr := up8 s.icu.eoiErr } }) ∧
    (splitNow s = false → ∀ (m : BitVec 10) (t : State), (Answers (.icuClaim true) s t ↔ Answers (.icuClaim false) s t) ∧
      (Answers (.icuEoi true m) s t ↔ Answers (.icuEoi false m) s t)) ∧
    (∀ (w : Fin 32) (v : Word),
      Answers (.icuEnSet w v) s (icuEach (bitmapSources w v) (fun x => { x with enable := true }) s) ∧
      Answers (.icuEnClr w v) s (icuEach (bitmapSources w v) (fun x => { x with enable := false }) s) ∧
      Answers (.icuPendSet w v) s (icuEach (bitmapSources w v) (fun x => { x with pend := true }) s) ∧
      Answers (.icuPendClr w v none) s (icuEach (bitmapSources w v) (fun x => { x with pend := false }) s) ∧
      ∀ d : Word, Answers (.icuPendClr w v (some d)) s (icuDoorbell d (icuEach (bitmapSources w v) (fun x => { x with pend := false }) s))) ∧
    (∀ (n : Fin 1024) (v : Word), Answers (.icuSrcCfgWrite n v) s (icuChange (modSrc n (srcCfg n v.toNat)) s))

/-- CRC_DATA8, CRC_DATA16, CRC_DATA32, CRC_START and the CRC_STATE writes complete: In every state: data writes feed the low 1, 2 or 4 bytes of the word in order to their unit; a start takes POLY of the configuration with its initial value and a count of 0 and, with ALIVE, feeds the alive byte, counts it and raises ALIVE by one; with a configuration of a CRC narrower than 64 bits a write of the lower state word commits it, cut to the width, and one of the upper word changes nothing; with CRC-64 the lower word is held and a write of the upper one commits both. No other unit changes. The bytes of 123456789 give the five check values. (13_check_values.md) -/
def Obligations.CrcUnitsComputeCheckValues : Prop :=
  (∀ (u : Fin 8) (v : Word) (s : State) (x : CrcUnit), x = crcUnit s u →
    Answers (.crcData8 u v) s (modCrc u (fun _ => crcFeed x (BitVec.ofNat 8 v.toNat)) s) ∧
    Answers (.crcData16 u v) s (modCrc u (fun _ => crcFeed (crcFeed x (BitVec.ofNat 8 v.toNat)) (BitVec.ofNat 8 (v.toNat / 256))) s) ∧
    Answers (.crcData32 u v) s (modCrc u (fun _ => crcFeed (crcFeed (crcFeed (crcFeed x (BitVec.ofNat 8 v.toNat))
      (BitVec.ofNat 8 (v.toNat / 256))) (BitVec.ofNat 8 (v.toNat / 65536))) (BitVec.ofNat 8 (v.toNat / 16777216))) s) ∧
    (x.aliveEn = false →
      Answers (.crcStart u) s (modCrc u (fun _ => { x with poly := x.cfg, run := (crcKind x.cfg).init, count := 0 }) s)) ∧
    (x.aliveEn = true → Answers (.crcStart u) s (modCrc u (fun _ => { x with
      poly := x.cfg, run := crcByte (crcKind x.cfg) (crcKind x.cfg).init x.alive, count := 1, alive := x.alive + 1 }) s)) ∧
    (x.cfg < 4 →
      Answers (.crcStateLoWrite u v) s (modCrc u (fun _ => { x with
        poly := x.cfg, run := v.setWidth 64 &&& crcMask (crcKind x.cfg).width, held := v }) s) ∧
      Answers (.crcStateHiWrite u v) s (modCrc u (fun _ => x) s)) ∧
    (4 ≤ x.cfg →
      Answers (.crcStateLoWrite u v) s (modCrc u (fun _ => { x with held := v }) s) ∧
      Answers (.crcStateHiWrite u v) s (modCrc u (fun _ => { x with poly := x.cfg, run := v ++ x.held }) s))) ∧
  (∀ (u : Nat) (f : CrcUnit → CrcUnit) (s : State), crcUnit (modCrc u f s) u = f (crcUnit s u) ∧
    ∀ k, k ≠ u → crcUnit (modCrc u f s) k = crcUnit s k) ∧
  (let l : List Byte := [0x31, 0x32, 0x33, 0x34, 0x35, 0x36, 0x37, 0x38, 0x39]
   crcOf 0 l = 0x4B ∧ crcOf 1 l = 0x29B1 ∧ crcOf 2 l = 0xCBF43926 ∧ crcOf 3 l = 0xE3069283 ∧ crcOf 4 l = 0x6C40DF5F0B497347)

/-- SNAPSHOT_REQUEST, SNAPSHOT_LATCH, SNAPSHOT_CMD, ACK_PACKET and CMD_RESEND_TIMEOUT complete: While the firmware runs, a request while none is pending is taken: it is pending at its instant with its identifier and reason, waits for the present dies and the companion's ports, and every present die is sent a snapshot CMD, the ports latching at once where the instant has passed; one while another is pending is counted as refused and changes nothing else; at its instant the companion copies its port counters, an armed die its own; a snapshot CMD that was sent to a die, when it arrives for the first time, arms the die where its instant lies ahead and else latches at once as LATE, and is acknowledged; the acknowledgement of an executed CMD signals the die's source unless the ring's block delivery has done so, and takes the CMD off the list; of one of another kind than a fence or a commit nothing follows but that a snapshot or a reset may be complete, of a fence the commands that wait for it complete; a CMD not acknowledged in 10 µs is sent again the other way. (14_time.md, 18_counters_and_evidence.md, 05_ring_and_cellar.md) -/
def Obligations.SnapshotsLatchAndAcknowledge : Prop :=
  (∀ (v : Word) (s : State), s.boot ≠ .off → s.pair.halted = false → s.upd.restart = false →
    (s.snap.pending.isSome = true → Answers (.snapshotRequest v) s { s with snap := { s.snap with refusals := up8 s.snap.refusals } }) ∧
    (∀ (t : Int) (ds : List Nat) (u : State), s.snap.pending = none → t = extendStamp (tbSafe s) s.snap.at_.toNat (fld v.toNat 9 8) →
      ds = [0, 1, 2, 3].filter (fun d => diePresent s d) →
      u = ds.foldl (fun u d => sendCmd d cmdSnapshot [fld v.toNat 7 0, t.toNat] u) { s with snap := { s.snap with
        id := fld v.toNat 7 0, reason := fld v.toNat 11 10, pending := some t.toNat, done := false, latched := 0
        late := decide (t < (tbSafe s : Int)), waitFor := 16 + (ds.map (2 ^ ·)).sum } } →
      ((tbSafe s : Int) ≤ t → Answers (.snapshotRequest v) s u) ∧ (t < (tbSafe s : Int) → Answers (.snapshotRequest v) s (snapPorts u)))) ∧
  (∀ (t : Nat) (s : State), s.snap.pending = some t → 16 ≤ s.snap.waitFor → t ≤ tbSafe s →
    Answers (.snapshotLatch 0) s (snapSettle (snapPorts s))) ∧
  (∀ (d : Fin 4) (t id : Nat) (s : State), (die s d).snapArm = some (t, id) → (die s d).inReset = false → t ≤ dieTime s d →
    Answers (.snapshotLatch d.succ) s (snapSettle (snapDie d id false s))) ∧
  (∀ (d : Fin 4) (id instant : Nat) (c : CmdOut) (s u : State), Sent d cmdSnapshot [id, instant] c s → u = noted d cmdSnapshot [id, instant] c s →
    Answers (.snapshotCmd d id instant) s (snapSettle (ackCmd d c.seq
      (if dieTime u d ≤ instant then modDie d (fun x => { x with snapArm := some (instant, id) }) u else snapDie d id true u)))) ∧
  (∀ (d : Fin 4) (seq : Nat) (c : CmdOut) (s u : State), seq < 256 →
    (die s d).cmds.find? (fun c => c.seq == seq && executedSeq (die s d) c.seq) = some c →
    u = modDie d (fun x => { x with cmds := x.cmds.filter fun c => !(c.seq == seq), reached := (ackSignalled d seq s).time.edges })
      (ackSignalled d seq s) →
    (c.kind ≠ cmdFence → c.kind ≠ cmdDerived → Answers (.ackPacket d seq 0) s (dResetSettle d (snapSettle u))) ∧
    (c.kind = cmdFence → Answers (.ackPacket d seq 0) s (dResetSettle d (snapSettle (fenceAcked d u))))) ∧
  (∀ (d : Fin 4) (seq : Nat) (c : CmdOut) (s : State), (die s d).cmds.find? (fun c => c.seq == seq) = some c → c.sent + 4000 ≤ s.time.edges →
    Answers (.cmdResendTimeout d seq) s (forwardPacket 0 ⟨1, c.east, false, d.val + 1, 0, 8, 0, seq, 0, []⟩ none
      (modDie d (fun x => { x with cmds := x.cmds.map fun c => if c.seq = seq then { c with east := !c.east, sent := s.time.edges } else c }) s)))

/-- WDG_ARM, WDG_SERVICE, WDG_EXPIRY, WD_PULSE_END and TASK_CYCLE_END complete: A key from the companion's main core, while it runs, waits three edges in the write gate; from a seat it acts at once, and the gate's write of the companion's key acts the same way. The holder's arm of an enabled unit is kept; a service of an armed unit of no group with no change of mode waiting, between OPEN and CLOSE and not in the cycle of an expiry, restarts its window and clears its first warning; a write with upper bits is a bad key, one by a view that does not hold the unit is counted alone; an enabled unit whose count has reached CLOSE fails by expiry; a pulse that has run its width ends, and WD_PULSE falls where no other lasts; a cycle of a running group that has run its time is judged. (10_companion_cores.md, 12_watchdogs.md) -/
def Obligations.WatchdogsGuardTheirWindows : Prop :=
  (∀ (n : Fin 8) (up : BitVec 24) (s : State),
    (viewActs s .int = true →
      Answers (.wdgArm .int n up) s (gateHold (0x7000C + 0x40 * n) (w32 (0x5A + 256 * up.toNat)) s) ∧
      Answers (.wdgService .int n up) s (gateHold (0x7000C + 0x40 * n) (w32 (0xA5 + 256 * up.toNat)) s)) ∧
    (∀ w : Nat, regWrite .int (0x7000C + 0x40 * n) w s = wdgKey .int n w s) ∧
    (∀ v : View, v = .a ∨ v = .b → Answers (.wdgArm v n up) s (wdgKey v n (0x5A + 256 * up.toNat) s) ∧
      Answers (.wdgService v n up) s (wdgKey v n (0xA5 + 256 * up.toNat) s))) ∧
  (∀ (n : Fin 8) (v : View) (s : State), viewServes s v = true → wdgHolds v (wdgUnit s n) = true → (wdgUnit s n).enable = true → (wdgUnit s n).holder ≠ 0 →
    ((wdgUnit s n).armed = false → wdgKey v n 0x5A s = modWdg n (fun u => { u with armed := true }) s) ∧
    ((wdgUnit s n).armed = true → wdgJustExpired s (wdgUnit s n) = false → (wdgUnit s n).cycle = 0 → (wdgUnit s n).pendMode = none →
      (wdgUnit s n).opn ≤ wdgElapsed s n → s.time.edges / 4 < ((wdgUnit s n).since + (wdgUnit s n).close * 400) / 4 →
      wdgUnit (wdgKey v n 0xA5 s) n = { wdgUnit s n with armed := false, since := s.time.edges, openZero := false, warned := false } ∧
      ∀ k, k ≠ n.val → wdgUnit (wdgKey v n 0xA5 s) k = wdgUnit s k) ∧
    (∀ w : Nat, 256 ≤ w → wdgKey v n w s = wdgEnds (wdgFail n 2 (modWdg n (fun u => { u with armed := false }) s)))) ∧
  (∀ (n : Fin 8) (v : View) (w : Nat) (s : State), viewServes s v = true → wdgHolds v (wdgUnit s n) = false →
    wdgKey v n w s = { s with wdg := { s.wdg with foreign := up8 s.wdg.foreign } }) ∧
  (∀ (n : Fin 8) (s : State), (wdgUnit s n).enable = true → (wdgUnit s n).holder ≠ 0 → s.boot ≠ .off → (wdgUnit s n).close ≤ wdgElapsed s n →
    Answers (.wdgExpiry n) s (wdgEnds (wdgFail n 3 s))) ∧
  (∀ (n : Fin 8) (t : Nat) (s u : State), (wdgUnit s n).pulse = some t → t ≤ s.time.edges →
    u = modWdg n (fun u => { u with pulse := none }) s →
    (wdPulseLow u = false → Answers (.wdPulseEnd n) s (emit (.wdPulse false) u)) ∧
    (wdPulseLow u = true → Answers (.wdPulseEnd n) s u)) ∧
  (∀ (n : Fin 8) (s : State), (groupOf s n).running = true → (groupOf s n).start + (wdgUnit s n).cycle * 400 ≤ s.time.edges →
    Answers (.taskCycleEnd n) s (wdgEnds (taskCycle n s)))

/-- ETH_TRANSMIT_REQUEST, ETH_TRANSMIT_LAUNCH, ETH_LINK_UP, ETH_LINK_LOSS, ETH_LINK_TRY_TIMEOUT and PTP_MESSAGE_RECEIVE complete: A request with nothing before it and no launch time is sent; a single request whose launch instant has come, to within 5 ns, leaves; outside ATTIC a link comes up at the rate tried and after 100 ms without one the other rate is tried; a link is lost with the loss counted and the faster rate tried first; a PTP frame with a bad frame check sequence is counted only in FCS_ERRORS, any other message is counted and signalled, and with FEED 0 that is all. With FEED 1 the port's engine takes a message of its own domain, version and profile with whole fields, its timestamps and correction in network byte order: a Sync with its t1, or its Follow_Up, gives an offset sample; a Delay_Resp, with the port's stamp of the request, and a peer response, with its t3 or with its Follow_Up, give path samples; any other message none. (00_scope.md, 14_time.md) -/
def Obligations.EthernetPortsSendAndLink : Prop :=
  ∀ (p : Fin 2) (s : State),
    (∀ r : TxReq, (netPort s p).queue = [] → r.launchEn = false →
      ∃ u, u = modNet p (fun x => { x with queue := x.queue.drop 1 }) (modNet p (fun x => { x with queue := [(r, false)] }) s) ∧
        Answers (.ethTransmitRequest p r) s (netSend p (r, false) u)) ∧
    (∀ (e : TxReq × Bool), (netPort s p).queue = [e] → e.1.launchEn = true → -5 ≤ txAhead s p e.1 → txAhead s p e.1 ≤ 5 →
      Answers (.ethTransmitLaunch p) s (netSend p e (modNet p (fun x => { x with queue := x.queue.drop 1 }) s))) ∧
    (∀ ten : Bool, s.boot ≠ .off → (netPort s p).up = false → (netPort s p).tryTen = ten →
      Answers (.ethLinkUp p ten) s (modNet p (fun x => { x with up := true, tenGig := ten }) s)) ∧
    ((netPort s p).up = true → Answers (.ethLinkLoss p) s (modNet p (fun x => { x with
      up := false, losses := up8 x.losses, tryTen := true, trySince := s.time.edges }) s)) ∧
    (s.boot ≠ .off → (netPort s p).up = false → (netPort s p).trySince + 40000000 ≤ s.time.edges →
      Answers (.ethLinkTryTimeout p) s (modNet p (fun x => { x with tryTen := !x.tryTen, trySince := s.time.edges }) s)) ∧
    Answers (.ptpMessageReceive p .badFcs) s (modNet p (fun x => { x with fcs := up8 x.fcs }) s) ∧
    (∀ (u v : State) (t : Int), u = icuEvent (72 + 2 * p) (modNet p (fun x => { x with rx := wrapAt 16 (x.rx + 1) }) s) → t = rxStamp u p →
      v = drawn u →
      ((baseOf u (p + 1)).feed = false → ∀ m : PtpMsg, m ≠ .badFcs → Answers (.ptpMessageReceive p m) s u) ∧
      ((baseOf u (p + 1)).feed = true → Answers (.ptpMessageReceive p .other) s v ∧
        ∀ h : PtpHead,
        (∀ b : List Byte, ptpTakes p h [b] = true →
          Answers (.ptpMessageReceive p (.sync h (some b))) s (syncSample p (ptpTime b) t (ptpCorr h) v) ∧
          (∀ t2 c2 : Int, (netPort v p).syncRx = some (t2, c2) →
            Answers (.ptpMessageReceive p (.followUp h b)) s (syncSample p (ptpTime b) t2 (c2 + ptpCorr h) v)) ∧
          (∀ (id : Nat) (d t3 : Int), (netPort v p).syncDiff = some d → ownStamp (netPort v p) id = some t3 →
            Answers (.ptpMessageReceive p (.delayResp h id b)) s (delaySample p d t3 (ptpTime b) (ptpCorr h) v)) ∧
          (∀ (id : Nat) (t1 : Int), ownStamp (netPort v p) id = some t1 →
            Answers (.ptpMessageReceive p (.pdelayResp h id b none)) s
              (modNet p (fun n => { n with pdelayRx := some (t1, ptpTime b, t, ptpCorr h) }) v)) ∧
          (∀ t1 t2 t4 c2 : Int, (netPort v p).pdelayRx = some (t1, t2, t4, c2) →
            Answers (.ptpMessageReceive p (.pdelayFollowUp h b)) s (pdelaySample p t1 t2 (ptpTime b) t4 (c2 + ptpCorr h) v))) ∧
        (ptpTakes p h [] = true → Answers (.ptpMessageReceive p (.sync h none)) s
          (modNet p (fun n => { n with syncRx := some (t, ptpCorr h) }) v)) ∧
        (∀ (id : Nat) (b b3 : List Byte) (t1 : Int), ptpTakes p h [b, b3] = true → ownStamp (netPort v p) id = some t1 →
          Answers (.ptpMessageReceive p (.pdelayResp h id b (some b3))) s (pdelaySample p t1 (ptpTime b) (ptpTime b3) t (ptpCorr h) v)) ∧
        (ptpTakes p h [] = false → Answers (.ptpMessageReceive p (.sync h none)) s v)))

/-- CAPTURE_BLOCK, FS_LOST, FS_REGULAR, EVT_EDGE, PPS_IN_EDGE, PPS_OUT_RISE and PPS_OUT_FALL complete: CAPTURE_BLOCK of a well-shaped block on the sample edges of an enabled running port is numbered; with 32 blocks waiting it is dropped and counted; else the blocks held for other times are dropped and it is kept until every port of its stream has one, and the last of them stamps the joined block, counts it on each port and sends it to the stream under the lowest port's sequence number (log 94); FS_LOST on a slave port stops it, counts and shows it; FS_REGULAR starts it again with a gap in its sequence; a selected EVT_EDGE is stamped, kept, raises its source and goes to the MESSAGE streams bound to it, an edge not selected changes nothing; a selected PPS_IN_EDGE is kept as NEW, raises source 112 and, where TB_APP follows PPS_IN, is an offset sample; PPS_OUT_RISE comes at a whole second of its base and PPS_OUT_FALL after its width. (06_streams_and_frames.md) -/
def Obligations.CaptureKeepsItsBlocks : Prop :=
  ∀ s : State,
    (∀ (p : Fin 16) (back : Nat) (l : List (List Int)) (n i : Nat) (r : StreamRec) (u v : State), portStream s p = some (n, i) →
      streamRec s n i = some r → (capPort s p).enable = true → (capPort s p).running = true →
      blockShape r (capPort s p) l = true → edgesFit s (capPort s p) r.blockSamples back = true →
      u = modCap p (fun x => { x with nextSeq := (x.nextSeq + 1) % 65536 }) s →
      v = modCap p (fun y => { y with held := some ⟨(capPort s p).nextSeq, (tbSafe s : Int) - back, l⟩ }) ((maskPorts r.source).foldl
        (fun (s' : State) q => modCap q (fun y => { y with held := y.held.filter fun h => sameInstant (capPort s p) h.at_ ((tbSafe s : Int) - back) }) s') u) →
      (32 ≤ capWaiting u n i → Answers (.captureBlock p ⟨back, l⟩) s (capLevel p ((maskPorts r.source).foldl (fun (s : State) q =>
        modCap q (fun x => { x with held := none }) s) (modCap p (fun x => { x with dropped := up8 x.dropped, overflow := true }) u)))) ∧
      (capWaiting u n i < 32 → ((maskPorts r.source).filterMap fun q => (capPort v q).held).length < (maskPorts r.source).length →
        Answers (.captureBlock p ⟨back, l⟩) s v) ∧
      (capWaiting u n i < 32 → ((maskPorts r.source).filterMap fun q => (capPort v q).held).length = (maskPorts r.source).length →
        ∃ stamp, Answers (.captureBlock p ⟨back, l⟩) s (feedBlock n i
          (((((maskPorts r.source).filterMap fun q => (capPort v q).held).head?.map (·.seq)).getD 0)) stamp
          (joinRows (((maskPorts r.source).filterMap fun q => (capPort v q).held).map (·.rows)))
          ((maskPorts r.source).foldl (fun (s : State) q => modCap q (fun x => { x with held := none, blocks := wrapAt 16 (x.blocks + 1) }) s) (drawn v))))) ∧
    (∀ p : Fin 16, (capPort s p).enable = true → (capPort s p).master = false →
      Answers (.fsLost p) s (capLevel p (modCap p (fun x => { x with
        fsLost := true, running := false, faults := up8 x.faults, held := none }) s)) ∧
      ((capPort s p).running = false → ∃ t gap, Answers (.fsRegular p) s t ∧ 1 ≤ gap ∧ gap ≤ 32767 ∧
        capPort t p = { capPort s p with running := true, nextSeq := ((capPort s p).nextSeq + gap) % 65536 })) ∧
    (∀ (i : Fin 8) (rising : Bool), bitOf (tblGet 0 s.cap.edgeSel i) (if rising then 0 else 1) = false → Answers (.evtEdge i rising) s s) ∧
    (∀ (i : Fin 8) (rising : Bool), bitOf (tblGet 0 s.cap.edgeSel i) (if rising then 0 else 1) = true → (evtIn s i).edges.length < 16 →
      ∃ stamp u, u = icuLevel (104 + i) true (modEvt i (fun e => { e with edges := e.edges ++ [(stamp, rising)] }) (drawn s)) ∧
        Answers (.evtEdge i rising) s ((evtStreams u i).foldl (fun (s : State) e => evtAppend e.1 e.2 stamp rising s) u)) ∧
    (∃ stamp u, u = icuEvent 112 { drawn s with cap := { s.cap with inStamp := stamp, inNew := true } } ∧
      (s.time.app.source ≠ 2 → Answers (.ppsInEdge (!s.cap.inEdge)) s u) ∧
      (s.time.app.source = 2 → ∃ at_ : Int, stamp = unsgn 34 at_ ∧
        Answers (.ppsInEdge (!s.cap.inEdge)) s (onOffset 3 (ppsOffset (unsgn 64 at_)) u))) ∧
    (s.cap.outEn = true → s.cap.ppsOut = false →
      longOf s (ppsBase s) % 1000000000 ≤ 4 ∨ 999999996 ≤ longOf s (ppsBase s) % 1000000000 →
      Answers .ppsOutRise s { s with cap := { s.cap with ppsOut := true, outFell := s.time.edges }, out := .ppsOut true :: s.out }) ∧
    (s.cap.ppsOut = true → s.cap.outFell + ppsWidth s * 400000 ≤ s.time.edges →
      Answers .ppsOutFall s { s with cap := { s.cap with ppsOut := false }, out := .ppsOut false :: s.out })

/-- SAFE_REQ_N, SAFE_REQ_N_RELEASE, SEAL_REREAD, OKAY_PERIOD_BOUNDARY, TELEGRAM_BUILD, TELEGRAM_COPY_RECEIVE, TELEGRAM_WAIT_EXPIRY and TELEGRAM_RX_TIMEOUT complete: SAFE_REQ_n low for 100 ns latches SAFE with cause 7 and its source follows the pin, low for less than 20 ns it does nothing; a re-read of good samples that show the sealed levels moves NOW alone; a period of OKAY with no hold begins with OKAY_A high, after the fall of OKAY_B where that stood high; a due telegram that is built in time by cores that run is queued on every port that has an address, with ALIVE counted up where one has, and one that is not is counted as missed; while the device receives telegrams a copy on a port with an address is counted and signalled, a foreign one counted apart, the first good or bad one opens a wait, and a wait that has run out is judged; three cycles without a telegram are a timeout. (15_safety_io.md) -/
def Obligations.SafetyPinsAndTelegrams : Prop :=
  ∀ s : State,
    (∀ n : Nat, 100 ≤ n → s.boot ≠ .off →
      Answers (.safeReqN n) s (latchSafe 7 0 0 (icuLevel 121 true { s with sio := { s.sio with reqLow := true } }))) ∧
    (∀ n : Nat, n < 20 → Answers (.safeReqN n) s s) ∧
    Answers .safeReqNRelease s (icuLevel 121 false { s with sio := { s.sio with reqLow := false } }) ∧
    (∀ (x : Balls), s.boot ≠ .off → 0 < s.time.edges → s.time.edges % 4000000 = 0 → (∀ i, i < 8 → pairFault s.sio.sealP [x, x, x, x] i = 0) →
      Answers (.sealReread [x, x, x, x]) s { s with sio := { s.sio with nowP := x.p, nowN := x.n, lastP := x.p, lastN := x.n } }) ∧
    (holds s = 0 → s.time.edges % okayPeriod s = 0 →
      (s.sio.okayPin = 0 →
        Answers .okayPeriodBoundary s { s with sio := { s.sio with toggling := true, okayPin := 1 }, out := .okay true false :: s.out }) ∧
      (s.sio.okayPin = 2 → Answers .okayPeriodBoundary s
        { s with sio := { s.sio with toggling := true, okayPin := 1 }, out := .okay true false :: .okay false false :: s.out })) ∧
    (s.sio.tgEnable = true → 2 ≤ deviceState s → s.sio.txCycle ≠ 0 → (s.time.edges + 80000) % (s.sio.txCycle * 40000) = 0 →
      (s.pair.halted = false → (netPort s 0).addr ≠ 0 ∨ (netPort s 1).addr ≠ 0 → ∃ u, u = telegramOn 1 (telegramReq s) (telegramOn 0 (telegramReq s) s) ∧
        Answers (.telegramBuild true) s { u with sio := { u.sio with alive := wrapAt 16 (u.sio.alive + 1) } }) ∧
      Answers (.telegramBuild false) s { s with sio := { s.sio with missed := up8 s.sio.missed } }) ∧
    (∀ (p : Fin 2) (b : List Byte) (u : State), u = icuEvent (72 + 2 * p) (modNet p (fun x => { x with rx := wrapAt 16 (x.rx + 1) }) s) →
      u.sio.rxCycle ≠ 0 → (netPort u p).addr ≠ 0 →
      (copyValid b = true → copyForeign u b = true →
        Answers (.telegramCopyReceive p b) s { u with sio := { u.sio with foreign := up8 u.sio.foreign } }) ∧
      (u.sio.wait = none →
        (copyValid b = true → copyForeign u b = false →
          Answers (.telegramCopyReceive p b) s { u with sio := { u.sio with wait := some ⟨u.time.edges, [b], 0⟩ } }) ∧
        (copyValid b = false → Answers (.telegramCopyReceive p b) s { u with sio := { u.sio with wait := some ⟨u.time.edges, [], 1⟩ } }))) ∧
    (∀ w, s.sio.wait = some w → w.opened + s.sio.rxCycle * 20000 ≤ s.time.edges → Answers .telegramWaitExpiry s (pairOne w.copies s)) ∧
    (s.sio.rxCycle ≠ 0 → s.sio.timeout = false → s.sio.lastUsed + 3 * s.sio.rxCycle * 40000 ≤ s.time.edges →
      Answers .telegramRxTimeout s { s with sio := { s.sio with timeout := true, timeouts := up8 s.sio.timeouts } })

/-- LINK_BLOCK_RECEIVE, LINK_RETRY_TIMEOUT, LINK_DOWN, RING_STATE, TIME_BLOCK_SEND and TIME_BLOCK_RECEIVE complete: Over an UP link: a block with a wrong BCRC is counted and dropped, one with an unexpected BSEQ dropped; an expected one takes its acknowledgement, its credits and its payload, and is answered by the next packet's block or, with nothing to send, by an idle block; unacknowledged blocks are sent again 600 ns after they were sent, and a block sent eight times takes the link down; a link with a cause to be down goes down with its cause logged; a released die takes link states that it has not seen; a time block goes out with the stamp of its sending, and one that comes in is stamped, its delay kept and, on the side that the die takes its time from, its offset applied; one without a valid stamp is a counted error. (05_ring_and_cellar.md) -/
def Obligations.RingCarriesAndRetries : Prop :=
  ∀ (node : Fin 5) (east : Bool) (s : State),
    (portUp s node east = true →
      (∀ b : List Byte, b.length = 80 → rd b 76 4 ≠ (crc32c (b.take 76)).toNat → Answers (.linkBlockReceive node east b) s
        { s with ring := { s.ring with bcrc := tblMod 0 s.ring.bcrc (linkOf node east) (fun n => wrapAt 14 (n + 1)) } }) ∧
      (∀ b : List Byte, b.length = 80 → rd b 76 4 = (crc32c (b.take 76)).toNat → slotFld b 75 68 ≠ (portOf s node east).expect →
        Answers (.linkBlockReceive node east b) s (modPort node east (fun p => { p with lastRecv := s.time.edges }) s)) ∧
      (∀ (b : List Byte) (u : State), b.length = 80 → rd b 76 4 = (crc32c (b.take 76)).toNat → slotFld b 75 68 = (portOf s node east).expect →
        u = blockPayload node east b (modPort node east (fun p => { p with
            expect := (p.expect + 1) % 256, lastRecv := s.time.edges, sent := unacked (slotFld b 83 76) p.sent
            credits := tblMod 32 p.credits (slotFld b 85 84) (fun n => min 32 (n + slotFld b 90 86)) }) s) →
        ((choosePacket (portOf u node east)).isSome = true → Answers (.linkBlockReceive node east b) s (portSend node east u)) ∧
        (choosePacket (portOf u node east) = none →
          Answers (.linkBlockReceive node east b) s (creditSettle node east (sendBlock node east 3 [] u)))) ∧
      (∀ (b : SentBlock) (r : List SentBlock), (portOf s node east).sent = b :: r → b.at_ + 240 ≤ s.time.edges →
        (sentOut (portOf s node east) = false → ∃ t, Answers (.linkRetryTimeout node east) s t ∧
          (portOf t node east).sent.map (fun e => (e.bseq, e.sends, e.at_)) =
            (portOf s node east).sent.map fun e => (e.bseq, e.sends + 1, s.time.edges)) ∧
        (sentOut (portOf s node east) = true → Answers (.linkRetryTimeout node east) s
          (linkGoesDown (linkOf node east) 1 (logError 4 (linkOf node east) 255 1 0 s)))) ∧
      (∃ u, u = modPort node east (fun p => { p with txStamp := nodeTime s node }) s ∧
        Answers (.timeBlockSend node east) s (sendBlock node east 0 (leBytes 8 (unsgn 64 (nodeTime s node)) ++
          leBytes 8 (unsgn 64 (portOf s node east).rxTime) ++ leBytes 8 (unsgn 64 (portOf s node east).rxStamp)) u)) ∧
      (∀ echo : Option (Int × Int), Answers (.timeBlockReceive node east none echo) s (dieError node s)) ∧
      (∀ (t : Int) (u : State), u = modPort node east (fun p => { p with rxStamp := nodeTime s node, rxTime := t }) s →
        Answers (.timeBlockReceive node east (some t) none) s u ∧
        ∀ (a b : Int) (v : State), v = modPort node east (fun p => { p with delay := ((b - a) + (nodeTime s node - t)) / 2 }) u →
          (node.val = 0 ∨ (die s (node - 1)).inReset = true ∨ timeSide s node ≠ east →
            Answers (.timeBlockReceive node east (some t) (some (a, b))) s v) ∧
          (node.val ≠ 0 → (die s (node - 1)).inReset = false → timeSide s node = east →
            Answers (.timeBlockReceive node east (some t) (some (a, b))) s
              (timeOffset (node - 1) (neighbour node east) (((a - b) + (nodeTime s node - t)) / 2) v)))) ∧
    (∀ (k : Fin 5) (cause : Fin 4), linkIn s.ring.up k = true → downCause s k cause = true →
      Answers (.linkDown k cause) s (linkGoesDown k cause (logError 4 k 255 cause 0 s))) ∧
    (∀ (d : Fin 4) (up : BitVec 5) (q : Nat), (die s d).inReset = false → q % 256 ∉ (die s d).rsSeen →
      Answers (.ringState d.succ up q) s (modDie d (fun x => { x with linkView := up.toNat, rsSeen := (q % 256 :: x.rsSeen).take 8 }) s))

/-- HELLO, DISCOVER, DISCOVERY_TIMEOUT, DISCOVER_RETURN_TIMEOUT, DIE_ANNOUNCE_TIMEOUT, DIE_UNREACHABLE and ALARM_HOLD_EXPIRY complete: A released die with its microcode, to which a way is unbroken, that announces itself in time takes its self-test and, when all have, discovery begins, or its D reset ends; a DISCOVER token that reaches a released die gives it its hop index if it has none and goes on over an UP link with one hop more; its return to the companion ends discovery; without it 1.5 s after the release the dies that are silent are ABSENT and the token goes out; a token that does not return in 1 ms sends the other one, and the other one's loss ends discovery; a die not announced 1.5 s after its release is ABSENT; a present die that could not be reached for 1 ms becomes ABSENT with cause 2, and one whose alarm was not read for 1 ms with cause 4. (05_ring_and_cellar.md, 16_startup_and_update.md) -/
def Obligations.DiesAnnounceAndAreFound : Prop :=
  (∀ (d : Fin 4) (st : SelfTest) (s u : State), (die s d).inReset = false → (die s d).hello = false → (die s d).microcode = true →
    heardBy s d = true → announceLate s d = false → u = dieHello d (selfTestOf st) (sendHello d s) →
    ((die s d).dReset = none → Answers (.hello d st) s (discoverWhenAll u)) ∧
    ((die s d).dReset.isSome = true → (die u d).st ≠ 5 → Answers (.hello d st) s (dResetEnds d u))) ∧
  (∀ (east : Bool) (d : Fin 4) (hops : Nat) (s u v : State), (east, d.val + 1, hops) ∈ s.ring.tokens → (die s d).inReset = false →
    u = { s with ring := { s.ring with tokens := s.ring.tokens.filter fun t => !(t == (east, d.val + 1, hops)) } } →
    v = modDie d (fun x => { x with hop := x.hop.orElse fun _ => some (east, hops + 1) }) u →
    (portUp s d.succ east = true → Answers (.discover d.succ east hops) s
      { v with ring := { v.ring with tokens := (east, neighbour d.succ east, hops + 1) :: v.ring.tokens } }) ∧
    (portUp s d.succ east = false → Answers (.discover d.succ east hops) s v)) ∧
  (∀ (east : Bool) (hops : Nat) (s : State), (east, 0, hops) ∈ s.ring.tokens → Answers (.discover 0 east hops) s (discoveryEnds east
    { s with ring := { s.ring with tokens := s.ring.tokens.filter fun t => !(t == (east, 0, hops)) } })) ∧
  (∀ (x : Nat) (s u : State), s.releaseX = some x → discovering s = true → s.ring.east = none → x + 600000000 ≤ s.time.edges →
    u = eachDie (fun d s => if (die s d).hello || (die s d).st == 6 then s else trialDieLost d (dieAbsent d 1 s)) s →
    u.ring.east = none → Answers .discoveryTimeout s (sendDiscover true u)) ∧
  (∀ (e : Nat) (s : State), s.ring.east = some e → s.ring.west = none → e + 400000 ≤ s.time.edges →
    Answers .discoverReturnTimeout s (sendDiscover false s)) ∧
  (∀ (e : Option Nat) (w : Nat) (s : State), s.ring.east = e → s.ring.west = some w → w + 400000 ≤ s.time.edges →
    Answers .discoverReturnTimeout s (discoveryEnds false s)) ∧
  (∀ (d : Fin 4) (s : State), (die s d).inReset = false → (die s d).st ≠ 6 →
    ((die s d).hello = false → announceLate s d = true → Answers (.dieAnnounceTimeout d) s (announceFails d s)) ∧
    ((die s d).st ≠ 7 → unreached s d = true → Answers (.dieUnreachable d) s (dieAbsent d 2 s)) ∧
    (alarmCode (die s d) = true → alarmHeard (die s d) = true → (die s d).almAt + 400000 ≤ s.time.edges →
      ((die s d).seq.any fun q => q.read) = false → Answers (.alarmHoldExpiry d) s (dieAbsent d 4 s)))

/-- LAUNCH_CMD, FENCE, READ_CAUSE, DESCRIPTOR_WRITE, SCAN_STATE_RESET, DERIVED_COMMIT, CODE_PACKET, ALARM_ASSERT and ALARM_CLEAR complete: Each command packet that was sent to a released die has its effect at its first arrival and is acknowledged; one that the die has executed before is acknowledged again without effect; microcode with a valid image, once a reset, trains the die's links and begins its self-test, a program is held; an alarm names its error: of a context it marks the context, of a core or a cluster it opens the fence sequence, of no unit it strikes one frame of the die that a free value picks (log 72); one with its cause read and nothing to fence clears. (04_compute_fabric.md, 05_ring_and_cellar.md) -/
def Obligations.DiesTakeCommands : Prop :=
  ∀ (d : Fin 4) (c : CmdOut) (s : State),
    (∀ (f : FrameId) (at_ : Nat), Sent d cmdLaunch (launchArgs f at_) c s → Answers (.launchCmd d f at_) s (ackCmd d c.seq
      (modDie d (fun x => { x with launches := (x.launches.filter fun e => !(e.1 == f)) ++ [(f, at_)] }) (noted d cmdLaunch (launchArgs f at_) c s)))) ∧
    (∀ q : FenceSeq, (die s d).seq = some q → q.read = true → wantsFence q = true → Sent d cmdFence [] c s →
      Answers (.fence d) s (ackCmd d c.seq (fenceSeq d q (noted d cmdFence [] c s)))) ∧
    (∀ e : Hdr × Nat × Nat × Bool, (die s d).seq = none → (die s d).fenceCmds.find? (fun e => !e.2.2.2) = some e →
      Sent d cmdFence [e.2.1, e.2.2.1] c s →
      Answers (.fence d) s (ackCmd d c.seq (fenceCommand d e (noted d cmdFence [e.2.1, e.2.2.1] c s)))) ∧
    (∀ q : FenceSeq, (die s d).inReset = false → (die s d).seq = some q → q.read = false → firmwareRuns s = true →
      ∃ u, u = cmdArrives d cmdCause [] (fun s => s) (sendCmd d cmdCause [] (modDie d (fun x => { x with seq := some { q with read := true } }) s)) ∧
        (wantsFence q = true → Answers (.readCause d) s (sendCmd d cmdFence [] u)) ∧
        (wantsFence q = false → Answers (.readCause d) s u)) ∧
    (∀ (slot : Nat) (b : List Byte), b.length = 64 → slot < 16384 → Sent d cmdDescriptor (descArgs slot b) c s →
      ∃ u, u = noted d cmdDescriptor (descArgs slot b) c s ∧ Answers (.descriptorWrite d slot b) s (ackCmd d c.seq
        (writeCtx d slot (fun _ => readDesc b ((ctxStream u (rd b 1 1) (16384 * d + slot)).getD 0)) u))) ∧
    (∀ slot : Nat, slot < 16384 → Sent d cmdScanReset [slot] c s → ∃ u, u = noted d cmdScanReset [slot] c s ∧
      Answers (.scanStateReset d slot) s (ackCmd d c.seq (modCtx d slot (fun x => { x with scanOn := false })
        (cellarWrite d (scanAt (ctx u d slot) false) (zeroBytes (ctx u d slot).stateLength) u)))) ∧
    (∀ (slot rows : Nat) (gap : Bool), slot < 16384 → (ctx s d slot).kind = 3 → Sent d cmdDerived [slot, rows, bit gap] c s →
      Answers (.derivedCommit d slot rows gap) s (ackCmd d c.seq (commitRows d slot rows gap (noted d cmdDerived [slot, rows, bit gap] c s)))) ∧
    (∀ e : Nat × Nat × List Nat, (die s d).inReset = false → (die s d).seq = none → (die s d).fenceCmds = [] →
      (die s d).cmds.find? (fun x => x.kind == cmdFence && x.args == [] && !executedSeq (die s d) x.seq) = none →
      (die s d).executed.find? (fun x => x.2.1 == cmdFence && x.2.2 == []) = some e → Answers (.fence d) s (ackCmd d e.1 s)) ∧
    (∀ code : List Byte, (die s d).inReset = false →
      ((kindOf s 2).bootFail = false → (die s d).hello = false → (die s d).microcode = false →
        Answers (.codePacket d .microcode code) s (selfTestBegins d (sendCode d code (linksTrain d s)))) ∧
      (∀ p r i : Nat, Answers (.codePacket d (.program p r i) code) s (modDie d (fun x => { x with programs := withElem (p, r, i) x.programs }) s))) ∧
    ((die s d).inReset = false →
      (∃ by_, (by_ = none ∨ ∃ x ∈ framesOn s d (List.range 64), by_ = some x) ∧ Answers (.alarmAssert d .noFault) s (hwError d .noFault by_ (drawn s))) ∧
      (∀ slot, Answers (.alarmAssert d (.context slot)) s (contextFault d slot s)) ∧
      ∀ c k, (coreOf s d (32 * c + k)).frame = none → Answers (.alarmAssert d (.residue c k)) s (hwError d (.residue c k) none s)) ∧
    ((die s d).seq = none → alarmCode (die s d) = true → Answers (.alarmClear d) s (alarmClear d s)) ∧
    (∀ q : FenceSeq, (die s d).seq = some q → q.read = true → wantsFence q = false →
      Answers (.alarmClear d) s (alarmClear d (modDie d (fun x => { x with seq := none }) s)))

/-- A WRITE packet changes the bytes it carries and no others; WRITE_PACKET and CELLAR_SCRUB complete: A WRITE into an open window of a released die stores its bytes from 64 times its address on, every other byte of that cellar and every other die's memories reading as before, and clears the poison of the words written; where it comes from the companion, what it completes of a feed is then taken into its context, and a command that waited for these bytes may complete; outside every window it stores nothing in any cellar and raises the alarm; a clean scrub of a released die counts one block and stores nothing. (05_ring_and_cellar.md) -/
def Obligations.CellarsAreWrittenThroughWindows : Prop :=
  ∀ (d : Fin 4) (src addr : Nat) (data : List Byte) (s : State), (die s d).inReset = false →
    (((die s d).windows.any fun w => w.src == src && decide (w.lo ≤ 64 * addr) && decide (64 * addr + data.length ≤ w.hi)) = true →
      ∃ t, Answers (.writePacket d src addr data) s
        (if src = 0 then awaitArrive d (64 * addr + data.length) (feedArrives d (64 * addr + data.length) t) else t) ∧
        (∀ i, i < data.length → memGet (die t d).cellar (64 * addr + i) = data.getD i 0) ∧
        (∀ a, a < 64 * addr ∨ 64 * addr + data.length ≤ a → memGet (die t d).cellar a = memGet (die s d).cellar a) ∧
        (∀ w, w ∈ (die t d).poison ↔ w ∈ (die s d).poison ∧ (8 * w + 8 ≤ 64 * addr ∨ 64 * addr + data.length ≤ 8 * w)) ∧
        ∀ k, k ≠ d.val → die t k = die s k) ∧
    (((die s d).windows.any fun w => w.src == src && decide (w.lo ≤ 64 * addr) && decide (64 * addr + data.length ≤ w.hi)) = false →
      Answers (.writePacket d src addr data) s (hwError d (.pegNone none) none (dieCount d 0x1018 1 s))) ∧
    (∀ block : Nat, Answers (.cellarScrub d block [] true) s (modDie d (fun x => { x with scrubDone := true }) (dieCount d 0x101C 1 s)))

/-- LAUNCH_CONVERT, FRAME_LAUNCH, FRAME_START, DEADLINE_EXPIRY, WAIT_DEADLINE_EXPIRY, TUNING_SLOT_OPEN and REGION_RELOAD_DONE complete: A plan on a disciplined base whose next launch lies between 100 and 150 µs ahead is issued; a due launch of a plan advances its windows and launches its frame; the first startable copy of a die starts; a frame running at its deadline stops, a waiting one is refused with cause 2; a due tuning slot opens and the next is noted; the end of a reload stages the region in its new clusters and lets it run again. (06_streams_and_frames.md, 14_time.md) -/
def Obligations.FramesAreLaunchedAndStarted : Prop :=
  (∀ (n : Fin 16) (p : Nat) (r : PlanRec) (t : Nat) (L : Int) (s : State), planRec s n p = some r → r.base ≠ 0 → planRuns s n p = true →
    t = launchTime s n p (planRt s n p).nextSeq r → L = toSafe s r.base t → 100000 ≤ L - (tbSafe s : Int) → L - (tbSafe s : Int) ≤ 150000 →
    Answers (.launchConvert n p) s (issueLaunch n p (planRt s n p).nextSeq t L.toNat r
      (modPlan n p (fun x => { x with nextSeq := (planRt s n p).nextSeq + 1 }) { s with free := s.free + 1 }))) ∧
  (∀ (n : Fin 16) (p k sched L : Nat) (r : PlanRec) (s u : State), dueLaunch s n p = some (k, sched, L) → planRec s n p = some r →
    u = launchFired n p k s → ∃ w, w = windowAdvance n p k r.base sched L (mainCopy u n r.region).die u ∧
      Answers (.frameLaunch n p) s (launchFrame (mkFrame w.1 n p k sched L w.2.1 w.2.2) w.1)) ∧
  (∀ (d : Fin 4) (id : FrameId) (tw : Bool) (s : State), pickStart s d (startOrder s d) [] = some (id, tw) →
    Answers (.frameStart d) s (startCopy id tw s)) ∧
  (∀ (f : FrameId) (x : Frame) (s : State), frameOf s f = some x →
    (x.twin = none → x.main.phase = .running → x.deadline ≤ dieTime s x.main.die → Answers (.deadlineExpiry f) s (stopCopy f false .deadline s)) ∧
    (x.phase = .waiting → inQueue x = true → f.tuning = false → x.deadline ≤ tbSafe s → Answers (.waitDeadlineExpiry f) s (refuse x 2 s))) ∧
  (∀ (n : Fin 16) (g : Nat) (t : TuningRec) (s : State), ((regionRec s n g).bind (·.tuning)) = some t → (regionRt s n g).nextSlot ≠ 0 →
    (regionRt s n g).nextSlot ≤ (if diePresent s (mainCopy s n g).die then dieTime s (mainCopy s n g).die else tbSafe s) →
    Answers (.tuningSlotOpen n g) s (openSlot n g (regionRt s n g).nextSlot false false
      (modRegion n g (fun x => { x with nextSlot := (regionRt s n g).nextSlot + max 1 t.interval }) s))) ∧
  (∀ (n : Fin 16) (g : Nat) (s : State), (regionRt s n g).pReload = true → Answers (.regionReloadDone n g true) s
    (stageOn n g 3 (regionRt s n g).pClusters (modRegion n g (fun x => { x with pReload := false }) s))) ∧
  (∀ (n : Fin 16) (g : Nat) (s u : State), (regionRt s n g).reload.isSome = true → ((regionRec s n g).bind (·.tuning)) = none →
    u = stageOn n g (regionRt s n g).chosen (regionRt s n g).clusters (modRegion n g (fun x => { x with reload := none }) s) →
    Answers (.regionReloadDone n g false) s { u with frames := u.frames.map fun f =>
      if f.id.part = n.val ∧ f.id.region = g ∧ f.id.tuning ∧ f.phase = .waiting then { f with main := mainCopy u n g } else f })

/-- ENGINE_BATCH, BATCH_BOUNDARY, SLIVER_DONE, DMA_TRANSFER and REGION_END complete: A batch of at most 4,000 cycles on a core that can go on runs its jobs, counts what was corrected and puts the core inside a batch, without an error where the checker sees no upset and none is reported, and with a residue error of that core where it sees one; at its boundary the outstanding transfers are done, the core is outside and its copy settles; with no sliver of the step to be taken again, a finished sliver of a core outside a batch brings it the next one of the step where it may take one, and leaves it without one when all are handed out; an allowed DMA outside a batch moves its data, inside one it is outstanding until the boundary, a forbidden one is a peg fault of the core, one of length 0 or not of whole 64-byte units changes nothing; a running copy whose work is done, with outputs of the shapes its region declares, with every signature right and every peg at its declared value, ends, one with a wrong signature is an error of the core that ran the sliver, one with a peg off its value a peg fault of no core. (04_compute_fabric.md, 06_streams_and_frames.md) -/
def Obligations.CoresWorkThroughTheirSlivers : Prop :=
  ∀ (d : Fin 4) (core : Nat) (s : State),
    (∀ (f : Frame) (tw : Bool) (c : Copy), coreActs s d core = some (f, tw, c) →
      (∀ (cycles : Nat) (work : List Job) (obs : BatchObs) (q : State × Bool) (t : State), c.phase = .running → (coreOf s d core).inBatch = false → cycles ≤ 4000 →
        q = runJobs d core f tw c obs.upsets 0 work
          (modCore d core (fun x => { x with inBatch := true, sig := obs.flow.foldl Config.sigStep x.sig }) s) →
        t = modDie d (fun x => { x with corrected := wrapAt 16 (x.corrected + obs.cellarCorr) }) (clusterCount d (core / 32) 0x14 obs.storeCorr
          (coreCount d core 0x8 obs.shelfCorr (modCounts f.id tw (fun n => { n with
            corrSram := n.corrSram + obs.shelfCorr + obs.storeCorr, corrCellar := n.corrCellar + obs.cellarCorr }) q.1))) →
        (q.2 = false → Answers (.engineBatch d core cycles work obs none) s t) ∧
        (q.2 = true → Answers (.engineBatch d core cycles work obs none) s (hwError d (.residue (core / 32) (core % 32)) (some (f.id, tw)) t))) ∧
      (∀ w : Work, workOf s d (core / 32) = some w → w.again = [] → (coreOf s d core).inBatch = false → c.phase = .running → w.frame = f.id →
        (w.next < w.total → core % 32 ∈ w.live →
          ∃ t, Answers (.sliverDone d core) s t ∧ (coreOf t d core).sliver = w.next + 1 ∧
            (coreOf t d core).frame = some f.id ∧ (workOf t d (core / 32)).map (·.next) = some (w.next + 1)) ∧
        (w.next = w.total → 2 ≤ w.out →
          ∃ t, Answers (.sliverDone d core) s t ∧ (coreOf t d core).sliver = 0 ∧ (coreOf t d core).frame = none ∧
            (workOf t d (core / 32)).map (·.out) = some (w.out - 1))) ∧
      (∀ (t : Dma) (found : EccOutcome), t.len ≠ 0 → t.len % 64 = 0 →
        (dmaAllowed s d f.id.part t = true →
          ((coreOf s d core).inBatch = false → Answers (.dmaTransfer d core t found) s
            (coreCount d core 0xC (t.len / 64) (dmaFound d core f tw t found (dmaMove d core t s)))) ∧
          ((coreOf s d core).inBatch = true → (coreOf s d core).dma.length < 8 → Answers (.dmaTransfer d core t found) s
            (modCore d core (fun x => { x with dma := x.dma ++ [(t, found)] }) s))) ∧
        (dmaAllowed s d f.id.part t = false → Answers (.dmaTransfer d core t found) s (hwError d (.peg (core / 32) (core % 32)) (some (f.id, tw)) s))) ∧
      (∀ (t : Dma) (found : EccOutcome), t.len = 0 ∨ t.len % 64 ≠ 0 → Answers (.dmaTransfer d core t found) s s)) ∧
    ((coreOf s d core).inBatch = true →
      (∀ (f g : Frame) (tw tx : Bool) (c b : Copy) (u : State), coreCopy s d core = some (f, tw, c) →
        u = modCore d core (fun c => { c with inBatch := false }) (dmaDrain d core f tw s) → coreCopy u d core = some (g, tx, b) →
        Answers (.batchBoundary d core) s (copySettle g.id tx u)) ∧
      (∀ u : State, u = modCore d core (fun c => { c with inBatch := false }) s → coreCopy s d core = none → coreCopy u d core = none →
        Answers (.batchBoundary d core) s u)) ∧
    (∀ (id : FrameId) (x : Frame) (tw : Bool) (c : Copy) (hit : Option (Nat × Nat)) (outs : List Tensor), frameOf s id = some x → copyOf x tw = some c →
      c.phase = .running → c.die = d.val → workDone s id c = true → outsFit s id.part c outs = true →
      (badSliver s c hit = none → pegsOff s d id.part c.region = false → Answers (.regionEnd d id tw hit outs) s (copyEnds x tw c outs s)) ∧
      (badSliver s c hit = none → pegsOff s d id.part c.region = true → Answers (.regionEnd d id tw hit outs) s (hwError d (.pegNone (pegsOffAt s d id.part c.region)) (some (id, tw)) s)) ∧
      (∀ i : Nat, badSliver s c hit = some i → Answers (.regionEnd d id tw hit outs) s (hwError d (.signature (i / 32) (i % 32)) (some (id, tw)) s)))

/-- PEG_ARRIVE, PEG_WAIT, PEG_POST, PEG_TAKE and PEG_SET complete: On a peg of the core's region: an ARRIVE counts, and the last one expected opens the barrier and ends every WAIT on it; a WAIT on an open barrier or a set flag goes on, on another the core waits; a POST counts up where none waits; a TAKE of a positive count takes one, of 0 the core waits; a SET sets a clear flag and ends every WAIT; an operation of the wrong kind, or on a peg that the region does not have, is a peg protocol fault of the core. (04_compute_fabric.md) -/
def Obligations.PegsSynchroniseCores : Prop :=
  ∀ (d : Fin 4) (core peg : Nat) (f : Frame) (tw : Bool) (c : Copy) (s : State), coreActs s d core = some (f, tw, c) →
    (∀ p : Peg, pegOf s d f.id.part c.region peg = some p →
      (p.kind = 0 → p.opened = false → p.arrivals + 1 ≠ p.expected →
        Answers (.pegArrive d core peg) s (pegSetTo d peg { p with arrivals := p.arrivals + 1 } s)) ∧
      (p.kind = 0 → p.opened = false → p.arrivals + 1 = p.expected →
        Answers (.pegArrive d core peg) s (wakeAll d peg (pegSetTo d peg { p with arrivals := p.expected, opened := true } s))) ∧
      (p.kind ≠ 1 → p.opened = false → p.flag = false →
        Answers (.pegWait d core peg) s (pegWaits d core peg s) ∧ (coreOf (pegWaits d core peg s) d core).waitPeg = some peg) ∧
      (p.kind ≠ 1 → p.opened = true ∨ p.flag = true → Answers (.pegWait d core peg) s (pegSetTo d peg p s)) ∧
      (p.kind = 1 → p.count < 65535 → waiters s d peg = [] →
        Answers (.pegPost d core peg) s (pegSetTo d peg { p with count := p.count + 1 } s)) ∧
      (p.kind = 1 → 1 ≤ p.count → Answers (.pegTake d core peg) s (pegSetTo d peg { p with count := p.count - 1 } s)) ∧
      (p.kind = 1 → p.count = 0 → Answers (.pegTake d core peg) s (pegWaits d core peg s)) ∧
      (p.kind = 2 → p.flag = false → Answers (.pegSet d core peg) s (wakeAll d peg (pegSetTo d peg { p with flag := true } s))) ∧
      (p.kind ≠ 0 ∨ p.opened = true → Answers (.pegArrive d core peg) s (hwError d (.peg (core / 32) (core % 32)) (some (f.id, tw)) s)) ∧
      (p.kind = 1 → Answers (.pegWait d core peg) s (hwError d (.peg (core / 32) (core % 32)) (some (f.id, tw)) s)) ∧
      (p.kind ≠ 1 → Answers (.pegPost d core peg) s (hwError d (.peg (core / 32) (core % 32)) (some (f.id, tw)) s) ∧
        Answers (.pegTake d core peg) s (hwError d (.peg (core / 32) (core % 32)) (some (f.id, tw)) s)) ∧
      (p.kind ≠ 2 ∨ p.flag = true → Answers (.pegSet d core peg) s (hwError d (.peg (core / 32) (core % 32)) (some (f.id, tw)) s))) ∧
    (pegOf s d f.id.part c.region peg = none → ∀ u : State, u = hwError d (.peg (core / 32) (core % 32)) (some (f.id, tw)) s →
      Answers (.pegArrive d core peg) s u ∧ Answers (.pegWait d core peg) s u ∧ Answers (.pegPost d core peg) s u ∧
      Answers (.pegTake d core peg) s u ∧ Answers (.pegSet d core peg) s u)

/-- RESULT_PACKET, EVID_PACKET, EVIDENCE_WAIT_EXPIRY, RESULT_WAIT_EXPIRY, JUDGEMENT and JUDGE_SELFTEST complete: A piece of an ended copy's data is kept and may complete it; a record of this attempt with a right ECRC is kept, one with a wrong one changes nothing, a piece or record of no live frame is counted as late; a wait that ends without a record publishes the frame as UNPROVEN; a wait for data that ends sends the frame to the judge; the judge takes the oldest frame ready; a failed self-test at a multiple of 10 ms of TB_SAFE latches SAFE with cause 3, a good one changes nothing. (08_integrity_and_verdicts.md) -/
def Obligations.ResultsAreJudged : Prop :=
  ∀ (id : FrameId) (s : State),
    (∀ (x : Frame) (tw : Bool) (c : Copy), frameOf s id = some x → copyOf x tw = some c → c.phase = .ended →
      (∀ (o : Nat) (data : List Byte), x.phase ≠ .queued → Answers (.resultPacket id tw o data) s (judgeReady id (takeStock id tw
        (modCopy id tw (fun y => { y with pieces := tblPut y.pieces o data }) s)))) ∧
      (∀ (b : List Byte) (e : EvRec), evParse b = some e → e.attempt = x.attempt → c.ev = none →
        Answers (.evidPacket id tw b) s (judgeReady id (takeStock id tw (modCopy id tw (fun y => { y with ev := some e }) s)))) ∧
      (∀ b : List Byte, evParse b = none → Answers (.evidPacket id tw b) s s)) ∧
    (frameOf s id = none → ∀ (tw : Bool) (o : Nat) (b : List Byte),
      Answers (.resultPacket id tw o b) s { s with evd := { s.evd with lateArr := up8 s.evd.lateArr } } ∧
      Answers (.evidPacket id tw b) s { s with evd := { s.evd with lateArr := up8 s.evd.lateArr } }) ∧
    (∀ x : Frame, frameOf s id = some x → x.deadline + 100000 ≤ tbSafe s → x.phase = .running ∨ x.phase = .fencing ∨ x.phase = .ended →
      x.main.ev = none →
      Answers (.evidenceWaitExpiry id) s (publishAll x 3 0xFD 0 0 (cxFill s { x with resultCheck := 3 } (syntheticEv x)) [] s)) ∧
    (∀ x : Frame, frameOf s id = some x → x.phase = .ended → earlyVerdict x = none → x.twin = none → x.twinGone = false →
      dataLate s id.part x.main = true →
      Answers (.resultWaitExpiry id) s (toJudge x (modFrame id (fun y => { y with twinGone := false }) s))) ∧
    (∀ (x : Frame) (q : List FrameId) (differ : Bool), s.evd.queue = id :: q → frameOf s id = some x →
      Answers (.judgement differ) s (judgeFrame x differ { s with evd := { s.evd with queue := q } })) ∧
    (s.time.edges % 4000000 = 0 → s.boot ≠ .off →
      Answers (.judgeSelftest false) s (latchSafe 3 0 0 { s with evd := { s.evd with stFail := true } })) ∧
    Answers (.judgeSelftest true) s s

/-- An ignored doorbell is counted and changes nothing else: A doorbell of KIND 0b11, with a nonzero bit in [29:10] or of a source from 256 to 511 adds one to BAD_DOORBELL and changes nothing else; any other one whose kind does not match the TYPE of its source adds one to TYPE_MISMATCH and changes nothing else; the counts hold at 255. (R329) -/
def Obligations.IgnoredDoorbellsAreCounted : Prop :=
  ∀ (v : Word) (s : State),
    ((v.extractLsb' 30 2 = 3 ∨ v.extractLsb' 10 20 ≠ 0 ∨ 256 ≤ (v.extractLsb' 0 10).toNat ∧ (v.extractLsb' 0 10).toNat ≤ 511) →
      Answers (.icuDoorbell v) s { s with icu := { s.icu with bad := min 255 (s.icu.bad + 1) } }) ∧
    (v.extractLsb' 30 2 ≠ 3 → v.extractLsb' 10 20 = 0 → ((v.extractLsb' 0 10).toNat < 256 ∨ 511 < (v.extractLsb' 0 10).toNat) →
      (v.extractLsb' 30 2 = 0 ∧ (srcOf s (v.extractLsb' 0 10).toNat).isLevel = true ∨
        v.extractLsb' 30 2 ≠ 0 ∧ (srcOf s (v.extractLsb' 0 10).toNat).isLevel = false) →
      Answers (.icuDoorbell v) s { s with icu := { s.icu with typeErr := min 255 (s.icu.typeErr + 1) } })

/-- A change of TYPE clears LEVEL and PENDING and leaves the stacks alone: A write of ICU_SRC_CFG that changes TYPE of a source from 512 to 1,023 leaves its LEVEL and PENDING clear, and both stacks as they were. (R346) -/
def Obligations.AChangeOfTypeClearsLevelAndPending : Prop :=
  ∀ (n : Fin 1024) (v : Word) (s : State), 512 ≤ n.val → v.getLsbD 4 ≠ (srcOf s n).isLevel →
    ∃ t, Answers (.icuSrcCfgWrite n v) s t ∧ (srcOf t n).isLevel = v.getLsbD 4 ∧ (srcOf t n).level = false ∧ (srcOf t n).pend = false ∧
      t.icu.stack0 = s.icu.stack0 ∧ t.icu.stack1 = s.icu.stack1

/-- A BARRIER of expected count 0 is open and no WAIT on it waits: A BARRIER that is declared with the expected count 0 is open when its pegs are set for a copy, and the completion barrier of a step without slivers when the step begins; a WAIT on it completes at once: no core begins to wait and nothing but the peg's count of operations and its place in the table changes; it is no fault. (R117) -/
def Obligations.AnEmptyBarrierIsOpen : Prop :=
  (∀ (n g i : Nat) (code : List Byte), pegInit n g code i = pegDeclared (Config.pegDecl code i) n g) ∧
  (∀ (v n g : Nat) (p : Peg), pegDeclared v n g = some p → p.kind = 0 → p.expected = 0 → p.opened = true) ∧
  (∀ (d n g c peg : Nat) (p : Peg) (s : State), pegOf (stepBegins d n g c 0 s) d n g peg = some p → p.ofStep = true → peg / 64 = c →
    p.expected = 0 ∧ p.opened = true) ∧
  (∀ (d : Fin 4) (core peg : Nat) (f : Frame) (tw : Bool) (c : Copy) (p : Peg) (s : State), coreActs s d core = some (f, tw, c) →
    pegOf s d f.id.part c.region peg = some p → p.kind = 0 → p.opened = true →
    ∃ t, Answers (.pegWait d core peg) s t ∧ (die t d).cores = (die s d).cores ∧ (die t d).seq = (die s d).seq ∧
      (die t d).almT = (die s d).almT ∧ (die t d).almF = (die s d).almF ∧ pegOf t d f.id.part c.region peg = some p)

/-- rne_shift rounds to the nearest integer, ties to even; sat48 clamps and counts: For n of 1 and more rne_shift(t, n) lies within one half of t / 2^n, and at exactly one half it is even; sat48 is x within the S48 range, else the nearest end with one more saturation counted, and it draws nothing. (R53) -/
def Obligations.RoundingToNearestEven : Prop :=
  (∀ (t : Int) (n : Nat), 1 ≤ n →
    2 * (rneShift t n * 2 ^ n - t) ≤ 2 ^ n ∧ -(2 ^ n) ≤ 2 * (rneShift t n * 2 ^ n - t) ∧
      (2 * (rneShift t n * 2 ^ n - t) = 2 ^ n ∨ 2 * (rneShift t n * 2 ^ n - t) = -(2 ^ n) → rneShift t n % 2 = 0)) ∧
  (∀ (x : Int) (k : Wk),
    (-140737488355328 ≤ x → x ≤ 140737488355327 → sat48 x k = (x, k)) ∧
    (x < -140737488355328 → sat48 x k = (-140737488355328, { k with sats := k.sats + 1 })) ∧
    (140737488355327 < x → sat48 x k = (140737488355327, { k with sats := k.sats + 1 })))

/-- A packet goes east for one or two hops east, else west, and round a broken path the other way: A packet from one node of the ring to another is sent east when (destination − source) mod 5 is 1 or 2 and west otherwise, where that path is not known to be broken; where it is broken and the other is not, it is sent the other way; no path has more than four hops. (R135) -/
def Obligations.PacketsGoTheShortWay : Prop :=
  ∀ (src dst : Fin 5) (vc type addr : Nat) (data : List Byte) (s : State), src ≠ dst → ∃ (p : Packet) (u : State),
    inject src dst vc type addr data s = forwardPacket src p none u ∧ p.dst = dst ∧ p.src = src ∧
    (let short := decide ((dst.val + 5 - src.val) % 5 = 1 ∨ (dst.val + 5 - src.val) % 5 = 2)
     (pathUp (nodeView s src) src dst short = true → p.west = !short) ∧
     (pathUp (nodeView s src) src dst short = false → pathUp (nodeView s src) src dst (!short) = true → p.west = short)) ∧
    (pathLinks src dst true).length ≤ 4 ∧ (pathLinks src dst false).length ≤ 4 ∧
    (pathLinks src dst true).length + (pathLinks src dst false).length = 5

/-- A 34-bit stamp extended against a reference is the nearest instant: The extension of a stamp is congruent to it modulo 2^34 and lies from 2^33 ns before the reference to less than 2^33 ns after it; it is the stamped instant itself whenever that lies within less than 2^33 ns of the reference. (R381) -/
def Obligations.StampsAreExtended : Prop :=
  ∀ (ref : Int) (ns era : Nat), ns < 2 ^ 32 → era < 4 →
    (extendStamp ref ns era - ((era * 2 ^ 32 + ns : Nat) : Int)) % 2 ^ 34 = 0 ∧
    -(2 ^ 33) ≤ extendStamp ref ns era - ref ∧ extendStamp ref ns era - ref < 2 ^ 33 ∧
    (∀ x : Int, x % 2 ^ 34 = ((era * 2 ^ 32 + ns : Nat) : Int) → -(2 ^ 33) < x - ref → x - ref < 2 ^ 33 → extendStamp ref ns era = x)

/-- OKAY_RELEASE clears RELEASE_PENDING, or completes with E_STATE: From a seat with safety rights and no seal fault: while SAFE is latched, the alarm code stands on a pair of a die that is not FAILED, ABSENT, in reset or in NAP, a fence sequence runs or the device is in MAINTENANCE, OKAY_RELEASE completes with E_STATE and changes nothing; otherwise it completes with OK, and RELEASE_PENDING is clear, as nothing else is changed, so that with RELEASE_PENDING clear nothing changes. From seat B or N it completes with E_RIGHTS; from seat A or S under a seal fault, or from seat A without safety rights of the seal, while nothing of the above stands, with E_SEAL; both change nothing. (R405) -/
def Obligations.ReleaseOfOkay : Prop :=
  ∀ (h : Hdr) (s : State), serving s h.seat = true →
    (h.seat = .b ∨ h.seat = .n → Answers (.okayRelease h) s (complete h 1 (accept h s))) ∧
    (h.seat = .a ∨ h.seat = .s → s.sio.fault = true ∨ (h.seat = .a ∧ sealRights s = false) → s.evd.safe = false → alarmOn s = false →
      fencing s = false → inMaintenance s = false → Answers (.okayRelease h) s (complete h 0x0C (accept h s))) ∧
    (s.sio.release = false → { s with sio := { s.sio with release := false } } = s) ∧
    (HasSafetyRights h s → let blocked := s.evd.safe = true ∨
        (∃ d, d ≤ 3 ∧ ¬((die s d).almT = false ∧ (die s d).almF = true) ∧ (die s d).st ≠ 5 ∧ (die s d).st ≠ 6 ∧ (die s d).inReset = false ∧
          (die s d).st ≠ 7) ∨
        (∃ d, d ≤ 3 ∧ (die s d).seq.isSome = true) ∨ s.pair.mode ≠ 0
     (blocked → Answers (.okayRelease h) s (complete h 2 (accept h s))) ∧
     (¬blocked → Answers (.okayRelease h) s (complete h 0 { accept h s with sio := { s.sio with release := false } })))
end

