-- ==== Sys2Proof/Laws/Kept.lean ====
section
/-! SUPPORT. Laws/Kept.lean: the part of the state that all but a few commands leave alone, and the companion operations that keep it. -/

namespace Sys2Proof.Machine

/-- The queue, the identity lock, the mode of the pair, the power state, the retention RAM. -/
abbrev Kept := List Instr × Bool × Nat × Nat × List Host.Cell

/-- What all but a few operations leave alone: the queue, the identity lock, the pair's mode, the power state, the retention RAM. -/
def kept (s : State) : Kept :=
  (s.pending, s.upd.locked, s.pair.mode, s.pwr.state, s.pwr.ram)

@[simp] theorem kept_put (s : State) {xfree xout xboot xreleaseX xlatch xtime xicu xwdg xcrc xnet xsio xcap xdies xring xparts xframes xevd xseats xsnap} :
    kept ⟨s.pending, xfree, xout, xboot, xreleaseX, xlatch, xtime, xicu, xwdg, xcrc, xnet, xsio, xcap, xdies, xring, xparts, xframes, xevd, xseats, s.upd, s.pair, s.pwr, xsnap⟩ = kept s := rfl

@[simp] theorem kept_put_upd (s : State) {xfree xout xboot xreleaseX xlatch xtime xicu xwdg xcrc xnet xsio xcap xdies xring xparts xframes xevd xseats upkinds upcurrent uprestart upseatSOnly upclosed upaesSlot upshakeSlot upboots upsigning upsettings xsnap} :
    kept ⟨s.pending, xfree, xout, xboot, xreleaseX, xlatch, xtime, xicu, xwdg, xcrc, xnet, xsio, xcap, xdies, xring, xparts, xframes, xevd, xseats, ⟨upkinds, upcurrent, uprestart, upseatSOnly, s.upd.locked, upclosed, upaesSlot, upshakeSlot, upboots, upsigning, upsettings⟩, s.pair, s.pwr, xsnap⟩ = kept s := rfl

@[simp] theorem kept_put_pair (s : State) {xfree xout xboot xreleaseX xlatch xtime xicu xwdg xcrc xnet xsio xcap xdies xring xparts xframes xevd xseats pahalted paarmed pamism papathF pakind pagroup pahalf pabit pastamp patapBit padisagree pastuck painCount paagreed padiffer pajournal paoverflow pasba pamemCorr pamemUnc pacacheP pasplitAt patasks pamain pachecker pasram palastRead paasleep paasleepC pagate patap padbgReq xsnap} :
    kept ⟨s.pending, xfree, xout, xboot, xreleaseX, xlatch, xtime, xicu, xwdg, xcrc, xnet, xsio, xcap, xdies, xring, xparts, xframes, xevd, xseats, s.upd, ⟨s.pair.mode, pahalted, paarmed, pamism, papathF, pakind, pagroup, pahalf, pabit, pastamp, patapBit, padisagree, pastuck, painCount, paagreed, padiffer, pajournal, paoverflow, pasba, pamemCorr, pamemUnc, pacacheP, pasplitAt, patasks, pamain, pachecker, pasram, palastRead, paasleep, paasleepC, pagate, patap, padbgReq⟩, s.pwr, xsnap⟩ = kept s := rfl

@[simp] theorem kept_put_pwr (s : State) {xfree xout xboot xreleaseX xlatch xtime xicu xwdg xcrc xnet xsio xcap xdies xring xparts xframes xevd xseats pwreq pwoutcome pwnapping pwwakePend pwwaking pwwakeHdr pwlastRst pwdResets pwhwy pwwakes pwtick pwnow pwpeak pwwakeLow pwrecCause pwrecSrc pwticks pwatticAt pwtimer pwpatch pwrailsOff pwavs xsnap} :
    kept ⟨s.pending, xfree, xout, xboot, xreleaseX, xlatch, xtime, xicu, xwdg, xcrc, xnet, xsio, xcap, xdies, xring, xparts, xframes, xevd, xseats, s.upd, s.pair, ⟨s.pwr.state, pwreq, pwoutcome, pwnapping, pwwakePend, pwwaking, pwwakeHdr, pwlastRst, pwdResets, pwhwy, pwwakes, pwtick, pwnow, pwpeak, pwwakeLow, pwrecCause, pwrecSrc, pwticks, pwatticAt, pwtimer, s.pwr.ram, pwpatch, pwrailsOff, pwavs⟩, xsnap⟩ = kept s := rfl

@[simp] theorem kept_put_upd_pair (s : State) {xfree xout xboot xreleaseX xlatch xtime xicu xwdg xcrc xnet xsio xcap xdies xring xparts xframes xevd xseats upkinds upcurrent uprestart upseatSOnly upclosed upaesSlot upshakeSlot upboots upsigning upsettings pahalted paarmed pamism papathF pakind pagroup pahalf pabit pastamp patapBit padisagree pastuck painCount paagreed padiffer pajournal paoverflow pasba pamemCorr pamemUnc pacacheP pasplitAt patasks pamain pachecker pasram palastRead paasleep paasleepC pagate patap padbgReq xsnap} :
    kept ⟨s.pending, xfree, xout, xboot, xreleaseX, xlatch, xtime, xicu, xwdg, xcrc, xnet, xsio, xcap, xdies, xring, xparts, xframes, xevd, xseats, ⟨upkinds, upcurrent, uprestart, upseatSOnly, s.upd.locked, upclosed, upaesSlot, upshakeSlot, upboots, upsigning, upsettings⟩, ⟨s.pair.mode, pahalted, paarmed, pamism, papathF, pakind, pagroup, pahalf, pabit, pastamp, patapBit, padisagree, pastuck, painCount, paagreed, padiffer, pajournal, paoverflow, pasba, pamemCorr, pamemUnc, pacacheP, pasplitAt, patasks, pamain, pachecker, pasram, palastRead, paasleep, paasleepC, pagate, patap, padbgReq⟩, s.pwr, xsnap⟩ = kept s := rfl

@[simp] theorem kept_put_upd_pwr (s : State) {xfree xout xboot xreleaseX xlatch xtime xicu xwdg xcrc xnet xsio xcap xdies xring xparts xframes xevd xseats upkinds upcurrent uprestart upseatSOnly upclosed upaesSlot upshakeSlot upboots upsigning upsettings pwreq pwoutcome pwnapping pwwakePend pwwaking pwwakeHdr pwlastRst pwdResets pwhwy pwwakes pwtick pwnow pwpeak pwwakeLow pwrecCause pwrecSrc pwticks pwatticAt pwtimer pwpatch pwrailsOff pwavs xsnap} :
    kept ⟨s.pending, xfree, xout, xboot, xreleaseX, xlatch, xtime, xicu, xwdg, xcrc, xnet, xsio, xcap, xdies, xring, xparts, xframes, xevd, xseats, ⟨upkinds, upcurrent, uprestart, upseatSOnly, s.upd.locked, upclosed, upaesSlot, upshakeSlot, upboots, upsigning, upsettings⟩, s.pair, ⟨s.pwr.state, pwreq, pwoutcome, pwnapping, pwwakePend, pwwaking, pwwakeHdr, pwlastRst, pwdResets, pwhwy, pwwakes, pwtick, pwnow, pwpeak, pwwakeLow, pwrecCause, pwrecSrc, pwticks, pwatticAt, pwtimer, s.pwr.ram, pwpatch, pwrailsOff, pwavs⟩, xsnap⟩ = kept s := rfl

@[simp] theorem kept_put_pair_pwr (s : State) {xfree xout xboot xreleaseX xlatch xtime xicu xwdg xcrc xnet xsio xcap xdies xring xparts xframes xevd xseats pahalted paarmed pamism papathF pakind pagroup pahalf pabit pastamp patapBit padisagree pastuck painCount paagreed padiffer pajournal paoverflow pasba pamemCorr pamemUnc pacacheP pasplitAt patasks pamain pachecker pasram palastRead paasleep paasleepC pagate patap padbgReq pwreq pwoutcome pwnapping pwwakePend pwwaking pwwakeHdr pwlastRst pwdResets pwhwy pwwakes pwtick pwnow pwpeak pwwakeLow pwrecCause pwrecSrc pwticks pwatticAt pwtimer pwpatch pwrailsOff pwavs xsnap} :
    kept ⟨s.pending, xfree, xout, xboot, xreleaseX, xlatch, xtime, xicu, xwdg, xcrc, xnet, xsio, xcap, xdies, xring, xparts, xframes, xevd, xseats, s.upd, ⟨s.pair.mode, pahalted, paarmed, pamism, papathF, pakind, pagroup, pahalf, pabit, pastamp, patapBit, padisagree, pastuck, painCount, paagreed, padiffer, pajournal, paoverflow, pasba, pamemCorr, pamemUnc, pacacheP, pasplitAt, patasks, pamain, pachecker, pasram, palastRead, paasleep, paasleepC, pagate, patap, padbgReq⟩, ⟨s.pwr.state, pwreq, pwoutcome, pwnapping, pwwakePend, pwwaking, pwwakeHdr, pwlastRst, pwdResets, pwhwy, pwwakes, pwtick, pwnow, pwpeak, pwwakeLow, pwrecCause, pwrecSrc, pwticks, pwatticAt, pwtimer, s.pwr.ram, pwpatch, pwrailsOff, pwavs⟩, xsnap⟩ = kept s := rfl

@[simp] theorem kept_put_upd_pair_pwr (s : State) {xfree xout xboot xreleaseX xlatch xtime xicu xwdg xcrc xnet xsio xcap xdies xring xparts xframes xevd xseats upkinds upcurrent uprestart upseatSOnly upclosed upaesSlot upshakeSlot upboots upsigning upsettings pahalted paarmed pamism papathF pakind pagroup pahalf pabit pastamp patapBit padisagree pastuck painCount paagreed padiffer pajournal paoverflow pasba pamemCorr pamemUnc pacacheP pasplitAt patasks pamain pachecker pasram palastRead paasleep paasleepC pagate patap padbgReq pwreq pwoutcome pwnapping pwwakePend pwwaking pwwakeHdr pwlastRst pwdResets pwhwy pwwakes pwtick pwnow pwpeak pwwakeLow pwrecCause pwrecSrc pwticks pwatticAt pwtimer pwpatch pwrailsOff pwavs xsnap} :
    kept ⟨s.pending, xfree, xout, xboot, xreleaseX, xlatch, xtime, xicu, xwdg, xcrc, xnet, xsio, xcap, xdies, xring, xparts, xframes, xevd, xseats, ⟨upkinds, upcurrent, uprestart, upseatSOnly, s.upd.locked, upclosed, upaesSlot, upshakeSlot, upboots, upsigning, upsettings⟩, ⟨s.pair.mode, pahalted, paarmed, pamism, papathF, pakind, pagroup, pahalf, pabit, pastamp, patapBit, padisagree, pastuck, painCount, paagreed, padiffer, pajournal, paoverflow, pasba, pamemCorr, pamemUnc, pacacheP, pasplitAt, patasks, pamain, pachecker, pasram, palastRead, paasleep, paasleepC, pagate, patap, padbgReq⟩, ⟨s.pwr.state, pwreq, pwoutcome, pwnapping, pwwakePend, pwwaking, pwwakeHdr, pwlastRst, pwdResets, pwhwy, pwwakes, pwtick, pwnow, pwpeak, pwwakeLow, pwrecCause, pwrecSrc, pwticks, pwatticAt, pwtimer, s.pwr.ram, pwpatch, pwrailsOff, pwavs⟩, xsnap⟩ = kept s := rfl


theorem kept_foldl {α : Type} (f : State → α → State) (l : List α) (s : State) (h : ∀ s a, kept (f s a) = kept s) :
    kept (l.foldl f s) = kept s := by
  induction l generalizing s with
  | nil => rfl
  | cons a l ih => rw [List.foldl_cons, ih, h]

theorem kept_foldl_pair {α β : Type} (f : State × β → α → State × β) (l : List α) (s : State × β) (h : ∀ s a, kept (f s a).1 = kept s.1) :
    kept (l.foldl f s).1 = kept s.1 := by
  induction l generalizing s with
  | nil => rfl
  | cons a l ih => rw [List.foldl_cons, ih, h]

@[simp] theorem kept_ite (c : Prop) [Decidable c] (a b : State) : kept (if c then a else b) = if c then kept a else kept b := by
  split <;> rfl

theorem kept_fst_ite {β : Type} (c : Prop) [Decidable c] (a b : State × β) :
    kept (if c then a else b).1 = if c then kept a.1 else kept b.1 := by
  split <;> rfl

theorem kept_snd_ite {β : Type} (c : Prop) [Decidable c] (a b : β × State) :
    kept (if c then a else b).2 = if c then kept a.2 else kept b.2 := by
  split <;> rfl

@[simp] theorem kept_elim {α : Type} (o : Option α) (a : State) (f : α → State) :
    kept (o.elim a f) = o.elim (kept a) (fun x => kept (f x)) := by
  cases o <;> rfl

@[simp] theorem elim_same {α β : Type} (o : Option α) (a : β) : (o.elim a fun _ => a) = a := by
  cases o <;> rfl

@[simp] theorem stateOf_next (t s : State) : stateOf (.next t) s = t := rfl

@[simp] theorem kept_drawn (s : State) :
    kept (drawn s) = kept s := by
  simp [drawn]

@[simp] theorem kept_emit (o : Out) (s : State) :
    kept (emit o s) = kept s := by
  simp [emit]

@[simp] theorem kept_modDie (d : Nat) (f : Die → Die) (s : State) :
    kept (modDie d f s) = kept s := by
  simp [modDie]

@[simp] theorem kept_modPart (n : Nat) (f : Part → Part) (s : State) :
    kept (modPart n f s) = kept s := by
  simp [modPart]

@[simp] theorem kept_modRegion (n : Nat) (r : Nat) (f : RegionRt → RegionRt) (s : State) :
    kept (modRegion n r f s) = kept s := by
  simp [modRegion]

@[simp] theorem kept_modCtx (d : Nat) (c : Nat) (f : Ctx → Ctx) (s : State) :
    kept (modCtx d c f s) = kept s := by
  simp [modCtx]

@[simp] theorem kept_modCore (d : Nat) (i : Nat) (f : Core → Core) (s : State) :
    kept (modCore d i f s) = kept s := by
  simp [modCore]

@[simp] theorem kept_modSeat (x : Seat) (f : SeatSt → SeatSt) (s : State) :
    kept (modSeat x f s) = kept s := by
  unfold modSeat
  (repeat' split) <;> simp

@[simp] theorem kept_modQueue (x : Seat) (q : Nat) (f : Queue → Queue) (s : State) :
    kept (modQueue x q f s) = kept s := by
  simp [modQueue]

@[simp] theorem kept_modFrame (f : FrameId) (g : Frame → Frame) (s : State) :
    kept (modFrame f g s) = kept s := by
  simp [modFrame]

@[simp] theorem kept_dropFrame (f : FrameId) (s : State) :
    kept (dropFrame f s) = kept s := by
  simp [dropFrame]

@[simp] theorem kept_msix (x : Seat) (v : Nat) (s : State) :
    kept (msix x v s) = kept s := by
  simp [msix]

@[simp] theorem kept_hostPut (x : Seat) (addr : Nat) (b : List Byte) (f : State → State) (s : State) (hf : ∀ s, kept (f s) = kept s) :
    kept (hostPut x addr b f s) = kept s := by
  simp [hostPut, hf]

@[simp] theorem kept_cqPost (x : Seat) (q : Nat) (entry : List Byte) (s : State) :
    kept (cqPost x q entry s) = kept s := by
  simp [cqPost]

@[simp] theorem kept_releaseDie (d : Nat) (s : State) :
    kept (releaseDie d s) = kept s := by
  simp [releaseDie]

@[simp] theorem kept_eachDie (f : Nat → State → State) (s : State) (hf : ∀ y0 s, kept (f y0 s) = kept s) :
    kept (eachDie f s) = kept s := by
  simp [eachDie, hf]

@[simp] theorem kept_beginNapExit (h : Option Hdr) (s : State) :
    kept (beginNapExit h s) = kept s := by
  simp [beginNapExit]

@[simp] theorem kept_dieCount (d : Nat) (o : Nat) (k : Nat) (s : State) :
    kept (dieCount d o k s) = kept s := by
  simp [dieCount]

@[simp] theorem kept_modSrc (n : Nat) (f : Src → Src) (s : State) :
    kept (modSrc n f s) = kept s := by
  simp [modSrc]

@[simp] theorem kept_setStack (checker : Bool) (l : List (Nat × Nat)) (s : State) :
    kept (setStack checker l s) = kept s := by
  simp [setStack]

@[simp] theorem kept_setPres (checker : Bool) (p : Option (Nat × Nat)) (s : State) :
    kept (setPres checker p s) = kept s := by
  simp [setPres]

@[simp] theorem kept_setLate (checker : Bool) (p : Option (Nat × Nat)) (s : State) :
    kept (setLate checker p s) = kept s := by
  simp [setLate]

@[simp] theorem kept_icuSelect (checker : Bool) (s : State) :
    kept (icuSelect checker s) = kept s := by
  unfold icuSelect
  (repeat' split) <;> simp

@[simp] theorem kept_icuWakeOne (n : Nat) (s : State) :
    kept (icuWakeOne n s) = kept s := by
  unfold icuWakeOne
  (repeat' split) <;> simp

@[simp] theorem kept_icuSettle (s : State) :
    kept (icuSettle s) = kept s := by
  simp [icuSettle, kept_foldl]

@[simp] theorem kept_icuWithdraw (s : State) (checker : Bool) (s' : State) :
    kept (icuWithdraw s checker s') = kept s' := by
  unfold icuWithdraw
  (repeat' split) <;> simp

@[simp] theorem kept_icuChange (f : State → State) (s : State) (hf : ∀ s, kept (f s) = kept s) :
    kept (icuChange f s) = kept s := by
  simp [icuChange, hf]

@[simp] theorem kept_icuForward (n : Nat) (s : State) :
    kept (icuForward n s) = kept s := by
  unfold icuForward
  (repeat' split) <;> simp

@[simp] theorem kept_icuRaise (n : Nat) (level : Bool) (s : State) :
    kept (icuRaise n level s) = kept s := by
  simp [icuRaise]

@[simp] theorem kept_icuDrop (n : Nat) (s : State) :
    kept (icuDrop n s) = kept s := by
  simp [icuDrop]

@[simp] theorem kept_icuDoorbell (v : Word) (s : State) :
    kept (icuDoorbell v s) = kept s := by
  simp [icuDoorbell]

@[simp] theorem kept_icuEvent (n : Nat) (s : State) :
    kept (icuEvent n s) = kept s := by
  simp [icuEvent]

@[simp] theorem kept_icuLevel (n : Nat) (on : Bool) (s : State) :
    kept (icuLevel n on s) = kept s := by
  simp [icuLevel]

@[simp] theorem kept_icuClaimEffect (checker : Bool) (s : State) :
    kept (icuClaimEffect checker s) = kept s := by
  unfold icuClaimEffect
  (repeat' split) <;> simp

@[simp] theorem kept_coreGates (checker : Bool) (s : State) :
    kept (coreGates checker s) = kept s := by
  simp [coreGates]

@[simp] theorem kept_icuEoiEffect (checker : Bool) (n : Nat) (s : State) :
    kept (icuEoiEffect checker n s) = kept s := by
  unfold icuEoiEffect
  (repeat' split) <;> simp

@[simp] theorem kept_icuEach (l : List Nat) (f : Src → Src) (s : State) :
    kept (icuEach l f s) = kept s := by
  simp [icuEach, kept_foldl]

@[simp] theorem kept_execIcuDoorbell (v : Word) (s : State) :
    kept (stateOf (execIcuDoorbell v s) s) = kept s := by
  simp [execIcuDoorbell]

@[simp] theorem kept_execIcuClaim (checker : Bool) (s : State) :
    kept (stateOf (execIcuClaim checker s) s) = kept s := by
  simp [execIcuClaim]

@[simp] theorem kept_execIcuEoi (checker : Bool) (source : BitVec 10) (s : State) :
    kept (stateOf (execIcuEoi checker source s) s) = kept s := by
  simp [execIcuEoi]

@[simp] theorem kept_execIcuEnSet (w : Fin 32) (v : Word) (s : State) :
    kept (stateOf (execIcuEnSet w v s) s) = kept s := by
  simp [execIcuEnSet]

@[simp] theorem kept_execIcuEnClr (w : Fin 32) (v : Word) (s : State) :
    kept (stateOf (execIcuEnClr w v s) s) = kept s := by
  simp [execIcuEnClr]

@[simp] theorem kept_execIcuPendSet (w : Fin 32) (v : Word) (s : State) :
    kept (stateOf (execIcuPendSet w v s) s) = kept s := by
  simp [execIcuPendSet]

@[simp] theorem kept_execIcuPendClr (w : Fin 32) (v : Word) (same : Option Word) (s : State) :
    kept (stateOf (execIcuPendClr w v same s) s) = kept s := by
  unfold execIcuPendClr
  (repeat' split) <;> simp

@[simp] theorem kept_execIcuSrcCfgWrite (n : Fin 1024) (v : Word) (s : State) :
    kept (stateOf (execIcuSrcCfgWrite n v s) s) = kept s := by
  simp [execIcuSrcCfgWrite]

@[simp] theorem kept_fenceLog (d : Nat) (cluster : Nat) (core : Nat) (cause : Nat) (prt : Nat) (rgn : Nat) (evid : Nat) (s : State) :
    kept (fenceLog d cluster core cause prt rgn evid s) = kept s := by
  simp [fenceLog]

@[simp] theorem kept_logError (kind : Nat) (unit : Nat) (prt : Nat) (d0 : Nat) (d1 : Nat) (s : State) :
    kept (logError kind unit prt d0 d1 s) = kept s := by
  simp [logError]

@[simp] theorem kept_routeEvent (n : Nat) (ev : Nat) (rgn : Option Nat) (detail : Nat) (s : State) :
    kept (routeEvent n ev rgn detail s) = kept s := by
  unfold routeEvent
  dsimp only
  (repeat' split) <;> (try simp only) <;> simp [kept_foldl]

@[simp] theorem kept_setPartState (n : Nat) (st : Nat) (s : State) :
    kept (setPartState n st s) = kept s := by
  simp [setPartState]

@[simp] theorem kept_okaySettle (s : State) :
    kept (okaySettle s) = kept s := by
  simp [okaySettle]

@[simp] theorem kept_okayEdge (pin : Nat) (s : State) :
    kept (okayEdge pin s) = kept s := by
  simp [okayEdge]

@[simp] theorem kept_okayHalf (s : State) :
    kept (okayHalf s) = kept s := by
  simp [okayHalf]

@[simp] theorem kept_alarmChange (f : State → State) (s : State) (hf : ∀ s, kept (f s) = kept s) :
    kept (alarmChange f s) = kept s := by
  simp [alarmChange, hf]

@[simp] theorem kept_alarmRaise (d : Nat) (s : State) :
    kept (alarmRaise d s) = kept s := by
  simp [alarmRaise]

@[simp] theorem kept_latchSafe (cause : Nat) (prt : Nat) (rgn : Nat) (s : State) :
    kept (latchSafe cause prt rgn s) = kept s := by
  simp [latchSafe, kept_foldl]

@[simp] theorem kept_accept (h : Hdr) (s : State) :
    kept (accept h s) = kept s := by
  unfold accept
  (repeat' split) <;> simp

@[simp] theorem kept_answerN (h : Hdr) (entry : List Byte) (out : List Byte) (s : State) :
    kept (answerN h entry out s) = kept s := by
  simp [answerN]

@[simp] theorem kept_completeWith (h : Hdr) (status : Nat) (info0 : Nat) (info1 : Nat) (info2 : Nat) (data : List Byte) (s : State) :
    kept (completeWith h status info0 info1 info2 data s) = kept s := by
  unfold completeWith
  (repeat' split) <;> simp [kept_foldl]

@[simp] theorem kept_complete (h : Hdr) (status : Nat) (s : State) :
    kept (complete h status s) = kept s := by
  simp [complete]

@[simp] theorem kept_awaits (h : Hdr) (info2 : Nat) (left : List (Nat × Nat)) (undo : Option (Upload × Option Upload)) (s : State) :
    kept (awaits h info2 left undo s) = kept s := by
  simp [awaits]

@[simp] theorem kept_awaitChange (f : Await → List (Nat × Nat)) (s : State) :
    kept (awaitChange f s) = kept s := by
  simp [awaitChange, kept_foldl]

@[simp] theorem kept_awaitArrive (d : Nat) (upTo : Nat) (s : State) :
    kept (awaitArrive d upTo s) = kept s := by
  unfold awaitArrive
  (repeat' split) <;> simp

@[simp] theorem kept_awaitGone (d : Nat) (s : State) :
    kept (awaitGone d s) = kept s := by
  simp [awaitGone]

@[simp] theorem kept_awaitCut (l : List Nat) (s : State) :
    kept (awaitCut l s) = kept s := by
  simp [awaitCut, kept_foldl]

@[simp] theorem kept_awaitUnloaded (n : Nat) (s : State) :
    kept (awaitUnloaded n s) = kept s := by
  simp [awaitUnloaded]

@[simp] theorem kept_finish (h : Hdr) (status : Nat) (f : State → State) (s : State) (hf : ∀ s, kept (f s) = kept s) :
    kept (finish h status f s) = kept s := by
  simp [finish, hf]

@[simp] theorem kept_taken (h : Hdr) (f : State → State) (s : State) (hf : ∀ s, kept (f s) = kept s) :
    kept (stateOf (taken h f s) s) = kept s := by
  simp [taken, hf]

@[simp] theorem kept_command (h : Hdr) (f : State → State) (s : State) (hf : ∀ s, kept (f s) = kept s) :
    kept (stateOf (command h f s) s) = kept s := by
  unfold command
  (repeat' split) <;> simp [hf]

@[simp] theorem kept_romCommand (h : Hdr) (f : State → State) (s : State) (hf : ∀ s, kept (f s) = kept s) :
    kept (stateOf (romCommand h f s) s) = kept s := by
  unfold romCommand
  (repeat' split) <;> simp [hf]

@[simp] theorem kept_storeSetting (item : Nat) (index : Nat) (c : Instr) (s : State) :
    kept (storeSetting item index c s) = kept s := by
  simp [storeSetting]

@[simp] theorem kept_modCrc (u : Nat) (f : CrcUnit → CrcUnit) (s : State) :
    kept (modCrc u f s) = kept s := by
  simp [modCrc]

@[simp] theorem kept_execCrcData8 (u : Fin 8) (v : Word) (s : State) :
    kept (stateOf (execCrcData8 u v s) s) = kept s := by
  simp [execCrcData8]

@[simp] theorem kept_execCrcData16 (u : Fin 8) (v : Word) (s : State) :
    kept (stateOf (execCrcData16 u v s) s) = kept s := by
  simp [execCrcData16]

@[simp] theorem kept_execCrcData32 (u : Fin 8) (v : Word) (s : State) :
    kept (stateOf (execCrcData32 u v s) s) = kept s := by
  simp [execCrcData32]

@[simp] theorem kept_execCrcStart (u : Fin 8) (s : State) :
    kept (stateOf (execCrcStart u s) s) = kept s := by
  simp [execCrcStart]

@[simp] theorem kept_execCrcStateLoWrite (u : Fin 8) (v : Word) (s : State) :
    kept (stateOf (execCrcStateLoWrite u v s) s) = kept s := by
  simp [execCrcStateLoWrite]

@[simp] theorem kept_execCrcStateHiWrite (u : Fin 8) (v : Word) (s : State) :
    kept (stateOf (execCrcStateHiWrite u v s) s) = kept s := by
  simp [execCrcStateHiWrite]

@[simp] theorem kept_modWdg (n : Nat) (f : WdgUnit → WdgUnit) (s : State) :
    kept (modWdg n f s) = kept s := by
  simp [modWdg]

@[simp] theorem kept_modTask (t : Nat) (f : Task → Task) (s : State) :
    kept (modTask t f s) = kept s := by
  simp [modTask]

@[simp] theorem kept_modGroup (g : Nat) (f : Group → Group) (s : State) :
    kept (modGroup g f s) = kept s := by
  simp [modGroup]

@[simp] theorem kept_wdgFail (n : Nat) (kind : Nat) (s : State) :
    kept ((wdgFail n kind s).1) = kept s := by
  simp [wdgFail, kept_fst_ite]

@[simp] theorem kept_wdgServe (n : Nat) (s : State) :
    kept ((wdgServe n s).1) = kept s := by
  simp [wdgServe, kept_fst_ite]

@[simp] theorem kept_wdgWrite (v : View) (n : Nat) (w : Nat) (s : State) :
    kept ((wdgWrite v n w s).1) = kept s := by
  simp [wdgWrite, kept_fst_ite]

@[simp] theorem kept_wdgExpire (n : Nat) (s : State) :
    kept ((wdgExpire n s).1) = kept s := by
  simp [wdgExpire, kept_fst_ite]

@[simp] theorem kept_wdgPulseEnd (n : Nat) (s : State) :
    kept (wdgPulseEnd n s) = kept s := by
  unfold wdgPulseEnd
  (repeat' split) <;> simp

@[simp] theorem kept_wdgEnable (n : Nat) (s : State) :
    kept (wdgEnable n s) = kept s := by
  simp [wdgEnable, kept_foldl]

@[simp] theorem kept_wdgStop (n : Nat) (s : State) :
    kept (wdgStop n s) = kept s := by
  simp [wdgStop]

@[simp] theorem kept_wdgFree (n : Nat) (s : State) :
    kept (wdgFree n s) = kept s := by
  simp [wdgFree, kept_foldl]

@[simp] theorem kept_wdgPartStart (p : Nat) (s : State) :
    kept (wdgPartStart p s) = kept s := by
  simp [wdgPartStart]

@[simp] theorem kept_wdgPartStop (p : Nat) (s : State) :
    kept (wdgPartStop p s) = kept s := by
  simp [wdgPartStop]

@[simp] theorem kept_wdgPartFree (p : Nat) (s : State) :
    kept (wdgPartFree p s) = kept s := by
  simp [wdgPartFree]

@[simp] theorem kept_taskCheckin (t : Nat) (s : State) :
    kept (taskCheckin t s) = kept s := by
  simp [taskCheckin]

@[simp] theorem kept_taskPublished (p : Nat) (r : Nat) (believed : Bool) (s : State) :
    kept (taskPublished p r believed s) = kept s := by
  simp [taskPublished, kept_foldl]

@[simp] theorem kept_taskCycle (g : Nat) (s : State) :
    kept ((taskCycle g s).1) = kept s := by
  simp [taskCycle, kept_foldl, kept_fst_ite]

@[simp] theorem kept_storeEv (r : EvRec) (s : State) :
    kept ((storeEv r s).2) = kept s := by
  simp [storeEv]

@[simp] theorem kept_modPort (node : Nat) (east : Bool) (f : Port → Port) (s : State) :
    kept (modPort node east f s) = kept s := by
  simp [modPort]

@[simp] theorem kept_portCount (node : Nat) (east : Bool) (o : Nat) (k : Nat) (s : State) :
    kept (portCount node east o k s) = kept s := by
  simp [portCount]

@[simp] theorem kept_dieError (node : Nat) (s : State) :
    kept (dieError node s) = kept s := by
  simp [dieError]

@[simp] theorem kept_sendBlock (node : Nat) (east : Bool) (low : Nat) (data : List Byte) (s : State) :
    kept (sendBlock node east low data s) = kept s := by
  simp [sendBlock]

@[simp] theorem kept_sendPacket (node : Nat) (east : Bool) (p : Packet) (s : State) :
    kept (sendPacket node east p s) = kept s := by
  simp [sendPacket, kept_foldl]

@[simp] theorem kept_creditCount (node : Nat) (east : Bool) (s : State) :
    kept (creditCount node east s) = kept s := by
  unfold creditCount
  (repeat' split) <;> simp

@[simp] theorem kept_creditSettle (node : Nat) (east : Bool) (s : State) :
    kept (creditSettle node east s) = kept s := by
  simp [creditSettle]

@[simp] theorem kept_owe (node : Nat) (east : Bool) (p : Packet) (s : State) :
    kept (owe node east p s) = kept s := by
  simp [owe]

@[simp] theorem kept_oweFrom (node : Nat) (src : Option Bool) (p : Packet) (s : State) :
    kept (oweFrom node src p s) = kept s := by
  unfold oweFrom
  (repeat' split) <;> simp

@[simp] theorem kept_portSend (node : Nat) (east : Bool) (s : State) :
    kept (portSend node east s) = kept s := by
  unfold portSend
  (repeat' split) <;> simp

@[simp] theorem kept_portQueue (node : Nat) (east : Bool) (p : Packet) (src : Option Bool) (s : State) :
    kept (portQueue node east p src s) = kept s := by
  simp [portQueue]

@[simp] theorem kept_forwardPacket (node : Nat) (p : Packet) (src : Option Bool) (s : State) :
    kept (forwardPacket node p src s) = kept s := by
  simp [forwardPacket]

@[simp] theorem kept_inject (node : Nat) (dst : Nat) (vc : Nat) (type : Nat) (addr : Nat) (data : List Byte) (s : State) :
    kept (inject node dst vc type addr data s) = kept s := by
  simp [inject]

@[simp] theorem kept_broadcast (type : Nat) (data : List Byte) (s : State) :
    kept (broadcast type data s) = kept s := by
  simp [broadcast]

@[simp] theorem kept_deliver (node : Nat) (p : Packet) (s : State) :
    kept (deliver node p s) = kept s := by
  simp [deliver]

@[simp] theorem kept_packetAt (node : Nat) (east : Bool) (p : Packet) (s : State) :
    kept (packetAt node east p s) = kept s := by
  unfold packetAt
  dsimp only
  (repeat' split) <;> simp

@[simp] theorem kept_blockPayload (node : Nat) (east : Bool) (b : List Byte) (s : State) :
    kept (blockPayload node east b s) = kept s := by
  unfold blockPayload
  dsimp only
  (repeat' split) <;> (try simp only) <;> simp

@[simp] theorem kept_execLinkBlockReceive (node : Fin 5) (east : Bool) (bytes : List Byte) (s : State) :
    kept (stateOf (execLinkBlockReceive node east bytes s) s) = kept s := by
  unfold execLinkBlockReceive
  dsimp only
  (repeat' split) <;> simp

@[simp] theorem kept_portLost (node : Nat) (east : Bool) (s : State) :
    kept (portLost node east s) = kept s := by
  simp [portLost, kept_foldl]

@[simp] theorem kept_cutDies (s : State) :
    kept (cutDies s) = kept s := by
  simp [cutDies]

@[simp] theorem kept_linkGoesDown (k : Nat) (cause : Nat) (s : State) :
    kept (linkGoesDown k cause s) = kept s := by
  simp [linkGoesDown]

@[simp] theorem kept_execLinkDown (link : Fin 5) (cause : Fin 4) (s : State) :
    kept (stateOf (execLinkDown link cause s) s) = kept s := by
  simp [execLinkDown]

@[simp] theorem kept_execLinkRetryTimeout (node : Fin 5) (east : Bool) (s : State) :
    kept (stateOf (execLinkRetryTimeout node east s) s) = kept s := by
  simp [execLinkRetryTimeout, kept_foldl]

@[simp] theorem kept_linkComesUp (k : Nat) (s : State) :
    kept (linkComesUp k s) = kept s := by
  simp [linkComesUp]

@[simp] theorem kept_execRingState (node : Fin 5) (up : BitVec 5) (seq : Nat) (s : State) :
    kept (stateOf (execRingState node up seq s) s) = kept s := by
  simp [execRingState]

@[simp] theorem kept_sendCmd (d : Nat) (kind : Nat) (args : List Nat) (s : State) :
    kept (sendCmd d kind args s) = kept s := by
  simp [sendCmd]

@[simp] theorem kept_ackCmd (d : Nat) (q : Nat) (s : State) :
    kept (ackCmd d q s) = kept s := by
  simp [ackCmd]

@[simp] theorem kept_cmdArrives (d : Nat) (kind : Nat) (args : List Nat) (f : State → State) (s : State) (hf : ∀ s, kept (f s) = kept s) :
    kept (cmdArrives d kind args f s) = kept s := by
  unfold cmdArrives
  dsimp only
  (repeat' split) <;> (try simp only) <;> simp [hf]

@[simp] theorem kept_execCmdResendTimeout (die_ : Fin 4) (seq : Nat) (s : State) :
    kept (stateOf (execCmdResendTimeout die_ seq s) s) = kept s := by
  unfold execCmdResendTimeout
  dsimp only
  (repeat' split) <;> simp

@[simp] theorem kept_execTimeBlockSend (node : Fin 5) (east : Bool) (s : State) :
    kept (stateOf (execTimeBlockSend node east s) s) = kept s := by
  simp [execTimeBlockSend]

@[simp] theorem kept_timeOffset (d : Nat) (src : Nat) (off : Int) (s : State) :
    kept (timeOffset d src off s) = kept s := by
  simp [timeOffset]

@[simp] theorem kept_execTimeBlockReceive (node : Fin 5) (east : Bool) (theirTime : Option Int) (echo : Option (Int × Int)) (s : State) :
    kept (stateOf (execTimeBlockReceive node east theirTime echo s) s) = kept s := by
  unfold execTimeBlockReceive
  (repeat' split) <;> simp

@[simp] theorem kept_ringFields (s : State) :
    kept (ringFields s) = kept s := by
  simp [ringFields]

@[simp] theorem kept_cellarWrite (d : Nat) (a : Nat) (b : List Byte) (s : State) :
    kept (cellarWrite d a b s) = kept s := by
  simp [cellarWrite]

@[simp] theorem kept_cellarReadCount (d : Nat) (n : Nat) (s : State) :
    kept (cellarReadCount d n s) = kept s := by
  simp [cellarReadCount]

@[simp] theorem kept_writePackets (d node n tag : Nat) (b : List Byte) (s : State) : kept (writePackets d node n tag b s) = kept s := by
  induction n generalizing tag b s with
  | zero => rfl
  | succ n ih => unfold writePackets; split <;> simp [ih]

@[simp] theorem kept_writeCells (src : Nat) (node : Nat) (a : Nat) (l : List (Option Byte)) (s : State) :
    kept (writeCells src node a l s) = kept s := by
  simp [writeCells, kept_foldl]

@[simp] theorem kept_cellarPut (d : Nat) (e : Nat) (a : Nat) (l : List (Option Byte)) (s : State) :
    kept (cellarPut d e a l s) = kept s := by
  simp [cellarPut, kept_foldl]

end Sys2Proof.Machine
end

