-- ==== Sys2Proof/Laws/KeptRing.lean ====
section
/-! SUPPORT. Laws/KeptRing.lean: the operations of the dies, the frames, the judge and capture that keep it. -/

namespace Sys2Proof.Machine

@[simp] theorem kept_enterWindow (n : Nat) (r : Nat) (counts : Bool) (s : State) :
    kept (enterWindow n r counts s) = kept s := by
  simp [enterWindow]

@[simp] theorem kept_scanCommit (f : Frame) (believed : Bool) (s : State) :
    kept (scanCommit f believed s) = kept s := by
  simp [scanCommit, kept_foldl]

@[simp] theorem kept_stageWrite (x : Stage) (s : State) :
    kept (stageWrite x s) = kept s := by
  simp [stageWrite, kept_foldl]

@[simp] theorem kept_stageCommit (x : Stage) (gap : Bool) (rows : List Nat) (s : State) :
    kept (stageCommit x gap rows s) = kept s := by
  simp [stageCommit, kept_foldl]

@[simp] theorem kept_stagesGoOn (n k : Nat) (s : State) : kept (stagesGoOn n k s) = kept s := by
  induction k generalizing s with
  | zero => rfl
  | succ k ih =>
    unfold stagesGoOn
    dsimp only
    (repeat' split) <;> simp [ih]

@[simp] theorem kept_stageStep (n : Nat) (s : State) :
    kept (stageStep n s) = kept s := by
  simp [stageStep]

@[simp] theorem kept_stageOuts (id : FrameId) (d : Nat) (outs : List Tensor) (s : State) :
    kept (stageOuts id d outs s) = kept s := by
  simp [stageOuts]

@[simp] theorem kept_derivedCommits (f : Frame) (verdict : Nat) (reason : Nat) (s : State) :
    kept (derivedCommits f verdict reason s) = kept s := by
  unfold derivedCommits
  (repeat' split) <;> simp

@[simp] theorem kept_freeRows (f : Frame) (s : State) :
    kept (freeRows f s) = kept s := by
  simp [freeRows, kept_foldl]

@[simp] theorem kept_slotsPublished (f : Frame) (verdict : Nat) (from_ : Nat) (s : State) :
    kept (slotsPublished f verdict from_ s) = kept s := by
  simp [slotsPublished]

@[simp] theorem kept_deliverResult (f : Frame) (verdict : Nat) (b : List Byte) (s : State) :
    kept (deliverResult f verdict b s) = kept s := by
  unfold deliverResult
  dsimp only
  (repeat' split) <;> (try simp only) <;> simp

@[simp] theorem kept_verdictCounts (f : Frame) (verdict : Nat) (refuse : Nat) (r : EvRec) (s : State) :
    kept (verdictCounts f verdict refuse r s) = kept s := by
  simp [verdictCounts]

@[simp] theorem kept_tunePublished (f : Frame) (verdict : Nat) (reason : Nat) (index : Nat) (endL : Nat) (s : State) :
    kept (tunePublished f verdict reason index endL s) = kept s := by
  simp [tunePublished]

@[simp] theorem kept_launchGone (id : FrameId) (s : State) :
    kept (launchGone id s) = kept s := by
  simp [launchGone]

@[simp] theorem kept_publish (f : Frame) (verdict reason refuse steps : Nat) (r : EvRec) (data : List Byte) (s : State) :
    kept (publish f verdict reason refuse steps r data s) = kept s := by
  cases h : f.storedAt <;> simp [publish, h]

@[simp] theorem kept_refuseFrame (f : Frame) (cause : Nat) (s : State) :
    kept (refuseFrame f cause s) = kept s := by
  simp [refuseFrame]

@[simp] theorem kept_fenceUnit (d : Nat) (u : FenceUnit) (cause : Nat) (rgn : Nat) (evid : Nat) (s : State) :
    kept (fenceUnit d u cause rgn evid s) = kept s := by
  unfold fenceUnit
  (repeat' split) <;> simp

@[simp] theorem kept_writeCtx (d : Nat) (c : Nat) (f : Ctx → Ctx) (s : State) :
    kept (writeCtx d c f s) = kept s := by
  simp [writeCtx]

@[simp] theorem kept_seqAdd (d : Nat) (e : FabErr) (u : Option (FenceUnit × Nat)) (struck : List FrameId) (s : State) :
    kept (seqAdd d e u struck s) = kept s := by
  simp [seqAdd]

@[simp] theorem kept_contextFault (d : Nat) (c : Nat) (s : State) :
    kept (contextFault d c s) = kept s := by
  simp [contextFault]

@[simp] theorem kept_clusterCount (d : Nat) (c : Nat) (o : Nat) (k : Nat) (s : State) :
    kept (clusterCount d c o k s) = kept s := by
  simp [clusterCount]

@[simp] theorem kept_coreCount (d : Nat) (i : Nat) (o : Nat) (k : Nat) (s : State) :
    kept (coreCount d i o k s) = kept s := by
  simp [coreCount]

@[simp] theorem kept_setWork (d : Nat) (c : Nat) (w : Work) (s : State) :
    kept (setWork d c w s) = kept s := by
  simp [setWork]

@[simp] theorem kept_clusterBusyCount (d : Nat) (c : Nat) (s : State) :
    kept (clusterBusyCount d c s) = kept s := by
  unfold clusterBusyCount
  (repeat' split) <;> simp

@[simp] theorem kept_coreBusyCount (d : Nat) (i : Nat) (s : State) :
    kept (coreBusyCount d i s) = kept s := by
  simp [coreBusyCount]

@[simp] theorem kept_endWork (d : Nat) (c : Nat) (s : State) :
    kept (endWork d c s) = kept s := by
  simp [endWork]

@[simp] theorem kept_resetPegs (d : Nat) (n : Nat) (g : Nat) (cl : List Nat) (s : State) :
    kept (resetPegs d n g cl s) = kept s := by
  unfold resetPegs
  (repeat' split) <;> simp

@[simp] theorem kept_stepBegins (d : Nat) (n : Nat) (g : Nat) (c : Nat) (total : Nat) (s : State) :
    kept (stepBegins d n g c total s) = kept s := by
  simp [stepBegins, kept_foldl]

@[simp] theorem kept_modCopy (id : FrameId) (tw : Bool) (g : Copy → Copy) (s : State) :
    kept (modCopy id tw g s) = kept s := by
  simp [modCopy]

@[simp] theorem kept_dropWork (id : FrameId) (c : Copy) (s : State) : kept (dropWork id c s) = kept s := by
  unfold dropWork
  dsimp only
  rw [kept_resetPegs, kept_foldl, kept_foldl]
  · intro s a
    split
    · rw [kept_modCore]; split <;> simp
    · rfl
  · intro s a; split <;> simp

@[simp] theorem kept_dropCopies (id : FrameId) (s : State) : kept (dropCopies id s) = kept s := by
  unfold dropCopies
  split
  · rw [kept_foldl]; intro s a; split <;> simp
  · rfl

@[simp] theorem kept_refuse (f : Frame) (cause : Nat) (s : State) :
    kept (refuse f cause s) = kept s := by
  simp [refuse]

@[simp] theorem kept_ownersOn (n : Nat) (l : Layout) (d : Nat) (s : State) :
    kept (ownersOn n l d s) = kept s := by
  simp [ownersOn]

@[simp] theorem kept_reserve (n : Nat) (l : Layout) (xs : List RegionRt) (s : State) :
    kept (reserve n l xs s) = kept s := by
  unfold reserve
  (repeat' split) <;> simp [kept_foldl]

@[simp] theorem kept_unreserve (n : Nat) (s : State) :
    kept (unreserve n s) = kept s := by
  simp [unreserve, kept_foldl]

@[simp] theorem kept_stageStore (d : Nat) (n : Nat) (g : Nat) (cl : List Nat) (s : State) :
    kept (stageStore d n g cl s) = kept s := by
  unfold stageStore
  (repeat' split) <;> simp [kept_foldl]

@[simp] theorem kept_stageOn (n : Nat) (g : Nat) (k : Nat) (cl : List Nat) (s : State) :
    kept (stageOn n g k cl s) = kept s := by
  unfold stageOn
  (repeat' split) <;> simp

@[simp] theorem kept_stageShelf (d : Nat) (i : Nat) (m : Nat) (p : ProgRec) (b : List (Option Byte)) (s : State) :
    kept (stageShelf d i m p b s) = kept s := by
  simp [stageShelf]

@[simp] theorem kept_stageShelves (d : Nat) (n : Nat) (g : Nat) (c : Nat) (k : Nat) (hs : List Nat) (s : State) :
    kept (stageShelves d n g c k hs s) = kept s := by
  unfold stageShelves
  (repeat' split) <;> simp [kept_foldl]

@[simp] theorem kept_poisonRead (d : Nat) (id : FrameId) (n : Nat) (s : State) :
    kept (poisonRead d id n s) = kept s := by
  simp [poisonRead]

@[simp] theorem kept_stageProgram (d : Nat) (g : Nat) (c : Nat) (k : Nat) (hs : List Nat) (f : FrameId) (s : State) :
    kept (stageProgram d g c k hs f s) = kept s := by
  unfold stageProgram
  (repeat' split) <;> simp

@[simp] theorem kept_handSliver (d : Nat) (c : Nat) (k : Nat) (s : State) :
    kept (handSliver d c k s) = kept s := by
  unfold handSliver
  dsimp only
  (repeat' split) <;> simp

@[simp] theorem kept_handOut (d : Nat) (c : Nat) (w : Work) (s : State) :
    kept (handOut d c w s) = kept s := by
  simp [handOut, kept_foldl]

@[simp] theorem kept_beginSteps (d c i r : Nat) (f : FrameId) (g : Nat) (x : RegionRec) (n k : Nat) (s : State) :
    kept (beginSteps d c i r f g x n k s) = kept s := by
  induction n generalizing k s with
  | zero => simp [beginSteps]
  | succ n ih =>
    unfold beginSteps
    dsimp only
    (repeat' split) <;> (try rename_i h) <;> (try simp only [Nat.succ_ne_zero, Nat.add_right_cancel_iff] at *) <;> (try subst_vars) <;> simp_all

@[simp] theorem kept_refuseWaiting (n : Nat) (g : Option Nat) (cause : Nat) (s : State) :
    kept (refuseWaiting n g cause s) = kept s := by
  unfold refuseWaiting
  dsimp only
  rw [kept_foldl]
  intro s a
  (repeat' split) <;> simp

@[simp] theorem kept_fencePartition (n : Nat) (s : State) :
    kept (fencePartition n s) = kept s := by
  simp [fencePartition]

@[simp] theorem kept_moveMain (n : Nat) (g : Nat) (s : State) :
    kept (moveMain n g s) = kept s := by
  unfold moveMain
  (repeat' split) <;> simp

@[simp] theorem kept_movePartner (n : Nat) (g : Nat) (s : State) :
    kept (movePartner n g s) = kept s := by
  unfold movePartner
  (repeat' split) <;> simp

@[simp] theorem kept_moveRegions (d : Nat) (defer : Bool) (s : State) : kept (moveRegions d defer s) = kept s := by
  unfold moveRegions
  rw [kept_foldl]
  intro s n
  split
  · rfl
  · rw [kept_foldl]
    intro s g
    dsimp only
    (repeat' split) <;> simp

@[simp] theorem kept_moveDeferred (n : Nat) (g : Nat) (s : State) :
    kept (moveDeferred n g s) = kept s := by
  simp [moveDeferred]

@[simp] theorem kept_movesDeferred (n : Nat) (s : State) :
    kept (movesDeferred n s) = kept s := by
  simp [movesDeferred, kept_foldl]

@[simp] theorem kept_modBase (b : Nat) (f : Base → Base) (s : State) :
    kept (modBase b f s) = kept s := by
  simp [modBase]

@[simp] theorem kept_tick (s : State) :
    kept (tick s) = kept s := by
  simp [tick]

@[simp] theorem kept_servoLevel (b : Nat) (s : State) :
    kept (servoLevel b s) = kept s := by
  simp [servoLevel]

@[simp] theorem kept_applyStep (b : Nat) (amount : Int) (s : State) :
    kept (applyStep b amount s) = kept s := by
  simp [applyStep]

@[simp] theorem kept_offsetRefused (b : Nat) (theta : Int) (s : State) :
    kept (offsetRefused b theta s) = kept s := by
  simp [offsetRefused]

@[simp] theorem kept_onOffset (b : Nat) (theta : Int) (s : State) :
    kept (onOffset b theta s) = kept s := by
  simp [onOffset]

@[simp] theorem kept_offsetWrite (b : Nat) (w : Nat) (s : State) :
    kept (offsetWrite b w s) = kept s := by
  simp [offsetWrite]

@[simp] theorem kept_onPath (b : Nat) (p : Int) (s : State) :
    kept (onPath b p s) = kept s := by
  simp [onPath]

@[simp] theorem kept_stepAccepted (b : Nat) (amount : Int) (s : State) :
    kept (stepAccepted b amount s) = kept s := by
  simp [stepAccepted]

@[simp] theorem kept_timeActEffect (a : TimeAct) (b : Nat) (s : State) :
    kept (timeActEffect a b s) = kept s := by
  unfold timeActEffect
  (repeat' split) <;> simp

@[simp] theorem kept_timeAct (src : TimeSrc) (a : TimeAct) (b : Nat) (s : State) :
    kept (stateOf (timeAct src a b s) s) = kept s := by
  unfold timeAct
  (repeat' split) <;> simp

@[simp] theorem kept_stepOne (b : Nat) (amount : Int) (s : State) :
    kept (stepOne b amount s) = kept s := by
  simp [stepOne]

@[simp] theorem kept_timeCfgEffect (b : Nat) (ctrl : Nat) (gain : Nat) (limit : Nat) (hold : Nat) (s : State) :
    kept (timeCfgEffect b ctrl gain limit hold s) = kept s := by
  simp [timeCfgEffect]

@[simp] theorem kept_xdEffect (s : State) :
    kept (xdEffect s) = kept s := by
  simp [xdEffect]

@[simp] theorem kept_sendEvidence (id : FrameId) (tw : Bool) (s : State) :
    kept (sendEvidence id tw s) = kept s := by
  unfold sendEvidence
  (repeat' split) <;> simp

@[simp] theorem kept_windowAdvance (n p k base sched L d : Nat) (s : State) :
    kept (windowAdvance n p k base sched L d s).1 = kept s := by
  unfold windowAdvance
  dsimp only
  rw [kept_foldl_pair]
  intro x e
  obtain ⟨s, ns, ra⟩ := x
  dsimp only
  split
  · rfl
  · dsimp only
    rw [kept_foldl]
    · rfl
    · intro s w; simp

@[simp] theorem kept_startStream (id : FrameId) (tw : Bool) (first : Bool) (d : Nat) (j : Nat) (e : PlanStream) (s : State) :
    kept (startStream id tw first d j e s) = kept s := by
  unfold startStream
  (repeat' split) <;> simp [kept_foldl]

@[simp] theorem kept_runCopy (id : FrameId) (tw : Bool) (s : State) :
    kept (runCopy id tw s) = kept s := by
  unfold runCopy
  (repeat' split) <;> simp [kept_foldl]

@[simp] theorem kept_startCopy (id : FrameId) (tw : Bool) (s : State) :
    kept (startCopy id tw s) = kept s := by
  unfold startCopy
  (repeat' split) <;> simp [kept_foldl]

@[simp] theorem kept_startOne (d : Nat) (s : State) :
    kept (startOne d s) = kept s := by
  unfold startOne
  (repeat' split) <;> simp

@[simp] theorem kept_startFor (id : FrameId) (s : State) :
    kept (startFor id s) = kept s := by
  unfold startFor
  dsimp only
  (repeat' split) <;> simp

@[simp] theorem kept_requeue (id : FrameId) (s : State) :
    kept (requeue id s) = kept s := by
  unfold requeue
  dsimp only
  (repeat' split) <;> (try simp only) <;> simp

@[simp] theorem kept_copyStopped (id : FrameId) (tw : Bool) (s : State) :
    kept (copyStopped id tw s) = kept s := by
  unfold copyStopped
  (repeat' split) <;> simp

@[simp] theorem kept_copySettle (id : FrameId) (tw : Bool) (s : State) :
    kept (copySettle id tw s) = kept s := by
  unfold copySettle
  (repeat' split) <;> simp

@[simp] theorem kept_stopCopy (id : FrameId) (tw : Bool) (why : StopWhy) (s : State) :
    kept (stopCopy id tw why s) = kept s := by
  unfold stopCopy
  (repeat' split) <;> simp

@[simp] theorem kept_errLog (d : Nat) (prt : Nat) (e : FabErr) (fences : Bool) (s : State) :
    kept (errLog d prt e fences s) = kept s := by
  unfold errLog
  dsimp only
  (repeat' split) <;> (try simp only) <;> simp

@[simp] theorem kept_hwError (d : Nat) (e : FabErr) (by_ : Option (FrameId × Bool)) (s : State) :
    kept (hwError d e by_ s) = kept s := by
  unfold hwError
  dsimp only
  (repeat' split) <;> simp [kept_foldl]

@[simp] theorem kept_modPlan (n : Nat) (p : Nat) (f : PlanRt → PlanRt) (s : State) :
    kept (modPlan n p f s) = kept s := by
  simp [modPlan]

@[simp] theorem kept_launchFired (n : Nat) (p : Nat) (k : Nat) (s : State) :
    kept (launchFired n p k s) = kept s := by
  simp [launchFired]

@[simp] theorem kept_launchFrame (f : Frame) (s : State) :
    kept (launchFrame f s) = kept s := by
  unfold launchFrame
  (repeat' split) <;> simp

@[simp] theorem kept_skipLaunch (n : Nat) (p : Nat) (k : Nat) (sched : Nat) (L : Nat) (s : State) :
    kept (skipLaunch n p k sched L s) = kept s := by
  simp [skipLaunch]

@[simp] theorem kept_execFrameLaunch (part : Fin 16) (plan : Nat) (s : State) :
    kept (stateOf (execFrameLaunch part plan s) s) = kept s := by
  unfold execFrameLaunch
  dsimp only
  (repeat' split) <;> simp

@[simp] theorem kept_execFrameStart (die : Fin 4) (s : State) :
    kept (stateOf (execFrameStart die s) s) = kept s := by
  simp [execFrameStart]

@[simp] theorem kept_execDeadlineExpiry (f : FrameId) (s : State) :
    kept (stateOf (execDeadlineExpiry f s) s) = kept s := by
  unfold execDeadlineExpiry
  (repeat' split) <;> simp [kept_foldl]

@[simp] theorem kept_execWaitDeadlineExpiry (f : FrameId) (s : State) :
    kept (stateOf (execWaitDeadlineExpiry f s) s) = kept s := by
  unfold execWaitDeadlineExpiry
  (repeat' split) <;> simp

@[simp] theorem kept_preempt (n : Nat) (g : Nat) (s : State) :
    kept (preempt n g s) = kept s := by
  unfold preempt
  (repeat' split) <;> simp [kept_foldl]

@[simp] theorem kept_openSlot (n : Nat) (g : Nat) (S : Nat) (start : Bool) (extra : Bool) (s : State) :
    kept (openSlot n g S start extra s) = kept s := by
  simp [openSlot]

@[simp] theorem kept_execTuningSlotOpen (part : Fin 16) (region : Nat) (s : State) :
    kept (stateOf (execTuningSlotOpen part region s) s) = kept s := by
  unfold execTuningSlotOpen
  dsimp only
  (repeat' split) <;> simp

@[simp] theorem kept_extraSlot (n : Nat) (g : Nat) (s : State) :
    kept (extraSlot n g s) = kept s := by
  simp [extraSlot]

@[simp] theorem kept_publishAll (f : Frame) (verdict : Nat) (reason : Nat) (refuse : Nat) (steps : Nat) (r : EvRec) (data : List Byte) (s : State) :
    kept (publishAll f verdict reason refuse steps r data s) = kept s := by
  simp [publishAll]

@[simp] theorem kept_modCap (p : Nat) (f : CapPort → CapPort) (s : State) :
    kept (modCap p f s) = kept s := by
  simp [modCap]

@[simp] theorem kept_capLevel (p : Nat) (s : State) :
    kept (capLevel p s) = kept s := by
  simp [capLevel]

@[simp] theorem kept_modEvt (i : Nat) (f : EvtIn → EvtIn) (s : State) :
    kept (modEvt i f s) = kept s := by
  simp [modEvt]

@[simp] theorem kept_capLevels (s : State) :
    kept (capLevels s) = kept s := by
  simp [capLevels, kept_foldl]

@[simp] theorem kept_capNap (s : State) :
    kept (capNap s) = kept s := by
  simp [capNap]

@[simp] theorem kept_capDReset (s : State) :
    kept (capDReset s) = kept s := by
  simp [capDReset]

@[simp] theorem kept_modFeed (n : Nat) (i : Nat) (f : Feed → Feed) (s : State) :
    kept (modFeed n i f s) = kept s := by
  simp [modFeed]

@[simp] theorem kept_feedWrite (n : Nat) (i : Nat) (o : Nat) (len : Nat) (s : State) :
    kept (feedWrite n i o len s) = kept s := by
  simp [feedWrite, kept_foldl]

@[simp] theorem kept_feedRows (n : Nat) (i : Nat) (a : Nat) (rows : List (List Int)) (s : State) :
    kept (feedRows n i a rows s) = kept s := by
  simp [feedRows, kept_foldl]

@[simp] theorem kept_feedBlock (n : Nat) (i : Nat) (seq : Nat) (stamp : Nat) (rows : List (List Int)) (s : State) :
    kept (feedBlock n i seq stamp rows s) = kept s := by
  simp [feedBlock]

@[simp] theorem kept_feedMessage (n : Nat) (i : Nat) (at_ : Nat) (rows : List (List Int)) (s : State) :
    kept (feedMessage n i at_ rows s) = kept s := by
  simp [feedMessage, kept_foldl]

@[simp] theorem kept_gapWrite (d : Nat) (c : Ctx) (upTo : Nat) (n : Nat) (s : State) :
    kept (gapWrite d c upTo n s) = kept s := by
  simp [gapWrite, kept_foldl]

@[simp] theorem kept_feedCtx (d : Nat) (c : Nat) (f : State → State) (s : State) (hf : ∀ s, kept (f s) = kept s) :
    kept (feedCtx d c f s) = kept s := by
  simp [feedCtx, hf]

@[simp] theorem kept_takeBlock (d : Nat) (sl : Nat) (e : Nat × Nat × Nat × Nat) (s : State) :
    kept (takeBlock d sl e s) = kept s := by
  simp [takeBlock]

@[simp] theorem kept_takeMessage (d : Nat) (m : MsgFeed) (s : State) :
    kept (takeMessage d m s) = kept s := by
  simp [takeMessage]

@[simp] theorem kept_feedArrives (d : Nat) (upTo : Nat) (s : State) :
    kept (feedArrives d upTo s) = kept s := by
  unfold feedArrives
  (repeat' split) <;> simp

@[simp] theorem kept_execCaptureBlock (port : Fin 16) (block : CapBlock) (s : State) :
    kept (stateOf (execCaptureBlock port block s) s) = kept s := by
  unfold execCaptureBlock
  dsimp only
  (repeat' split) <;> simp [kept_foldl]

@[simp] theorem kept_execFsLost (port : Fin 16) (s : State) :
    kept (stateOf (execFsLost port s) s) = kept s := by
  simp [execFsLost]

@[simp] theorem kept_execFsRegular (port : Fin 16) (s : State) :
    kept (stateOf (execFsRegular port s) s) = kept s := by
  simp [execFsRegular]

@[simp] theorem kept_evtAppend (n : Nat) (j : Nat) (stamp : Nat) (rising : Bool) (s : State) :
    kept (evtAppend n j stamp rising s) = kept s := by
  simp [evtAppend]

@[simp] theorem kept_execEvtEdge (i : Fin 8) (rising : Bool) (s : State) :
    kept (stateOf (execEvtEdge i rising s) s) = kept s := by
  simp [execEvtEdge, kept_foldl]

@[simp] theorem kept_execPpsInEdge (rising : Bool) (s : State) :
    kept (stateOf (execPpsInEdge rising s) s) = kept s := by
  simp [execPpsInEdge]

@[simp] theorem kept_execPpsOutRise (s : State) :
    kept (stateOf (execPpsOutRise s) s) = kept s := by
  simp [execPpsOutRise]

@[simp] theorem kept_execPpsOutFall (s : State) :
    kept (stateOf (execPpsOutFall s) s) = kept s := by
  simp [execPpsOutFall]

@[simp] theorem kept_feedEnds (h : Hdr) (i : Nat) (f : State → State) (left : List (Nat × Nat)) (status : Nat) (read : Bool) (s : State) (hf : ∀ s, kept (f s) = kept s) :
    kept (feedEnds h i f left status read s) = kept s := by
  simp [feedEnds, hf]

@[simp] theorem kept_execFeedSamples (h : Hdr) (ctx_ seq stamp era : Nat) (data : List Byte) (s : State) : kept (stateOf (execFeedSamples h ctx_ seq stamp era data s) s) = kept s := by
  unfold execFeedSamples
  rw [kept_command]
  intro s
  dsimp only
  rw [kept_feedEnds]
  intro s
  (repeat' split) <;> simp

@[simp] theorem kept_execFeedMessage (h : Hdr) (ctx_ rows : Nat) (data : List Byte) (s : State) : kept (stateOf (execFeedMessage h ctx_ rows data s) s) = kept s := by
  unfold execFeedMessage
  rw [kept_command]
  intro s
  dsimp only
  rw [kept_feedEnds]
  intro s
  (repeat' split) <;> simp

@[simp] theorem kept_execDescriptorWrite (die_ : Fin 4) (slot : Nat) (desc : List Byte) (s : State) :
    kept (stateOf (execDescriptorWrite die_ slot desc s) s) = kept s := by
  simp [execDescriptorWrite]

@[simp] theorem kept_execScanStateReset (die_ : Fin 4) (slot : Nat) (s : State) :
    kept (stateOf (execScanStateReset die_ slot s) s) = kept s := by
  simp [execScanStateReset]

@[simp] theorem kept_commitRows (d : Nat) (sl : Nat) (rows : Nat) (gap : Bool) (s : State) :
    kept (commitRows d sl rows gap s) = kept s := by
  simp [commitRows, kept_foldl]

@[simp] theorem kept_execDerivedCommit (die_ : Fin 4) (slot : Nat) (rows : Nat) (gap : Bool) (s : State) :
    kept (stateOf (execDerivedCommit die_ slot rows gap s) s) = kept s := by
  simp [execDerivedCommit]

@[simp] theorem kept_modCounts (id : FrameId) (tw : Bool) (f : Counts → Counts) (s : State) :
    kept (modCounts id tw f s) = kept s := by
  simp [modCounts]

@[simp] theorem kept_keepScan (f : Frame) (c : Copy) (o : Option (Nat × List Int)) (s : State) :
    kept (keepScan f c o s) = kept s := by
  unfold keepScan
  (repeat' split) <;> simp

@[simp] theorem kept_keepNext (f : Frame) (c : Copy) (o : Option (Nat × Nat)) (s : State) :
    kept (keepNext f c o s) = kept s := by
  unfold keepNext
  (repeat' split) <;> simp

@[simp] theorem kept_jobLeaves (d : Nat) (i : Nat) (f : Frame) (tw : Bool) (n : Nat) (r : OpRes) (shelf : List Host.Cell → List Host.Cell) (s : State) :
    kept (jobLeaves d i f tw n r shelf s) = kept s := by
  simp [jobLeaves]

@[simp] theorem kept_runJob (d i : Nat) (f : Frame) (tw : Bool) (c : Copy) (j : Job) (ups : List Upset) (s : State) :
    kept (runJob d i f tw c j ups s).1 = kept s := by
  unfold runJob
  dsimp only
  split
  · rfl
  · split
    · simp
    · split <;> simp
    · simp

@[simp] theorem kept_runJobs (d i : Nat) (f : Frame) (tw : Bool) (c : Copy) (ups : List Upset) (n : Nat) (l : List Job) (s : State) :
    kept (runJobs d i f tw c ups n l s).1 = kept s := by
  induction l generalizing n s with
  | nil => rfl
  | cons j r ih => unfold runJobs; simp [ih]

@[simp] theorem kept_execEngineBatch (die : Fin 4) (core : Nat) (cycles : Nat) (work : List Job) (obs : BatchObs) (err : Option FabErr) (s : State) :
    kept (stateOf (execEngineBatch die core cycles work obs err s) s) = kept s := by
  unfold execEngineBatch
  dsimp only
  (repeat' split) <;> simp

@[simp] theorem kept_poisonWords (d : Nat) (ws : List Nat) (s : State) :
    kept (poisonWords d ws s) = kept s := by
  simp [poisonWords, kept_foldl]

@[simp] theorem kept_cellarSeen (d : Nat) (found : EccOutcome) (s : State) :
    kept (cellarSeen d found s) = kept s := by
  unfold cellarSeen
  (repeat' split) <;> simp

@[simp] theorem kept_pegFault (d : Nat) (i : Nat) (f : Frame) (tw : Bool) (s : State) :
    kept (pegFault d i f tw s) = kept s := by
  simp [pegFault]

@[simp] theorem kept_dmaMove (d : Nat) (i : Nat) (t : Dma) (s : State) :
    kept (dmaMove d i t s) = kept s := by
  unfold dmaMove
  (repeat' split) <;> simp

@[simp] theorem kept_dmaFound (d : Nat) (i : Nat) (f : Frame) (tw : Bool) (t : Dma) (found : EccOutcome) (s : State) :
    kept (dmaFound d i f tw t found s) = kept s := by
  unfold dmaFound
  (repeat' split) <;> simp

@[simp] theorem kept_dmaRun (d : Nat) (i : Nat) (f : Frame) (tw : Bool) (t : Dma) (found : EccOutcome) (s : State) :
    kept (dmaRun d i f tw t found s) = kept s := by
  simp [dmaRun]

@[simp] theorem kept_dmaDrain (d : Nat) (i : Nat) (f : Frame) (tw : Bool) (s : State) :
    kept (dmaDrain d i f tw s) = kept s := by
  simp [dmaDrain, kept_foldl]

@[simp] theorem kept_execDmaTransfer (die : Fin 4) (core : Nat) (d : Dma) (found : EccOutcome) (s : State) :
    kept (stateOf (execDmaTransfer die core d found s) s) = kept s := by
  unfold execDmaTransfer
  dsimp only
  (repeat' split) <;> simp

@[simp] theorem kept_execBatchBoundary (die : Fin 4) (core : Nat) (s : State) :
    kept (stateOf (execBatchBoundary die core s) s) = kept s := by
  unfold execBatchBoundary
  dsimp only
  (repeat' split) <;> simp

@[simp] theorem kept_takeStock (id : FrameId) (tw : Bool) (s : State) :
    kept (takeStock id tw s) = kept s := by
  simp [takeStock]

@[simp] theorem kept_deltaFill (f : Frame) (c : Copy) (r : EvRec) (s : State) :
    kept ((deltaFill f c r s).2) = kept s := by
  unfold deltaFill
  (repeat' split) <;> simp

@[simp] theorem kept_judgedRecord (f : Frame) (e : EvRec) (s : State) :
    kept ((judgedRecord f e s).2) = kept s := by
  unfold judgedRecord
  dsimp only
  (repeat' split) <;> (try simp only) <;> simp

@[simp] theorem kept_publishNow (f : Frame) (verdict : Nat) (reason : Nat) (e : EvRec) (data : List Byte) (s : State) :
    kept (publishNow f verdict reason e data s) = kept s := by
  simp [publishNow]

@[simp] theorem kept_abortStored (f : Frame) (s : State) : kept (abortStored f s).2 = kept s := by
  simp [abortStored]

@[simp] theorem kept_publishMissing (f : Frame) (s : State) :
    kept (publishMissing f s) = kept s := by
  simp [publishMissing]

@[simp] theorem kept_toJudge (f : Frame) (s : State) :
    kept (toJudge f s) = kept s := by
  simp [toJudge]

@[simp] theorem kept_judgeReady (id : FrameId) (s : State) :
    kept (judgeReady id s) = kept s := by
  unfold judgeReady
  (repeat' split) <;> simp

@[simp] theorem kept_execResultPacket (f : FrameId) (partner : Bool) (offset : Nat) (data : List Byte) (s : State) :
    kept (stateOf (execResultPacket f partner offset data s) s) = kept s := by
  unfold execResultPacket
  (repeat' split) <;> simp

@[simp] theorem kept_execEvidPacket (f : FrameId) (partner : Bool) (bytes : List Byte) (s : State) :
    kept (stateOf (execEvidPacket f partner bytes s) s) = kept s := by
  unfold execEvidPacket
  (repeat' split) <;> simp

@[simp] theorem kept_execEvidenceWaitExpiry (f : FrameId) (s : State) :
    kept (stateOf (execEvidenceWaitExpiry f s) s) = kept s := by
  unfold execEvidenceWaitExpiry
  (repeat' split) <;> simp

@[simp] theorem kept_execResultWaitExpiry (f : FrameId) (s : State) :
    kept (stateOf (execResultWaitExpiry f s) s) = kept s := by
  unfold execResultWaitExpiry
  (repeat' split) <;> simp

@[simp] theorem kept_judgeFrame (f : Frame) (differ : Bool) (s : State) :
    kept (judgeFrame f differ s) = kept s := by
  simp [judgeFrame]

@[simp] theorem kept_execJudgement (differ : Bool) (s : State) :
    kept (stateOf (execJudgement differ s) s) = kept s := by
  unfold execJudgement
  dsimp only
  (repeat' split) <;> simp

@[simp] theorem kept_execJudgeSelftest (ok : Bool) (s : State) :
    kept (stateOf (execJudgeSelftest ok s) s) = kept s := by
  simp [execJudgeSelftest]

@[simp] theorem kept_modSnap (f : Snap → Snap) (s : State) :
    kept (modSnap f s) = kept s := by
  simp [modSnap]

@[simp] theorem kept_snapSettle (s : State) :
    kept (snapSettle s) = kept s := by
  simp [snapSettle]

@[simp] theorem kept_snapGone (d : Nat) (s : State) :
    kept (snapGone d s) = kept s := by
  simp [snapGone]

@[simp] theorem kept_snapPorts (s : State) :
    kept (snapPorts s) = kept s := by
  simp [snapPorts]

@[simp] theorem kept_snapRequest (v : Nat) (s : State) :
    kept (snapRequest v s) = kept s := by
  simp [snapRequest, kept_foldl]

@[simp] theorem kept_snapCounts (d : Nat) (s : State) :
    kept (snapCounts d s) = kept s := by
  simp [snapCounts, kept_foldl]

@[simp] theorem kept_snapDie (d : Nat) (id : Nat) (late : Bool) (s : State) :
    kept (snapDie d id late s) = kept s := by
  simp [snapDie]

@[simp] theorem kept_modKind (k : Nat) (f : Kind → Kind) (s : State) :
    kept (modKind k f s) = kept s := by
  simp [modKind]

@[simp] theorem kept_bootKind (k : Nat) (s : State) :
    kept (bootKind k s) = kept s := by
  simp [bootKind]

@[simp] theorem kept_wakeCore (d : Nat) (i : Nat) (s : State) :
    kept (wakeCore d i s) = kept s := by
  simp [wakeCore]

@[simp] theorem kept_wakeAll (d : Nat) (peg : Nat) (s : State) :
    kept (wakeAll d peg s) = kept s := by
  simp [wakeAll, kept_foldl]

@[simp] theorem kept_stepArrive (d : Nat) (n : Nat) (g : Nat) (c : Nat) (s : State) :
    kept (stepArrive d n g c s) = kept s := by
  simp [stepArrive, kept_foldl]

@[simp] theorem kept_execSliverDone (die : Fin 4) (core : Nat) (s : State) :
    kept (stateOf (execSliverDone die core s) s) = kept s := by
  unfold execSliverDone
  dsimp only
  (repeat' split) <;> simp

@[simp] theorem kept_pegSetTo (d : Nat) (peg : Nat) (p : Peg) (s : State) :
    kept (pegSetTo d peg p s) = kept s := by
  simp [pegSetTo]

@[simp] theorem kept_wakeTake (d : Nat) (peg : Nat) (p : Peg) (s : State) :
    kept (wakeTake d peg p s) = kept s := by
  unfold wakeTake
  (repeat' split) <;> simp

@[simp] theorem kept_pegWaits (d : Nat) (i : Nat) (peg : Nat) (s : State) :
    kept (pegWaits d i peg s) = kept s := by
  simp [pegWaits]

@[simp] theorem kept_pegOp (d i peg : Nat) (g : Peg → Option (State → State)) (s : State)
    (hg : ∀ p k, g p = some k → ∀ s, kept (k s) = kept s) : kept (pegOp d i peg g s) = kept s := by
  unfold pegOp
  split
  · rfl
  · split
    · rename_i k h
      obtain ⟨p, -, hp⟩ := Option.bind_eq_some_iff.mp h
      exact hg p k hp s
    · simp

@[simp] theorem kept_execPegArrive (die : Fin 4) (core peg : Nat) (s : State) :
    kept (stateOf (execPegArrive die core peg s) s) = kept s := by
  unfold execPegArrive
  rw [stateOf_next, kept_pegOp]
  intro p k h s
  try dsimp only at h
  (repeat' split at h) <;> cases h <;> simp

@[simp] theorem kept_execPegWait (die : Fin 4) (core peg : Nat) (s : State) :
    kept (stateOf (execPegWait die core peg s) s) = kept s := by
  unfold execPegWait
  rw [stateOf_next, kept_pegOp]
  intro p k h s
  try dsimp only at h
  (repeat' split at h) <;> cases h <;> simp

@[simp] theorem kept_execPegPost (die : Fin 4) (core peg : Nat) (s : State) :
    kept (stateOf (execPegPost die core peg s) s) = kept s := by
  unfold execPegPost
  rw [stateOf_next, kept_pegOp]
  intro p k h s
  try dsimp only at h
  (repeat' split at h) <;> cases h <;> simp

@[simp] theorem kept_execPegTake (die : Fin 4) (core peg : Nat) (s : State) :
    kept (stateOf (execPegTake die core peg s) s) = kept s := by
  unfold execPegTake
  rw [stateOf_next, kept_pegOp]
  intro p k h s
  try dsimp only at h
  (repeat' split at h) <;> cases h <;> simp

@[simp] theorem kept_execPegSet (die : Fin 4) (core peg : Nat) (s : State) :
    kept (stateOf (execPegSet die core peg s) s) = kept s := by
  unfold execPegSet
  rw [stateOf_next, kept_pegOp]
  intro p k h s
  try dsimp only at h
  (repeat' split at h) <;> cases h <;> simp

@[simp] theorem kept_execCellarScrub (die_ : Fin 4) (block : Nat) (found : List EccOutcome) (passDone : Bool) (s : State) :
    kept (stateOf (execCellarScrub die_ block found passDone s) s) = kept s := by
  simp [execCellarScrub, kept_foldl]

@[simp] theorem kept_execWritePacket (die_ : Fin 4) (src : Nat) (addr : Nat) (data : List Byte) (s : State) :
    kept (stateOf (execWritePacket die_ src addr data s) s) = kept s := by
  simp [execWritePacket]

@[simp] theorem kept_resultPackets (d n tag : Nat) (b : List Byte) (s : State) : kept (resultPackets d n tag b s) = kept s := by
  induction n generalizing tag b s with
  | zero => rfl
  | succ n ih => unfold resultPackets; split <;> simp [ih]

@[simp] theorem kept_copyEnds (f : Frame) (tw : Bool) (c : Copy) (outs : List Tensor) (s : State) :
    kept (copyEnds f tw c outs s) = kept s := by
  simp [copyEnds]

@[simp] theorem kept_execRegionEnd (die : Fin 4) (f : FrameId) (partner : Bool) (hit : Option (Nat × Nat)) (outs : List Tensor) (s : State) :
    kept (stateOf (execRegionEnd die f partner hit outs s) s) = kept s := by
  unfold execRegionEnd
  (repeat' split) <;> simp

@[simp] theorem kept_execAlarmAssert (die_ : Fin 4) (err : FabErr) (s : State) :
    kept (stateOf (execAlarmAssert die_ err s) s) = kept s := by
  unfold execAlarmAssert
  (repeat' split) <;> simp

@[simp] theorem kept_alarmClear (d : Nat) (s : State) :
    kept (alarmClear d s) = kept s := by
  simp [alarmClear]

@[simp] theorem kept_execAlarmClear (die_ : Fin 4) (s : State) :
    kept (stateOf (execAlarmClear die_ s) s) = kept s := by
  unfold execAlarmClear
  dsimp only
  (repeat' split) <;> simp

@[simp] theorem kept_execReadCause (die_ : Fin 4) (s : State) :
    kept (stateOf (execReadCause die_ s) s) = kept s := by
  unfold execReadCause
  dsimp only
  (repeat' split) <;> simp

@[simp] theorem kept_reslices (d : Nat) (c : Nat) (s : State) :
    kept (reslices d c s) = kept s := by
  unfold reslices
  (repeat' split) <;> simp

@[simp] theorem kept_abortEntry (id : FrameId) (s : State) :
    kept (abortEntry id s) = kept s := by
  unfold abortEntry
  (repeat' split) <;> simp

@[simp] theorem kept_notReplayed (id : FrameId) (s : State) :
    kept (notReplayed id s) = kept s := by
  simp [notReplayed]

@[simp] theorem kept_replayOrPublish (d : Nat) (id : FrameId) (s : State) :
    kept (replayOrPublish d id s) = kept s := by
  unfold replayOrPublish
  (repeat' split) <;> simp [kept_snd_ite]

@[simp] theorem kept_restage (d : Nat) (errs : List FabErr) (c : Nat) (s : State) :
    kept (restage d errs c s) = kept s := by
  unfold restage
  dsimp only
  (repeat' split) <;> (try simp only) <;> simp [kept_foldl]

@[simp] theorem kept_replayLost (f : Frame) (s : State) :
    kept (replayLost f s) = kept s := by
  unfold replayLost
  (repeat' split) <;> simp

@[simp] theorem kept_replaysLost (s : State) :
    kept (replaysLost s) = kept s := by
  simp [replaysLost, kept_foldl]

@[simp] theorem kept_fenceMoves (d : Nat) (defer : Bool) (s : State) :
    kept (fenceMoves d defer s) = kept s := by
  simp [fenceMoves]

@[simp] theorem kept_fenceSeq (d : Nat) (q : FenceSeq) (s : State) :
    kept (fenceSeq d q s) = kept s := by
  unfold fenceSeq
  dsimp only
  repeat' first | with_reducible rfl | intro _ | (simp; done) | split | rw [kept_foldl] | simp

@[simp] theorem kept_liveOnly (d : Nat) (c : Nat) (k : Nat) (s : State) :
    kept (liveOnly d c k s) = kept s := by
  unfold liveOnly
  dsimp only
  (repeat' split) <;> (try simp only) <;> simp

@[simp] theorem kept_fenceCommand (d : Nat) (e : Hdr × Nat × Nat × Bool) (s : State) :
    kept (fenceCommand d e s) = kept s := by
  simp [fenceCommand]

@[simp] theorem kept_execFence (die_ : Fin 4) (s : State) : kept (stateOf (execFence die_ s) s) = kept s := by
  unfold execFence
  rw [stateOf_next]
  split <;> rw [kept_cmdArrives] <;> intro s <;> simp

@[simp] theorem kept_execFenceCore (h : Hdr) (die : Nat) (cluster : Nat) (core : Nat) (s : State) :
    kept (stateOf (execFenceCore h die cluster core s) s) = kept s := by
  simp [execFenceCore]

@[simp] theorem kept_lostTwin (d : Nat) (id : FrameId) (s : State) :
    kept (lostTwin d id s) = kept s := by
  unfold lostTwin
  (repeat' split) <;> simp

@[simp] theorem kept_lostFrame (d : Nat) (id : FrameId) (s : State) :
    kept (lostFrame d id s) = kept s := by
  unfold lostFrame
  dsimp only
  (repeat' split) <;> simp

@[simp] theorem kept_dieLinksDown (d : Nat) (s : State) :
    kept (dieLinksDown d s) = kept s := by
  simp [dieLinksDown]

@[simp] theorem kept_endFenceCmds (d : Nat) (s : State) :
    kept (endFenceCmds d s) = kept s := by
  simp [endFenceCmds, kept_foldl]

@[simp] theorem kept_uploadsLost (d : Nat) (s : State) :
    kept (uploadsLost d s) = kept s := by
  simp [uploadsLost]

@[simp] theorem kept_holdInReset (d : Nat) (s : State) :
    kept (holdInReset d s) = kept s := by
  simp [holdInReset]

@[simp] theorem kept_dResetLost (d : Nat) (s : State) :
    kept (dResetLost d s) = kept s := by
  unfold dResetLost
  (repeat' split) <;> simp

@[simp] theorem kept_dieAbsent (d : Nat) (cause : Nat) (s : State) :
    kept (dieAbsent d cause s) = kept s := by
  simp [dieAbsent, kept_foldl]

@[simp] theorem kept_execAlarmHoldExpiry (die_ : Fin 4) (s : State) :
    kept (stateOf (execAlarmHoldExpiry die_ s) s) = kept s := by
  simp [execAlarmHoldExpiry]

@[simp] theorem kept_execDieUnreachable (die_ : Fin 4) (s : State) :
    kept (stateOf (execDieUnreachable die_ s) s) = kept s := by
  simp [execDieUnreachable]

@[simp] theorem kept_execLaunchCmd (die_ : Fin 4) (f : FrameId) (instant : Nat) (s : State) :
    kept (stateOf (execLaunchCmd die_ f instant s) s) = kept s := by
  simp [execLaunchCmd]

@[simp] theorem kept_linksTrain (d : Nat) (s : State) :
    kept (linksTrain d s) = kept s := by
  simp [linksTrain]

@[simp] theorem kept_codePackets (d k i : Nat) (b : List Byte) (s : State) : kept (codePackets d k i b s) = kept s := by
  induction k generalizing i b s with
  | zero => rfl
  | succ k ih => unfold codePackets; split <;> simp [ih]

@[simp] theorem kept_sendCode (d : Nat) (b : List Byte) (s : State) :
    kept (sendCode d b s) = kept s := by
  simp [sendCode]

@[simp] theorem kept_selfTestBegins (d : Nat) (s : State) :
    kept (selfTestBegins d s) = kept s := by
  simp [selfTestBegins]

@[simp] theorem kept_execCodePacket (die_ : Fin 4) (kind : CodeKind) (code : List Byte) (s : State) :
    kept (stateOf (execCodePacket die_ kind code s) s) = kept s := by
  unfold execCodePacket
  (repeat' split) <;> simp

@[simp] theorem kept_execRegionReloadDone (part_ : Fin 16) (region : Nat) (partner : Bool) (s : State) :
    kept (stateOf (execRegionReloadDone part_ region partner s) s) = kept s := by
  simp [execRegionReloadDone]

end Sys2Proof.Machine
end

