-- ==== Sys2Proof/Laws/KeptTop.lean ====
section
/-! SUPPORT. Laws/KeptTop.lean: the operations of loading, scheduling, start-up, registers, updates and seats that keep it. -/

namespace Sys2Proof.Machine

@[simp] theorem kept_sendDescriptors (n d : Nat) (s : State) : kept (sendDescriptors n d s) = kept s := by
  unfold sendDescriptors
  split
  · rfl
  · rw [kept_foldl]
    intro s i
    split <;> simp

@[simp] theorem kept_sendLoad (n d : Nat) (l : Layout) (s : State) : kept (sendLoad n d l s) = kept s := by
  unfold sendLoad
  dsimp only
  rw [kept_sendDescriptors, kept_foldl, kept_foldl, kept_modDie]
  · intro s a; simp
  · intro s g
    split
    · rw [kept_foldl]; intro s p; simp
    · rfl

@[simp] theorem kept_dResetSettle (d : Nat) (s : State) :
    kept (dResetSettle d s) = kept s := by
  unfold dResetSettle
  dsimp only
  (repeat' split) <;> (try simp only) <;> simp

@[simp] theorem kept_configurePorts (r : StreamRec) (s : State) :
    kept (configurePorts r s) = kept s := by
  simp [configurePorts, kept_foldl]

@[simp] theorem kept_freePorts (l : Layout) (s : State) :
    kept (freePorts l s) = kept s := by
  simp [freePorts, kept_foldl]

@[simp] theorem kept_layLast (n : Nat) (status : Nat) (idx : Nat) (s : State) :
    kept (layLast n status idx s) = kept s := by
  simp [layLast]

@[simp] theorem kept_beginLoad (n seat : Nat) (y : Layout) (xs : List (RegionRt × Nat)) (b : List Byte) (h : Option Hdr) (s : State) :
    kept (beginLoad n seat y xs b h s) = kept s := by
  unfold beginLoad
  dsimp only
  rw [kept_foldl, kept_reserve, kept_modPart]
  intro s d
  split <;> simp

@[simp] theorem kept_seatLast (n : Nat) (s : State) :
    kept (seatLast n s) = kept s := by
  simp [seatLast]

@[simp] theorem kept_execLoad (h : Hdr) (stream : List Byte) (s : State) :
    kept (stateOf (execLoad h stream s) s) = kept s := by
  simp [execLoad]

@[simp] theorem kept_loadRefused (n : Nat) (status : Nat) (idx : Nat) (s : State) :
    kept (loadRefused n status idx s) = kept s := by
  unfold loadRefused
  dsimp only
  (repeat' split) <;> simp

@[simp] theorem kept_loadAbandoned (n : Nat) (s : State) :
    kept (loadAbandoned n s) = kept s := by
  simp [loadAbandoned]

theorem kept_resettle (n g : Nat) (s t : State) (h : resettle n g s = some t) : kept t = kept s := by
  unfold resettle at h
  dsimp only at h
  generalize hs : (if partnerHolds s n g then s else modRegion n g (fun x => { x with pClusters := (partnerTarget s n g).getD [] }) s) = u at h
  have hu : kept u = kept s := by rw [← hs]; split <;> simp
  rw [← hu]
  split at h
  · cases h; rfl
  · obtain ⟨x, -, rfl⟩ := Option.map_eq_some_iff.mp h
    simp

theorem kept_resettleAll (n k : Nat) (s t : State) (h : resettleAll n k s = some t) : kept t = kept s := by
  induction k generalizing t with
  | zero => cases h; rfl
  | succ k ih =>
    obtain ⟨u, hu, hv⟩ := Option.bind_eq_some_iff.mp h
    exact (kept_resettle _ _ _ _ hv).trans (ih u hu)

@[simp] theorem kept_stageRegion (n : Nat) (g : Nat) (s : State) :
    kept (stageRegion n g s) = kept s := by
  simp [stageRegion]

@[simp] theorem kept_loadEnds (n : Nat) (l : Layout) (g : Loading) (s : State) :
    kept (loadEnds n l g s) = kept s := by
  unfold loadEnds
  (repeat' split) <;> simp [kept_foldl]

@[simp] theorem kept_loadFinish (n : Nat) (badCode : Option Nat) (s : State) : kept (loadFinish n badCode s) = kept s := by
  unfold loadFinish
  split
  · rfl
  · dsimp only
    split
    · simp
    · split
      · simp
      · split
        · rfl
        · split
          · simp
          · rename_i h
            rw [kept_loadEnds, kept_resettleAll _ _ _ _ h, kept_modPart]

@[simp] theorem kept_startPart (n : Nat) (s : State) :
    kept (startPart n s) = kept s := by
  unfold startPart
  (repeat' split) <;> simp [kept_foldl]

@[simp] theorem kept_execStart (h : Hdr) (s : State) :
    kept (stateOf (execStart h s) s) = kept s := by
  simp [execStart]

@[simp] theorem kept_stopFrame (f : Frame) (s : State) :
    kept (stopFrame f s) = kept s := by
  simp [stopFrame]

@[simp] theorem kept_quietPart (n : Nat) (s : State) :
    kept (quietPart n s) = kept s := by
  simp [quietPart, kept_foldl]

@[simp] theorem kept_stopPart (n : Nat) (s : State) :
    kept (stopPart n s) = kept s := by
  simp [stopPart]

@[simp] theorem kept_execStop (h : Hdr) (s : State) :
    kept (stateOf (execStop h s) s) = kept s := by
  simp [execStop]

@[simp] theorem kept_execStopComplete (part_ : Fin 16) (s : State) :
    kept (stateOf (execStopComplete part_ s) s) = kept s := by
  simp [execStopComplete, kept_foldl]

@[simp] theorem kept_execAutostart (part_ : Fin 16) (s : State) :
    kept (stateOf (execAutostart part_ s) s) = kept s := by
  simp [execAutostart]

@[simp] theorem kept_execUnload (h : Hdr) (s : State) :
    kept (stateOf (execUnload h s) s) = kept s := by
  simp [execUnload]

@[simp] theorem kept_execUnloadComplete (part_ : Fin 16) (s : State) : kept (stateOf (execUnloadComplete part_ s) s) = kept s := by
  unfold execUnloadComplete
  dsimp only
  rw [stateOf_next]
  have h (l : Option Layout) (t : State) : kept ((l.map fun l => freePorts l t).getD t) = kept t := by cases l <;> simp
  split
  · rfl
  · split
    · rfl
    · simp [h]

@[simp] theorem kept_enterService (s : State) :
    kept (enterService s) = kept s := by
  simp [enterService, kept_foldl]

@[simp] theorem kept_loadStored (l : List Stored) (s : State) : kept (loadStored l s) = kept s := by
  induction l generalizing s with
  | nil => simp [loadStored]
  | cons x r ih =>
    unfold loadStored
    dsimp only
    split
    · simp
    · rw [ih, kept_modPart]

@[simp] theorem kept_execLoadComplete (part_ : Fin 16) (badCode : Option Nat) (s : State) :
    kept (stateOf (execLoadComplete part_ badCode s) s) = kept s := by
  unfold execLoadComplete
  dsimp only
  (repeat' split) <;> simp

@[simp] theorem kept_flashDone (k n : Nat) (s : State) : kept (flashDone k n s) = kept s := by
  induction k generalizing s with
  | zero => rfl
  | succ k ih =>
    unfold flashDone
    split
    · rfl
    · dsimp only
      split
      · rw [ih, kept_complete]; rfl
      · rw [kept_complete]; rfl

@[simp] theorem kept_execStoreLayout (h : Hdr) (stream : List Byte) (s : State) :
    kept (stateOf (execStoreLayout h stream s) s) = kept s := by
  simp [execStoreLayout]

@[simp] theorem kept_execStoreLayoutComplete (part_ : Fin 16) (s : State) :
    kept (stateOf (execStoreLayoutComplete part_ s) s) = kept s := by
  simp [execStoreLayoutComplete]

@[simp] theorem kept_execEraseLayout (h : Hdr) (s : State) : kept (stateOf (execEraseLayout h s) s) = kept s := by
  unfold execEraseLayout
  rw [kept_command]
  intro s
  dsimp only
  (repeat' split) <;> first | rfl | (rw [kept_flashDone]; rfl) | simp

@[simp] theorem kept_uploadEffect (new : Upload) (add : List Nat) (s : State) :
    kept (uploadEffect new add s) = kept s := by
  simp [uploadEffect, kept_foldl]

@[simp] theorem kept_uploadsCut (x : Seat) (s : State) :
    kept (uploadsCut x s) = kept s := by
  unfold uploadsCut
  dsimp only
  repeat' first | with_reducible rfl | intro _ | (simp; done) | split | rw [kept_foldl] | simp

@[simp] theorem kept_execUploadConst (h : Hdr) (dieMask : Nat) (body : List Byte) (s : State) :
    kept (stateOf (execUploadConst h dieMask body s) s) = kept s := by
  simp [execUploadConst]

@[simp] theorem kept_execReleaseConst (h : Hdr) (digest : List Byte) (s : State) : kept (stateOf (execReleaseConst h digest s) s) = kept s := by
  unfold execReleaseConst
  rw [kept_command]
  intro s
  dsimp only
  rw [kept_finish]
  intro s
  rfl

@[simp] theorem kept_execSetResultRing (h : Hdr) (cq : Nat) (s : State) :
    kept (stateOf (execSetResultRing h cq s) s) = kept s := by
  simp [execSetResultRing]

@[simp] theorem kept_modNet (p : Nat) (f : NetPort → NetPort) (s : State) :
    kept (modNet p f s) = kept s := by
  simp [modNet]

@[simp] theorem kept_netSend (p : Nat) (e : TxReq × Bool) (s : State) :
    kept (netSend p e s) = kept s := by
  simp [netSend]

theorem kept_netHead (p : Nat) (e : TxReq × Bool) (s t : State) (h : netHead p e s = some t) : kept t = kept s := by
  unfold netHead at h
  dsimp only at h
  split at h
  · cases h; simp
  · split at h
    · cases h
    · split at h <;> cases h <;> simp

@[simp] theorem kept_netPump (n p : Nat) (s : State) : kept (netPump n p s) = kept s := by
  induction n generalizing s with
  | zero => rfl
  | succ n ih =>
    unfold netPump
    split
    · rfl
    · cases h : netHead p _ s with
      | none => rfl
      | some t => exact (ih t).trans (kept_netHead _ _ _ _ h)

@[simp] theorem kept_netQueue (p : Nat) (e : TxReq × Bool) (s : State) :
    kept (netQueue p e s) = kept s := by
  simp [netQueue]

@[simp] theorem kept_netStep (p : Nat) (amount : Int) (s : State) :
    kept (netStep p amount s) = kept s := by
  simp [netStep]

@[simp] theorem kept_execEthTransmitRequest (port : Fin 2) (r : TxReq) (s : State) :
    kept (stateOf (execEthTransmitRequest port r s) s) = kept s := by
  simp [execEthTransmitRequest]

@[simp] theorem kept_execEthTransmitLaunch (port : Fin 2) (s : State) :
    kept (stateOf (execEthTransmitLaunch port s) s) = kept s := by
  unfold execEthTransmitLaunch
  (repeat' split) <;> simp

@[simp] theorem kept_syncSample (p : Nat) (t1 : Int) (t2 : Int) (corr : Int) (s : State) :
    kept (syncSample p t1 t2 corr s) = kept s := by
  simp [syncSample]

@[simp] theorem kept_delaySample (p : Nat) (d : Int) (t3 : Int) (t4 : Int) (corr : Int) (s : State) :
    kept (delaySample p d t3 t4 corr s) = kept s := by
  simp [delaySample]

@[simp] theorem kept_pdelaySample (p : Nat) (t1 : Int) (t2 : Int) (t3 : Int) (t4 : Int) (corr : Int) (s : State) :
    kept (pdelaySample p t1 t2 t3 t4 corr s) = kept s := by
  simp [pdelaySample]

@[simp] theorem kept_ptpEngine (p : Nat) (m : PtpMsg) (s : State) :
    kept (ptpEngine p m s) = kept s := by
  unfold ptpEngine
  (repeat' split) <;> simp

@[simp] theorem kept_ptpReceived (port : Nat) (m : PtpMsg) (s : State) :
    kept (ptpReceived port m s) = kept s := by
  simp [ptpReceived]

@[simp] theorem kept_execPtpMessageReceive (port : Fin 2) (m : PtpMsg) (s : State) :
    kept (stateOf (execPtpMessageReceive port m s) s) = kept s := by
  unfold execPtpMessageReceive
  (repeat' split) <;> simp

@[simp] theorem kept_execEthLinkUp (port : Fin 2) (tenGig : Bool) (s : State) :
    kept (stateOf (execEthLinkUp port tenGig s) s) = kept s := by
  simp [execEthLinkUp]

@[simp] theorem kept_execEthLinkLoss (port : Fin 2) (s : State) :
    kept (stateOf (execEthLinkLoss port s) s) = kept s := by
  simp [execEthLinkLoss]

@[simp] theorem kept_execEthLinkTryTimeout (port : Fin 2) (s : State) :
    kept (stateOf (execEthLinkTryTimeout port s) s) = kept s := by
  simp [execEthLinkTryTimeout]

@[simp] theorem kept_netCfgEffect (port : Nat) (addr : Word) (mask : Word) (gw : Word) (tscfg : Word) (s : State) :
    kept (netCfgEffect port addr mask gw tscfg s) = kept s := by
  simp [netCfgEffect]

@[simp] theorem kept_execNetCfg (h : Hdr) (port : Nat) (addr : Word) (mask : Word) (gw : Word) (tscfg : Word) (s : State) :
    kept (stateOf (execNetCfg h port addr mask gw tscfg s) s) = kept s := by
  simp [execNetCfg]

@[simp] theorem kept_pairDiag (kind : Nat) (group : Nat) (half : Nat) (bit_ : Nat) (s : State) :
    kept (pairDiag kind group half bit_ s) = kept s := by
  simp [pairDiag]

@[simp] theorem kept_gateHold (a : Nat) (v : Word) (s : State) :
    kept (gateHold a v s) = kept s := by
  simp [gateHold]

@[simp] theorem kept_resync (s : State) :
    kept (resync s) = kept s := by
  simp [resync]

@[simp] theorem kept_pathFault (kind : Nat) (group : Nat) (half : Nat) (bit_ : Nat) (s : State) :
    kept (pathFault kind group half bit_ s) = kept s := by
  simp [pathFault]

@[simp] theorem kept_tapTest (r : TapResult) (s : State) :
    kept (tapTest r s) = kept s := by
  simp [tapTest]

@[simp] theorem kept_coreMismatch (kind : Nat) (group : Nat) (bit_ : Nat) (s : State) :
    kept (coreMismatch kind group bit_ s) = kept s := by
  simp [coreMismatch]

@[simp] theorem kept_execCoreMismatch (lowBit : Fin 128) (s : State) :
    kept (stateOf (execCoreMismatch lowBit s) s) = kept s := by
  simp [execCoreMismatch]

@[simp] theorem kept_execStateTap (main : List Word) (checker : List Word) (s : State) :
    kept (stateOf (execStateTap main checker s) s) = kept s := by
  simp [execStateTap]

@[simp] theorem kept_execTapTest (halfA : Bool) (halfB : Bool) (s : State) :
    kept (stateOf (execTapTest halfA halfB s) s) = kept s := by
  simp [execTapTest]

@[simp] theorem kept_execComparePathFault (f : PathFault) (s : State) :
    kept (stateOf (execComparePathFault f s) s) = kept s := by
  unfold execComparePathFault
  (repeat' split) <;> simp

@[simp] theorem kept_execInputDisagree (group : Fin 3) (s : State) :
    kept (stateOf (execInputDisagree group s) s) = kept s := by
  simp [execInputDisagree]

@[simp] theorem kept_execInputStuck (group : Fin 3) (s : State) :
    kept (stateOf (execInputStuck group s) s) = kept s := by
  simp [execInputStuck]

@[simp] theorem kept_execCacheParity (s : State) :
    kept (stateOf (execCacheParity s) s) = kept s := by
  simp [execCacheParity]

@[simp] theorem kept_memUncorrectable (s : State) :
    kept (memUncorrectable s) = kept s := by
  simp [memUncorrectable]

@[simp] theorem kept_modUser (n : Nat) (f : UserTask → UserTask) (s : State) :
    kept (modUser n f s) = kept s := by
  simp [modUser]

@[simp] theorem kept_userFault (n : Nat) (cause : Nat) (s : State) :
    kept (userFault n cause s) = kept s := by
  simp [userFault]

@[simp] theorem kept_execMemoryUncorrectable (mem : CxMem) (addr : Nat) (s : State) :
    kept (stateOf (execMemoryUncorrectable mem addr s) s) = kept s := by
  unfold execMemoryUncorrectable
  (repeat' split) <;> simp

@[simp] theorem kept_execCompanionScrub (_mem : CxMem) (_addr : Nat) (found : EccOutcome) (s : State) :
    kept (stateOf (execCompanionScrub _mem _addr found s) s) = kept s := by
  unfold execCompanionScrub
  (repeat' split) <;> simp

@[simp] theorem kept_journalReplay (s : State) :
    kept (journalReplay s) = kept s := by
  simp [journalReplay]

@[simp] theorem kept_coresRan (s : State) :
    kept (coresRan s) = kept s := by
  simp [coresRan]

@[simp] theorem kept_debugHalts (s : State) :
    kept (debugHalts s) = kept s := by
  simp [debugHalts]

@[simp] theorem kept_debugResumes (s : State) :
    kept (debugResumes s) = kept s := by
  simp [debugResumes]

@[simp] theorem kept_debugSteps (s : State) :
    kept (debugSteps s) = kept s := by
  simp [debugSteps]

@[simp] theorem kept_debugDelivered (r : DbgReq) (s : State) :
    kept (debugDelivered r s) = kept s := by
  unfold debugDelivered
  (repeat' split) <;> simp

@[simp] theorem kept_debugRequest (r : DbgReq) (s : State) :
    kept (debugRequest r s) = kept s := by
  simp [debugRequest]

@[simp] theorem kept_execDebugHalt (s : State) :
    kept (stateOf (execDebugHalt s) s) = kept s := by
  simp [execDebugHalt]

@[simp] theorem kept_execDebugResume (s : State) :
    kept (stateOf (execDebugResume s) s) = kept s := by
  simp [execDebugResume]

@[simp] theorem kept_execDebugStep (s : State) :
    kept (stateOf (execDebugStep s) s) = kept s := by
  simp [execDebugStep]

@[simp] theorem kept_execInputAgreement (group : Fin 3) (value : Word) (s : State) :
    kept (stateOf (execInputAgreement group value s) s) = kept s := by
  unfold execInputAgreement
  (repeat' split) <;> simp

@[simp] theorem kept_execAbstractRead (r : DbgReg) (s : State) :
    kept (stateOf (execAbstractRead r s) s) = kept s := by
  simp [execAbstractRead]

@[simp] theorem kept_lockstepEnds (h : Hdr) (status : Nat) (s : State) :
    kept (lockstepEnds h status s) = kept s := by
  simp [lockstepEnds]

@[simp] theorem kept_checkerTargetEnds (s : State) :
    kept (checkerTargetEnds s) = kept s := by
  simp [checkerTargetEnds, kept_foldl]

@[simp] theorem kept_execTaskFault (slot : Fin 8) (mcause : Word) (s : State) :
    kept (stateOf (execTaskFault slot mcause s) s) = kept s := by
  simp [execTaskFault]

@[simp] theorem kept_execTaskBudgetExpiry (slot : Fin 8) (s : State) :
    kept (stateOf (execTaskBudgetExpiry slot s) s) = kept s := by
  simp [execTaskBudgetExpiry]

@[simp] theorem kept_execTaskBudgetRenewal (slot : Fin 8) (s : State) :
    kept (stateOf (execTaskBudgetRenewal slot s) s) = kept s := by
  simp [execTaskBudgetRenewal]

@[simp] theorem kept_checkinService (n : Nat) (s : State) :
    kept (checkinService n s) = kept s := by
  simp [checkinService]

@[simp] theorem kept_execCheckinService (slot : Fin 64) (s : State) :
    kept (stateOf (execCheckinService slot s) s) = kept s := by
  simp [execCheckinService]

@[simp] theorem kept_execOkayPeriodBoundary (s : State) :
    kept (stateOf (execOkayPeriodBoundary s) s) = kept s := by
  simp [execOkayPeriodBoundary]

@[simp] theorem kept_execSafeReqN (lowNs : Nat) (s : State) :
    kept (stateOf (execSafeReqN lowNs s) s) = kept s := by
  unfold execSafeReqN
  dsimp only
  (repeat' split) <;> simp

@[simp] theorem kept_execSafeReqNRelease (s : State) :
    kept (stateOf (execSafeReqNRelease s) s) = kept s := by
  simp [execSafeReqNRelease]

@[simp] theorem kept_sealFault (kind : Nat) (pair : Nat) (s : State) :
    kept (sealFault kind pair s) = kept s := by
  simp [sealFault]

@[simp] theorem kept_execSealReread (samples : List Balls) (s : State) :
    kept (stateOf (execSealReread samples s) s) = kept s := by
  unfold execSealReread
  dsimp only
  (repeat' split) <;> simp

@[simp] theorem kept_execOkayRelease (h : Hdr) (s : State) : kept (stateOf (execOkayRelease h s) s) = kept s := by
  unfold execOkayRelease
  rw [kept_command]
  intro s
  rw [kept_finish]
  intro s
  simp

@[simp] theorem kept_telegramOn (p : Nat) (r : TxReq) (s : State) :
    kept (telegramOn p r s) = kept s := by
  simp [telegramOn]

@[simp] theorem kept_execTelegramBuild (inTime : Bool) (s : State) :
    kept (stateOf (execTelegramBuild inTime s) s) = kept s := by
  simp [execTelegramBuild]

@[simp] theorem kept_telegramUse (b : List Byte) (s : State) :
    kept (telegramUse b s) = kept s := by
  simp [telegramUse]

@[simp] theorem kept_pairJudged (f : State → State) (s : State) (hf : ∀ s, kept (f s) = kept s) :
    kept (pairJudged f s) = kept s := by
  simp [pairJudged, hf]

@[simp] theorem kept_pairBoth (a : List Byte) (b : List Byte) (s : State) :
    kept (pairBoth a b s) = kept s := by
  simp [pairBoth]

@[simp] theorem kept_pairOne (l : List (List Byte)) (s : State) : kept (pairOne l s) = kept s := by
  unfold pairOne
  rw [kept_pairJudged]
  intro s
  (repeat' split) <;> simp

@[simp] theorem kept_execTelegramCopyReceive (port : Fin 2) (bytes : List Byte) (s : State) :
    kept (stateOf (execTelegramCopyReceive port bytes s) s) = kept s := by
  unfold execTelegramCopyReceive
  dsimp only
  (repeat' split) <;> simp

@[simp] theorem kept_execTelegramWaitExpiry (s : State) :
    kept (stateOf (execTelegramWaitExpiry s) s) = kept s := by
  unfold execTelegramWaitExpiry
  (repeat' split) <;> simp

@[simp] theorem kept_execTelegramRxTimeout (s : State) :
    kept (stateOf (execTelegramRxTimeout s) s) = kept s := by
  simp [execTelegramRxTimeout]

@[simp] theorem kept_telegramEffect (c : TgCfg) (s : State) :
    kept (telegramEffect c s) = kept s := by
  simp [telegramEffect]

@[simp] theorem kept_execTelegram (h : Hdr) (cfg : TgCfg) (s : State) :
    kept (stateOf (execTelegram h cfg s) s) = kept s := by
  simp [execTelegram]

@[simp] theorem kept_slotEffect (c : SlotCfg) (s : State) :
    kept (slotEffect c s) = kept s := by
  simp [slotEffect]

@[simp] theorem kept_slotAgain (c : SlotCfg) (s : State) :
    kept (slotAgain c s) = kept s := by
  simp [slotAgain]

@[simp] theorem kept_execSlot (h : Hdr) (cfg : SlotCfg) (s : State) :
    kept (stateOf (execSlot h cfg s) s) = kept s := by
  simp [execSlot]

@[simp] theorem kept_execTimeStep (src : TimeSrc) (base : Nat) (amount : Int) (s : State) :
    kept (stateOf (execTimeStep src base amount s) s) = kept s := by
  simp [execTimeStep]

@[simp] theorem kept_execTimeAdopt (src : TimeSrc) (base : Nat) (s : State) :
    kept (stateOf (execTimeAdopt src base s) s) = kept s := by
  simp [execTimeAdopt]

@[simp] theorem kept_execTimeDismiss (src : TimeSrc) (base : Nat) (s : State) :
    kept (stateOf (execTimeDismiss src base s) s) = kept s := by
  simp [execTimeDismiss]

@[simp] theorem kept_execTimePathAck (src : TimeSrc) (base : Nat) (s : State) :
    kept (stateOf (execTimePathAck src base s) s) = kept s := by
  simp [execTimePathAck]

@[simp] theorem kept_execTimeCfg (h : Hdr) (base : Nat) (ctrl : BitVec 4) (gain : Word) (limit : Word) (pathHold : Nat) (s : State) :
    kept (stateOf (execTimeCfg h base ctrl gain limit pathHold s) s) = kept s := by
  simp [execTimeCfg]

@[simp] theorem kept_xdWrite (v : Nat) (s : State) :
    kept (xdWrite v s) = kept s := by
  simp [xdWrite]

@[simp] theorem kept_execXd (h : Hdr) (cfg : Word) (s : State) :
    kept (stateOf (execXd h cfg s) s) = kept s := by
  simp [execXd]

@[simp] theorem kept_execOffsetSample (base : Nat) (hi : Option Word) (theta : Int) (s : State) :
    kept (stateOf (execOffsetSample base hi theta s) s) = kept s := by
  unfold execOffsetSample
  (repeat' split) <;> simp

@[simp] theorem kept_execPathSample (base : Nat) (sample : Int) (s : State) :
    kept (stateOf (execPathSample base sample s) s) = kept s := by
  simp [execPathSample]

@[simp] theorem kept_execAppSample (s : State) :
    kept (stateOf (execAppSample s) s) = kept s := by
  simp [execAppSample]

@[simp] theorem kept_execXdSample (s : State) :
    kept (stateOf (execXdSample s) s) = kept s := by
  simp [execXdSample]

@[simp] theorem kept_execTimebaseWrap (base : Fin 4) (s : State) :
    kept (stateOf (execTimebaseWrap base s) s) = kept s := by
  simp [execTimebaseWrap]

@[simp] theorem kept_wdgModeEffect (n : Nat) (m : Nat) (w : Nat) (s : State) :
    kept (wdgModeEffect n m w s) = kept s := by
  simp [wdgModeEffect]

@[simp] theorem kept_applySetting (i : Instr) (s : State) :
    kept (applySetting i s) = kept s := by
  unfold applySetting
  (repeat' split) <;> simp

@[simp] theorem kept_applySettings (s : State) :
    kept (applySettings s) = kept s := by
  simp [applySettings, kept_foldl]

@[simp] theorem kept_outputsOff (s : State) :
    kept (outputsOff s) = kept s := by
  simp [outputsOff]

@[simp] theorem kept_storeCutOne (e : Hdr × Option Stored) (s : State) :
    kept (storeCutOne e s) = kept s := by
  simp [storeCutOne]

@[simp] theorem kept_storeCut (s : State) :
    kept (storeCut s) = kept s := by
  simp [storeCut, kept_foldl]

@[simp] theorem kept_sealRead (b : Balls) (s : State) :
    kept (sealRead b s) = kept s := by
  unfold sealRead
  (repeat' split) <;> simp

@[simp] theorem kept_declareTasks (s : State) :
    kept (declareTasks s) = kept s := by
  simp [declareTasks, kept_foldl]

@[simp] theorem kept_setAvs (s : State) :
    kept (setAvs s) = kept s := by
  simp [setAvs]

@[simp] theorem kept_firmwareUp (s : State) :
    kept (firmwareUp s) = kept s := by
  simp [firmwareUp]

@[simp] theorem kept_imagesChosen (s : State) :
    kept (imagesChosen s) = kept s := by
  simp [imagesChosen]

@[simp] theorem kept_placesLost (d : Nat) (s : State) :
    kept (placesLost d s) = kept s := by
  unfold placesLost
  dsimp only
  repeat' first | with_reducible rfl | intro _ | (simp; done) | split | rw [kept_foldl] | simp

@[simp] theorem kept_fieldsDReset (s : State) :
    kept (fieldsDReset s) = kept s := by
  simp [fieldsDReset]

@[simp] theorem kept_dieDReset (d : Nat) (h : Option Hdr) (s : State) :
    kept (dieDReset d h s) = kept s := by
  simp [dieDReset, kept_foldl]

@[simp] theorem kept_copySet (d : Nat) (s : State) :
    kept (copySet d s) = kept s := by
  simp [copySet]

@[simp] theorem kept_contextsAgain (d : Nat) (s : State) : kept (contextsAgain d s) = kept s := by
  unfold contextsAgain
  rw [kept_foldl]
  intro s n
  split <;> simp

@[simp] theorem kept_dResetEnds (d : Nat) (s : State) : kept (dResetEnds d s) = kept s := by
  have h : kept (contextsAgain d (copySet d s)) = kept s := by simp
  unfold dResetEnds
  generalize contextsAgain d (copySet d s) = t at *
  rw [kept_dResetSettle, ← h]
  rfl

@[simp] theorem kept_dResetFails (d : Nat) (s : State) :
    kept (dResetFails d s) = kept s := by
  unfold dResetFails
  dsimp only
  (repeat' split) <;> simp

@[simp] theorem kept_restartBegins (s : State) :
    kept (restartBegins s) = kept s := by
  simp [restartBegins]

@[simp] theorem kept_microcodeResets (s : State) :
    kept (microcodeResets s) = kept s := by
  simp [microcodeResets]

@[simp] theorem kept_revertKind (k : Nat) (s : State) :
    kept (revertKind k s) = kept s := by
  simp [revertKind]

@[simp] theorem kept_trialDieLost (d : Nat) (s : State) :
    kept (trialDieLost d s) = kept s := by
  simp [trialDieLost]

@[simp] theorem kept_sendDiscover (east : Bool) (s : State) :
    kept (sendDiscover east s) = kept s := by
  simp [sendDiscover]

@[simp] theorem kept_decideDie (d : Nat) (s : State) :
    kept (decideDie d s) = kept s := by
  unfold decideDie
  (repeat' split) <;> simp

@[simp] theorem kept_napRestored (s : State) : kept (napRestored s) = kept s := by
  unfold napRestored
  dsimp only
  rw [kept_foldl, kept_eachDie]
  · intro d s
    rw [kept_foldl]
    intro s e
    split <;> simp
  · intro s n
    split
    · rfl
    · rw [kept_foldl]; intro s g; simp

@[simp] theorem kept_discoverWhenAll (s : State) :
    kept (discoverWhenAll s) = kept s := by
  simp [discoverWhenAll]

@[simp] theorem kept_selfTestLog (d : Nat) (t : SelfTest) (s : State) :
    kept (selfTestLog d t s) = kept s := by
  simp [selfTestLog, kept_foldl]

@[simp] theorem kept_ownersAgain (d : Nat) (s : State) : kept (ownersAgain d s) = kept s := by
  unfold ownersAgain
  rw [kept_foldl]
  intro s e
  split <;> simp

@[simp] theorem kept_dieHello (d : Nat) (t : SelfTest) (s : State) :
    kept (dieHello d t s) = kept s := by
  simp [dieHello]

@[simp] theorem kept_execDieReset (h : Hdr) (die : Nat) (s : State) :
    kept (stateOf (execDieReset h die s) s) = kept s := by
  simp [execDieReset]

@[simp] theorem kept_execPllLockLoss (node : Fin 5) (s : State) :
    kept (stateOf (execPllLockLoss node s) s) = kept s := by
  simp [execPllLockLoss]

@[simp] theorem kept_execRefclkFault (s : State) :
    kept (stateOf (execRefclkFault s) s) = kept s := by
  simp [execRefclkFault]

@[simp] theorem kept_execTempUpdate (node : Fin 5) (t : BitVec 10) (s : State) :
    kept (stateOf (execTempUpdate node t s) s) = kept s := by
  simp [execTempUpdate]

@[simp] theorem kept_sleepNote (target : Nat) (outcome : Nat) (s : State) :
    kept (sleepNote target outcome s) = kept s := by
  simp [sleepNote]

@[simp] theorem kept_sleep (h : Hdr) (target : Nat) (enter : State → State) (s : State) (henter : ∀ s, kept (enter s) = kept s) :
    kept (stateOf (sleep h target enter s) s) = kept s := by
  simp [sleep, henter]

@[simp] theorem kept_execSleepNap (h : Hdr) (s : State) :
    kept (stateOf (execSleepNap h s) s) = kept s := by
  simp [execSleepNap, kept_foldl]

@[simp] theorem kept_execDozeTick (s : State) :
    kept (stateOf (execDozeTick s) s) = kept s := by
  simp [execDozeTick]

@[simp] theorem kept_dieToNap (d : Nat) (s : State) :
    kept (dieToNap d s) = kept s := by
  simp [dieToNap]

@[simp] theorem kept_wakeSeen (lowNs : Nat) (s : State) :
    kept (wakeSeen lowNs s) = kept s := by
  simp [wakeSeen]

@[simp] theorem kept_announceFails (d : Nat) (s : State) :
    kept (announceFails d s) = kept s := by
  simp [announceFails]

@[simp] theorem kept_sendHello (d : Nat) (s : State) :
    kept (sendHello d s) = kept s := by
  simp [sendHello]

@[simp] theorem kept_execDiscoveryTimeout (s : State) :
    kept (stateOf (execDiscoveryTimeout s) s) = kept s := by
  unfold execDiscoveryTimeout
  (repeat' split) <;> simp

@[simp] theorem kept_execDieAnnounceTimeout (die_ : Fin 4) (s : State) :
    kept (stateOf (execDieAnnounceTimeout die_ s) s) = kept s := by
  simp [execDieAnnounceTimeout]

@[simp] theorem kept_execWdPulseEnd (unit : Fin 8) (s : State) :
    kept (stateOf (execWdPulseEnd unit s) s) = kept s := by
  simp [execWdPulseEnd]

@[simp] theorem kept_takeUnit (h : Nat) (n : Nat) (mode : Nat) (width : Nat) (opn : Nat) (close : Nat) (s : State) :
    kept (takeUnit h n mode width opn close s) = kept s := by
  simp [takeUnit]

@[simp] theorem kept_execWdgTake (h : Hdr) (unit : Nat) (mode : Nat) (width : Nat) (opn : Nat) (close : Nat) (s : State) :
    kept (stateOf (execWdgTake h unit mode width opn close s) s) = kept s := by
  simp [execWdgTake]

@[simp] theorem kept_execWdgRelease (h : Hdr) (unit : Nat) (s : State) :
    kept (stateOf (execWdgRelease h unit s) s) = kept s := by
  simp [execWdgRelease]

@[simp] theorem kept_execWdgMode (h : Hdr) (unit : Nat) (mode : Nat) (width : Nat) (s : State) :
    kept (stateOf (execWdgMode h unit mode width s) s) = kept s := by
  simp [execWdgMode]

@[simp] theorem kept_execCheckin (h : Hdr) (task : Nat) (s : State) :
    kept (stateOf (execCheckin h task s) s) = kept s := by
  simp [execCheckin]

@[simp] theorem kept_serviceEffect (svc : Service) (s : State) :
    kept (serviceEffect svc s) = kept s := by
  unfold serviceEffect
  (repeat' split) <;> simp

@[simp] theorem kept_execTaskEcall (slot : Fin 8) (number : Nat) (svc : Service) (s : State) :
    kept (stateOf (execTaskEcall slot number svc s) s) = kept s := by
  simp [execTaskEcall]

@[simp] theorem kept_setLatch (v : View) (a : Nat) (x : Option Word) (s : State) :
    kept (setLatch v a x s) = kept s := by
  simp [setLatch]

@[simp] theorem kept_upperRead (v : View) (a : Nat) (s : State) :
    kept ((upperRead v a s).2) = kept s := by
  unfold upperRead
  (repeat' split) <;> simp

@[simp] theorem kept_lowerRead (v : View) (a : Nat) (s : State) :
    kept ((lowerRead v a s).2) = kept s := by
  simp [lowerRead]

@[simp] theorem kept_icuRegWrite (o : Nat) (w : Nat) (s : State) :
    kept (icuRegWrite o w s) = kept s := by
  unfold icuRegWrite
  (repeat' split) <;> simp

@[simp] theorem kept_wdgCfgWrite (n : Nat) (w : Nat) (s : State) :
    kept (wdgCfgWrite n w s) = kept s := by
  simp [wdgCfgWrite]

@[simp] theorem kept_wdgCycleWrite (n : Nat) (w : Nat) (s : State) :
    kept (wdgCycleWrite n w s) = kept s := by
  simp [wdgCycleWrite]

@[simp] theorem kept_crcRegWrite (o : Nat) (w : Nat) (s : State) :
    kept (crcRegWrite o w s) = kept s := by
  simp [crcRegWrite]

@[simp] theorem kept_timCmd (w : Nat) (s : State) :
    kept (timCmd w s) = kept s := by
  simp [timCmd]

@[simp] theorem kept_timBaseWrite (b : Nat) (o : Nat) (w : Nat) (s : State) :
    kept (timBaseWrite b o w s) = kept s := by
  unfold timBaseWrite
  (repeat' split) <;> simp

@[simp] theorem kept_timRegWrite (o : Nat) (w : Nat) (s : State) :
    kept (timRegWrite o w s) = kept s := by
  simp [timRegWrite]

@[simp] theorem kept_netRegWrite (o : Nat) (w : Nat) (s : State) :
    kept (netRegWrite o w s) = kept s := by
  unfold netRegWrite
  (repeat' split) <;> simp

@[simp] theorem kept_sioRegWrite (o : Nat) (w : Nat) (s : State) :
    kept (sioRegWrite o w s) = kept s := by
  unfold sioRegWrite
  (repeat' split) <;> simp

@[simp] theorem kept_capRegWrite (o : Nat) (w : Nat) (s : State) :
    kept (capRegWrite o w s) = kept s := by
  unfold capRegWrite
  (repeat' split) <;> simp

@[simp] theorem kept_snapRegWrite (o : Nat) (w : Nat) (s : State) :
    kept (snapRegWrite o w s) = kept s := by
  unfold snapRegWrite
  (repeat' split) <;> simp

@[simp] theorem kept_dbgRegWrite (o : Nat) (w : Nat) (s : State) :
    kept (dbgRegWrite o w s) = kept s := by
  unfold dbgRegWrite
  (repeat' split) <;> simp

@[simp] theorem kept_pwrRegWrite (o : Nat) (w : Nat) (s : State) :
    kept (pwrRegWrite o w s) = kept s := by
  simp [pwrRegWrite]

@[simp] theorem kept_evdWrite (v : View) (o : Nat) (w : Nat) (s : State) :
    kept (evdWrite v o w s) = kept s := by
  simp [evdWrite]

@[simp] theorem kept_evtHiRead (v : View) (i : Nat) (s : State) :
    kept ((evtHiRead v i s).2) = kept s := by
  simp [evtHiRead]

@[simp] theorem kept_ppsHiRead (v : View) (s : State) :
    kept ((ppsHiRead v s).2) = kept s := by
  simp [ppsHiRead]

@[simp] theorem kept_txtsHiRead (v : View) (p : Nat) (s : State) :
    kept ((txtsHiRead v p s).2) = kept s := by
  unfold txtsHiRead
  (repeat' split) <;> simp

@[simp] theorem kept_errorsRead (v : View) (s : State) :
    kept ((errorsRead v s).2) = kept s := by
  unfold errorsRead
  (repeat' split) <;> simp

@[simp] theorem kept_globalRead (v : View) (s : State) :
    kept ((globalRead v s).2) = kept s := by
  unfold globalRead
  (repeat' split) <;> simp

@[simp] theorem kept_busRead (v : View) (a : Nat) (s : State) :
    kept ((busRead v a s).2) = kept s := by
  unfold busRead
  (repeat' split) <;> simp

@[simp] theorem kept_issueLaunch (n : Nat) (p : Nat) (k : Nat) (t : Nat) (L : Nat) (r : PlanRec) (s : State) :
    kept (issueLaunch n p k t L r s) = kept s := by
  simp [issueLaunch, kept_foldl]

@[simp] theorem kept_launchOvertaken (n : Nat) (p : Nat) (k : Nat) (t : Nat) (L : Nat) (step : Bool) (s : State) :
    kept (launchOvertaken n p k t L step s) = kept s := by
  simp [launchOvertaken]

@[simp] theorem kept_execLaunchConvert (part : Fin 16) (plan : Nat) (s : State) :
    kept (stateOf (execLaunchConvert part plan s) s) = kept s := by
  unfold execLaunchConvert
  dsimp only
  (repeat' split) <;> simp

@[simp] theorem kept_stepLaunch (back : Bool) (n : Nat) (p : Nat) (r : PlanRec) (e : Nat × Nat × Nat) (s : State) :
    kept (stepLaunch back n p r e s) = kept s := by
  simp [stepLaunch]

@[simp] theorem kept_stepPlans (back : Bool) (bs : List Nat) (s : State) : kept (stepPlans back bs s) = kept s := by
  unfold stepPlans
  rw [kept_foldl]
  intro s n
  rw [kept_foldl]
  intro s q
  split
  · rfl
  · split
    · rw [kept_foldl]
      intro s e
      simp
    · rfl

@[simp] theorem kept_stepCapture (s : State) :
    kept (stepCapture s) = kept s := by
  simp [stepCapture, kept_foldl]

@[simp] theorem kept_execStepApply (base : Nat) (s : State) :
    kept (stateOf (execStepApply base s) s) = kept s := by
  unfold execStepApply
  (repeat' split) <;> simp [kept_foldl]

@[simp] theorem kept_execSnapshotRequest (v : Word) (s : State) :
    kept (stateOf (execSnapshotRequest v s) s) = kept s := by
  simp [execSnapshotRequest]

@[simp] theorem kept_execSnapshotLatch (unit : Fin 5) (s : State) :
    kept (stateOf (execSnapshotLatch unit s) s) = kept s := by
  unfold execSnapshotLatch
  dsimp only
  (repeat' split) <;> simp

@[simp] theorem kept_execSnapshotCmd (die_ : Fin 4) (id : Nat) (instant : Nat) (s : State) :
    kept (stateOf (execSnapshotCmd die_ id instant s) s) = kept s := by
  simp [execSnapshotCmd]

@[simp] theorem kept_fenceAcked (d : Nat) (s : State) :
    kept (fenceAcked d s) = kept s := by
  simp [fenceAcked, kept_foldl]

@[simp] theorem kept_ackSignalled (d : Nat) (seq : Nat) (s : State) :
    kept (ackSignalled d seq s) = kept s := by
  simp [ackSignalled]

@[simp] theorem kept_execAckPacket (die_ : Fin 4) (seq : Nat) (status : Nat) (s : State) :
    kept (stateOf (execAckPacket die_ seq status s) s) = kept s := by
  unfold execAckPacket
  dsimp only
  (repeat' split) <;> simp

@[simp] theorem kept_answers (h : Hdr) (out : List Byte) (s : State) :
    kept (answers h out s) = kept s := by
  simp [answers]

@[simp] theorem kept_execIdentify (h : Hdr) (s : State) :
    kept (stateOf (execIdentify h s) s) = kept s := by
  simp [execIdentify]

@[simp] theorem kept_execGetStatusDevice (h : Hdr) (s : State) :
    kept (stateOf (execGetStatusDevice h s) s) = kept s := by
  simp [execGetStatusDevice]

@[simp] theorem kept_execGetStatusPartition (h : Hdr) (s : State) :
    kept (stateOf (execGetStatusPartition h s) s) = kept s := by
  simp [execGetStatusPartition]

@[simp] theorem kept_execGetStatusContext (h : Hdr) (index : Nat) (s : State) :
    kept (stateOf (execGetStatusContext h index s) s) = kept s := by
  simp [execGetStatusContext]

@[simp] theorem kept_execGetStatusEvidence (h : Hdr) (index : Nat) (s : State) : kept (stateOf (execGetStatusEvidence h index s) s) = kept s := by
  unfold execGetStatusEvidence
  rw [kept_command]
  intro s
  dsimp only
  split <;> simp

@[simp] theorem kept_execAttestReport (h : Hdr) (nonce : List Byte) (s : State) :
    kept (stateOf (execAttestReport h nonce s) s) = kept s := by
  simp [execAttestReport]

@[simp] theorem kept_execAttestSigned (s : State) :
    kept (stateOf (execAttestSigned s) s) = kept s := by
  unfold execAttestSigned
  (repeat' split) <;> simp

@[simp] theorem kept_execAttestCert (h : Hdr) (s : State) :
    kept (stateOf (execAttestCert h s) s) = kept s := by
  simp [execAttestCert]

@[simp] theorem kept_updEnds (h : Hdr) (k : Nat) (status : Nat) (info0 : Nat) (info1 : Nat) (s : State) :
    kept (updEnds h k status info0 info1 s) = kept s := by
  simp [updEnds]

@[simp] theorem kept_downloadStarts (k : Nat) (s : State) :
    kept (downloadStarts k s) = kept s := by
  simp [downloadStarts]

@[simp] theorem kept_chunkWhole (h : Hdr) (k : Nat) (chunk : Nat) (crc : Word) (s : State) :
    kept (chunkWhole h k chunk crc s) = kept s := by
  simp [chunkWhole]

@[simp] theorem kept_pieceAppended (h : Hdr) (k : Nat) (chunk : Nat) (crc : Word) (data : List Byte) (s : State) :
    kept (pieceAppended h k chunk crc data s) = kept s := by
  simp [pieceAppended]

@[simp] theorem kept_execUpdDownload (h : Hdr) (kind : Nat) (chunk : Nat) (offset : Nat) (crc : Word) (data : List Byte) (s : State) :
    kept (stateOf (execUpdDownload h kind chunk offset crc data s) s) = kept s := by
  simp [execUpdDownload]

@[simp] theorem kept_stageEvent (s : State) :
    kept (stageEvent s) = kept s := by
  simp [stageEvent]

@[simp] theorem kept_commitChunk (k : Nat) (h : Hdr) (s : State) :
    kept (commitChunk k h s) = kept s := by
  simp [commitChunk]

@[simp] theorem kept_execChunkCommit (s : State) :
    kept (stateOf (execChunkCommit s) s) = kept s := by
  unfold execChunkCommit
  (repeat' split) <;> simp

@[simp] theorem kept_execUpdVerify (h : Hdr) (kind : Nat) (s : State) :
    kept (stateOf (execUpdVerify h kind s) s) = kept s := by
  simp [execUpdVerify]

@[simp] theorem kept_verifyEnds (k : Nat) (h : Hdr) (s : State) :
    kept (verifyEnds k h s) = kept s := by
  simp [verifyEnds]

@[simp] theorem kept_execVerifyDone (s : State) :
    kept (stateOf (execVerifyDone s) s) = kept s := by
  unfold execVerifyDone
  (repeat' split) <;> simp

@[simp] theorem kept_trialBegins (k : Nat) (s : State) :
    kept (trialBegins k s) = kept s := by
  simp [trialBegins]

@[simp] theorem kept_execUpdActivate (h : Hdr) (kind : Nat) (window : Nat) (s : State) :
    kept (stateOf (execUpdActivate h kind window s) s) = kept s := by
  simp [execUpdActivate]

@[simp] theorem kept_restartEnds (s : State) :
    kept (restartEnds s) = kept s := by
  simp [restartEnds]

@[simp] theorem kept_execActivationRestartDone (s : State) :
    kept (stateOf (execActivationRestartDone s) s) = kept s := by
  simp [execActivationRestartDone]

@[simp] theorem kept_execUpdConfirm (h : Hdr) (kind : Nat) (s : State) :
    kept (stateOf (execUpdConfirm h kind s) s) = kept s := by
  simp [execUpdConfirm]

@[simp] theorem kept_execTrialWindowExpiry (s : State) :
    kept (stateOf (execTrialWindowExpiry s) s) = kept s := by
  unfold execTrialWindowExpiry
  (repeat' split) <;> simp

@[simp] theorem kept_noteRefusal (i : Option Instr) (st : Nat) (s : State) :
    kept (noteRefusal i st s) = kept s := by
  unfold noteRefusal
  (repeat' split) <;> simp

@[simp] theorem kept_refusedWith (h : Hdr) (e : List Byte) (i : Option Instr) (code : Nat) (s : State) :
    kept (refusedWith h e i code s) = kept s := by
  simp [refusedWith]

@[simp] theorem kept_sqEvent (x : Seat) (s : State) :
    kept (sqEvent x s) = kept s := by
  simp [sqEvent]

@[simp] theorem kept_sqRing (seat : Seat) (q : Nat) (v : Nat) (s : State) :
    kept (sqRing seat q v s) = kept s := by
  simp [sqRing]

@[simp] theorem kept_execSqDoorbell (seat : Seat) (q : Fin 64) (v : Word) (s : State) :
    kept (stateOf (execSqDoorbell seat q v s) s) = kept s := by
  simp [execSqDoorbell]

@[simp] theorem kept_cqRing (seat : Seat) (q : Nat) (v : Nat) (s : State) :
    kept (cqRing seat q v s) = kept s := by
  simp [cqRing]

@[simp] theorem kept_execCqDoorbell (seat : Seat) (q : Fin 64) (v : Word) (s : State) :
    kept (stateOf (execCqDoorbell seat q v s) s) = kept s := by
  simp [execCqDoorbell]

@[simp] theorem kept_headRing (seat : Seat) (n : Nat) (v : Nat) (s : State) :
    kept (headRing seat n v s) = kept s := by
  unfold headRing
  (repeat' split) <;> simp

@[simp] theorem kept_execResultHeadDoorbell (seat : Seat) (part_ : Fin 16) (v : Word) (s : State) :
    kept (stateOf (execResultHeadDoorbell seat part_ v s) s) = kept s := by
  simp [execResultHeadDoorbell]

@[simp] theorem kept_execQueueEnable (seat : Seat) (q : Fin 64) (s : State) :
    kept (stateOf (execQueueEnable seat q s) s) = kept s := by
  simp [execQueueEnable]

@[simp] theorem kept_entryTaken (x : Seat) (q : Nat) (s : State) :
    kept (entryTaken x q s) = kept s := by
  simp [entryTaken]

@[simp] theorem kept_fetchBegins (h : Hdr) (e : List Byte) (s : State) :
    kept (fetchBegins h e s) = kept s := by
  simp [fetchBegins]

@[simp] theorem kept_fetchEnds (x : Seat) (q : Nat) (s : State) :
    kept (fetchEnds x q s) = kept s := by
  simp [fetchEnds]

@[simp] theorem kept_fetchFails (x : Seat) (q : Nat) (e : List Byte) (s : State) :
    kept (fetchFails x q e s) = kept s := by
  simp [fetchFails]

@[simp] theorem kept_execHostDmaTimeout (seat : Seat) (q : Fin 64) (s : State) :
    kept (stateOf (execHostDmaTimeout seat q s) s) = kept s := by
  unfold execHostDmaTimeout
  dsimp only
  (repeat' split) <;> simp

@[simp] theorem kept_commandsLost (x : Seat) (s : State) :
    kept (commandsLost x s) = kept s := by
  simp [commandsLost]

@[simp] theorem kept_chunksLost (x : Seat) (s : State) :
    kept (chunksLost x s) = kept s := by
  simp [chunksLost]

@[simp] theorem kept_partsLost (x : Seat) (s : State) :
    kept (partsLost x s) = kept s := by
  simp [partsLost, kept_foldl]

@[simp] theorem kept_seatCleared (x : Seat) (perst : Bool) (s : State) :
    kept (seatCleared x perst s) = kept s := by
  simp [seatCleared]

@[simp] theorem kept_seatStoreCut (x : Seat) (s : State) :
    kept (seatStoreCut x s) = kept s := by
  simp [seatStoreCut, kept_foldl]

@[simp] theorem kept_execSeatBarsReady (seat : Seat) (s : State) :
    kept (stateOf (execSeatBarsReady seat s) s) = kept s := by
  simp [execSeatBarsReady]

@[simp] theorem kept_execPerstRelease (seat : Seat) (s : State) :
    kept (stateOf (execPerstRelease seat s) s) = kept s := by
  simp [execPerstRelease]

@[simp] theorem kept_msixSend (x : Seat) (v : Nat) (s : State) :
    kept (msixSend x v s) = kept s := by
  simp [msixSend]

@[simp] theorem kept_vectorMask (x : Seat) (v : Nat) (masked : Bool) (s : State) :
    kept (vectorMask x v masked s) = kept s := by
  simp [vectorMask]

@[simp] theorem kept_execMsixVectorUnmask (seat : Seat) (vector : Fin 64) (s : State) :
    kept (stateOf (execMsixVectorUnmask seat vector s) s) = kept s := by
  simp [execMsixVectorUnmask]

@[simp] theorem kept_modFn (x : Seat) (f : PcieFn → PcieFn) (s : State) :
    kept (modFn x f s) = kept s := by
  simp [modFn]

@[simp] theorem kept_bellWrite (x : Seat) (o : Nat) (v : Nat) (s : State) :
    kept (bellWrite x o v s) = kept s := by
  unfold bellWrite
  (repeat' split) <;> simp

@[simp] theorem kept_tableWrite (x : Seat) (o : Nat) (v : Nat) (s : State) :
    kept (tableWrite x o v s) = kept s := by
  simp [tableWrite]

@[simp] theorem kept_msixFlush (x : Seat) (s : State) :
    kept (msixFlush x s) = kept s := by
  simp [msixFlush, kept_foldl]

@[simp] theorem kept_chkRead (a : Nat) (s : State) :
    kept ((chkRead a s).2) = kept s := by
  unfold chkRead
  (repeat' split) <;> simp

theorem kept_viewRead (v : View) (a : Nat) (s : State) (r : Nat × State) (h : viewRead v a s = some r) : kept r.2 = kept s := by
  unfold viewRead at h
  split at h
  · cases h; split <;> simp
  · cases h

theorem kept_answerRead (o : Option (Nat × State)) (s : State) (h : ∀ r, o = some r → kept r.2 = kept s) :
    kept (stateOf (answerRead o s) s) = kept s := by
  unfold answerRead
  cases o with
  | none => rfl
  | some r => exact h r rfl

@[simp] theorem kept_execLowerWordRead (view : View) (at_ : ReadAt) (s : State) :
    kept (stateOf (execLowerWordRead view at_ s) s) = kept s := by
  unfold execLowerWordRead
  split
  · refine kept_answerRead _ s fun r h => ?_
    split at h <;> cases h
    rfl
  · refine kept_answerRead _ s fun r h => ?_
    split at h
    · exact kept_viewRead _ _ s r h
    · split at h <;> cases h
      rfl

@[simp] theorem kept_execCapEvtHiRead (view : View) (i : Fin 8) (s : State) : kept (stateOf (execCapEvtHiRead view i s) s) = kept s :=
  kept_answerRead _ s (kept_viewRead _ _ s)

@[simp] theorem kept_execCapPpsInHiRead (view : View) (s : State) : kept (stateOf (execCapPpsInHiRead view s) s) = kept s :=
  kept_answerRead _ s (kept_viewRead _ _ s)

@[simp] theorem kept_execNetTxtsHiRead (view : View) (port : Fin 2) (s : State) : kept (stateOf (execNetTxtsHiRead view port s) s) = kept s :=
  kept_answerRead _ s (kept_viewRead _ _ s)

@[simp] theorem kept_execIcuErrorsRead (view : View) (s : State) : kept (stateOf (execIcuErrorsRead view s) s) = kept s :=
  kept_answerRead _ s (kept_viewRead _ _ s)

@[simp] theorem kept_execWdgGlobalRead (view : View) (s : State) : kept (stateOf (execWdgGlobalRead view s) s) = kept s :=
  kept_answerRead _ s (kept_viewRead _ _ s)

theorem kept_mapRead (a : Nat) (s : State) (r : Option Nat × State) (h : mapRead a s = some r) : kept r.2 = kept s := by
  have h2 (c : Prop) [Decidable c] (x y : Option (Option Nat × State)) (hx : x = some r → kept r.2 = kept s)
      (hy : y = some r → kept r.2 = kept s) (h : (if c then x else y) = some r) : kept r.2 = kept s := by
    split at h
    · exact hx h
    · exact hy h
  have h3 (n : Option Nat) (h : some (n, s) = some r) : kept r.2 = kept s := by cases h; rfl
  have h4 (v : View) (b : Nat) (h : some (some (busRead v b s).1, (busRead v b s).2) = some r) : kept r.2 = kept s := by
    cases h; simp
  unfold mapRead at h
  exact h2 _ _ _ (h3 _) (h2 _ _ _ (h3 _) (h2 _ _ _ (h3 _) (h2 _ _ _ (h3 _) (h2 _ _ _ (h3 _) (h2 _ _ _ (h4 _ _) (h2 _ _ _ (h3 _) (fun h => by cases h))))))) h

@[simp] theorem kept_sramPut (a : Nat) (v : Word) (s : State) :
    kept (sramPut a v s) = kept s := by
  simp [sramPut]

@[simp] theorem kept_debugRead (a : Nat) (s : State) : kept (debugRead a s) = kept s := by
  unfold debugRead
  split
  · rfl
  · rename_i h; rw [kept_emit]; exact kept_mapRead _ _ _ h
  · rename_i t h
    dsimp only
    have h1 : kept t = kept s := kept_mapRead _ _ _ h
    rw [kept_emit, ← h1]
    split <;> simp

@[simp] theorem kept_busNoted (s : State) :
    kept (busNoted s) = kept s := by
  simp [busNoted]

end Sys2Proof.Machine
end

