-- ==== Sys2Proof/Laws/Memory.lean ====
section
/-! SUPPORT. Laws/Memory.lean: reading after writing in sparse tables and memories, and that every operation on them keeps the
canonical form. -/

namespace Sys2Proof.Machine

variable {α : Type}

theorem tblGet_put_same (d : α) (t : Tbl α) (n : Nat) (x : α) : tblGet d (tblPut t n x) n = x := by
  induction t with
  | nil => simp [tblPut, tblGet]
  | cons e r ih =>
    obtain ⟨k, v⟩ := e
    unfold tblPut
    split
    · simp [tblGet]
    · split
      · simp [tblGet]
      · rename_i h; simp [tblGet, Ne.symm h, ih]

theorem tblGet_put_other (d : α) (t : Tbl α) (n m : Nat) (x : α) (h : m ≠ n) : tblGet d (tblPut t n x) m = tblGet d t m := by
  induction t with
  | nil => simp [tblPut, tblGet, Ne.symm h]
  | cons e r ih =>
    obtain ⟨k, v⟩ := e
    unfold tblPut
    split
    · simp [tblGet, Ne.symm h]
    · split
      · rename_i hk; subst hk; simp [tblGet, Ne.symm h]
      · simp [tblGet, ih]

theorem tblGet_erase_same (d : α) (t : Tbl α) (n : Nat) : tblGet d (tblErase t n) n = d := by
  induction t with
  | nil => rfl
  | cons e r ih =>
    obtain ⟨k, v⟩ := e
    unfold tblErase at *
    by_cases h : k = n <;> simp [h, tblGet, ih]

theorem tblGet_erase_other (d : α) (t : Tbl α) (n m : Nat) (h : m ≠ n) : tblGet d (tblErase t n) m = tblGet d t m := by
  induction t with
  | nil => rfl
  | cons e r ih =>
    obtain ⟨k, v⟩ := e
    unfold tblErase at *
    by_cases hk : k = n
    · subst hk; simp [tblGet, Ne.symm h, ih]
    · simp [hk, tblGet, ih]

section
variable [DecidableEq α]

@[simp] theorem tblGet_set_same (d : α) (t : Tbl α) (n : Nat) (x : α) : tblGet d (tblSet d t n x) n = x := by
  unfold tblSet
  split
  · rename_i h; rw [tblGet_erase_same, h]
  · exact tblGet_put_same ..

theorem tblGet_set_other (d : α) (t : Tbl α) (n m : Nat) (x : α) (h : m ≠ n) : tblGet d (tblSet d t n x) m = tblGet d t m := by
  unfold tblSet
  split
  · exact tblGet_erase_other _ _ _ _ h
  · exact tblGet_put_other _ _ _ _ _ h

theorem tblGet_set (d : α) (t : Tbl α) (n m : Nat) (x : α) : tblGet d (tblSet d t n x) m = if m = n then x else tblGet d t m := by
  split
  · rename_i h; subst h; exact tblGet_set_same ..
  · rename_i h; exact tblGet_set_other _ _ _ _ _ h

@[simp] theorem tblGet_mod_same (d : α) (t : Tbl α) (n : Nat) (f : α → α) : tblGet d (tblMod d t n f) n = f (tblGet d t n) :=
  tblGet_set_same ..

theorem tblGet_mod_other (d : α) (t : Tbl α) (n m : Nat) (f : α → α) (h : m ≠ n) : tblGet d (tblMod d t n f) m = tblGet d t m :=
  tblGet_set_other _ _ _ _ _ h

theorem tblGet_mod (d : α) (t : Tbl α) (n m : Nat) (f : α → α) :
    tblGet d (tblMod d t n f) m = if m = n then f (tblGet d t n) else tblGet d t m := tblGet_set ..
end

/-- A lower bound may be weakened. -/
theorem tblRising_weaken (lo lo' : Option Nat) (t : Tbl α) (h : ∀ l', lo' = some l' → ∃ l, lo = some l ∧ l' ≤ l)
    (ht : tblRising lo t = true) : tblRising lo' t = true := by
  cases t with
  | nil => rfl
  | cons e r =>
    obtain ⟨k, v⟩ := e
    simp only [tblRising, Bool.and_eq_true] at *
    refine ⟨?_, ht.2⟩
    cases lo' with
    | none => rfl
    | some l' =>
      obtain ⟨l, rfl, hl⟩ := h l' rfl
      have := ht.1
      simp at *
      omega

theorem tblRising_none (lo : Option Nat) (t : Tbl α) (ht : tblRising lo t = true) : tblRising none t = true :=
  tblRising_weaken lo none t (fun _ h => by cases h) ht

theorem tblRising_erase (lo : Option Nat) (t : Tbl α) (n : Nat) (h : tblRising lo t = true) :
    tblRising lo (tblErase t n) = true := by
  induction t generalizing lo with
  | nil => rfl
  | cons e r ih =>
    obtain ⟨k, v⟩ := e
    unfold tblErase at *
    simp only [tblRising, Bool.and_eq_true] at h
    by_cases hk : k = n
    · simp only [hk, List.filter_cons, beq_self_eq_true, Bool.not_true, Bool.false_eq_true, if_false]
      refine ih lo (tblRising_weaken (some k) lo r ?_ h.2)
      intro l' hl
      subst hl
      exact ⟨k, rfl, Nat.le_of_lt (by simpa using h.1)⟩
    · have hk' : (k == n) = false := by simpa using hk
      simp only [List.filter_cons, hk', Bool.not_false, if_true, tblRising, Bool.and_eq_true]
      exact ⟨h.1, ih _ h.2⟩

/-- `n` may be the first key. -/
theorem tblRising_cons (lo : Option Nat) (n : Nat) (x : α) (r : Tbl α) (hn : ∀ l, lo = some l → l < n) (h : tblRising (some n) r = true) :
    tblRising lo ((n, x) :: r) = true := by
  cases lo with
  | none => simpa [tblRising] using h
  | some l => simpa [tblRising, hn l rfl] using h

theorem tblRising_put (lo : Option Nat) (t : Tbl α) (n : Nat) (x : α) (hn : ∀ l, lo = some l → l < n)
    (h : tblRising lo t = true) : tblRising lo (tblPut t n x) = true := by
  induction t generalizing lo with
  | nil =>
    cases lo with
    | none => simp [tblPut, tblRising]
    | some l => simpa [tblPut, tblRising] using hn l rfl
  | cons e r ih =>
    obtain ⟨k, v⟩ := e
    simp only [tblRising, Bool.and_eq_true] at h
    unfold tblPut
    split
    · rename_i hk
      exact tblRising_cons _ _ _ _ hn (tblRising_cons _ _ _ _ (fun l hl => by cases hl; exact hk) h.2)
    · split
      · rename_i hk
        subst hk
        exact tblRising_cons _ _ _ _ hn h.2
      · simp only [tblRising, Bool.and_eq_true]
        refine ⟨h.1, ih _ ?_ h.2⟩
        intro l hl
        cases hl
        omega

theorem tblAll_put (p : α → Bool) (t : Tbl α) (n : Nat) (x : α) (hx : p x = true) (h : (t.all fun e => p e.2) = true) :
    ((tblPut t n x).all fun e => p e.2) = true := by
  induction t with
  | nil => simpa [tblPut] using hx
  | cons e r ih =>
    obtain ⟨k, v⟩ := e
    simp only [List.all_cons, Bool.and_eq_true] at h
    unfold tblPut
    split
    · simp only [List.all_cons, Bool.and_eq_true]; exact ⟨hx, h.1, h.2⟩
    · split
      · simp only [List.all_cons, Bool.and_eq_true]; exact ⟨hx, h.2⟩
      · simp only [List.all_cons, Bool.and_eq_true]; exact ⟨h.1, ih h.2⟩

theorem tblAll_erase (p : α → Bool) (t : Tbl α) (n : Nat) (h : (t.all fun e => p e.2) = true) :
    ((tblErase t n).all fun e => p e.2) = true := by
  simp only [tblErase, List.all_eq_true, List.mem_filter] at *
  exact fun e he => h e he.1

/-- Setting an entry keeps a table canonical. -/
theorem tblSet_wf [DecidableEq α] (d : α) (t : Tbl α) (n : Nat) (x : α) (h : tblWf d t = true) : tblWf d (tblSet d t n x) = true := by
  simp only [tblWf, Bool.and_eq_true] at *
  unfold tblSet
  split
  · exact ⟨tblRising_erase _ _ _ h.1, tblAll_erase (fun v => !(v == d)) _ _ h.2⟩
  · rename_i hx
    exact ⟨tblRising_put _ _ _ _ (fun _ hl => by cases hl) h.1, tblAll_put (fun v => !(v == d)) _ _ _ (by simpa using hx) h.2⟩

/-- Changing an entry keeps a table canonical. -/
theorem tblMod_wf [DecidableEq α] (d : α) (t : Tbl α) (n : Nat) (f : α → α) (h : tblWf d t = true) : tblWf d (tblMod d t n f) = true :=
  tblSet_wf d t n _ h

/-- A byte written keeps a memory canonical. -/
theorem memSet_wf (m : List Host.Cell) (a : Nat) (b : Byte) (h : Memory.wf m = true) : Memory.wf (memSet m a b) = true :=
  tblSet_wf 0 m a b h

/-- Bytes written keep a memory canonical. -/
theorem memWrite_wf (m : List Host.Cell) (a : Nat) (l : List Byte) (h : Memory.wf m = true) : Memory.wf (memWrite m a l) = true := by
  induction l generalizing m a with
  | nil => exact h
  | cons b r ih => exact ih _ _ (memSet_wf m a b h)

theorem memGet_set_same (m : List Host.Cell) (a : Nat) (b : Byte) : memGet (memSet m a b) a = b := tblGet_set_same ..

theorem memGet_set_other (m : List Host.Cell) (a c : Nat) (b : Byte) (h : c ≠ a) : memGet (memSet m a b) c = memGet m c :=
  tblGet_set_other _ _ _ _ _ h

/-- A byte outside the written ones reads as before. -/
theorem memGet_write_outside (m : List Host.Cell) (a c : Nat) (l : List Byte) (h : c < a ∨ a + l.length ≤ c) :
    memGet (memWrite m a l) c = memGet m c := by
  induction l generalizing m a with
  | nil => rfl
  | cons b r ih =>
    simp only [List.length_cons] at h
    unfold memWrite
    rw [ih _ _ (by omega), memGet_set_other _ _ _ _ (by omega)]

/-- A written byte reads as written. -/
theorem memGet_write_inside (m : List Host.Cell) (a i : Nat) (l : List Byte) (h : i < l.length) :
    memGet (memWrite m a l) (a + i) = l.getD i 0 := by
  induction l generalizing m a i with
  | nil => cases h
  | cons b r ih =>
    unfold memWrite
    cases i with
    | zero => rw [memGet_write_outside _ _ _ _ (by omega)]; exact memGet_set_same ..
    | succ i =>
      have := ih (memSet m a b) (a + 1) i (by simpa using h)
      rw [show a + (i + 1) = a + 1 + i by omega, this]
      rfl

theorem State.reset_ram_wf : Memory.wf State.reset.pwr.ram = true := rfl

end Sys2Proof.Machine
end

