-- ==== Sys2Proof/Laws/Carries.lean ====
section
/-! SUPPORT. Laws/Carries.lean: what the other operations, and every command, do to the kept part of the state. -/

namespace Sys2Proof.Machine

/-- What every operation keeps of `kept`: the queue is the same, a set identity lock stays set, legal modes and a canonical
retention RAM stay so. -/
def Carries (a b : Kept) : Prop :=
  b.1 = a.1 ∧ (a.2.1 = true → b.2.1 = true) ∧
    (a.2.2.1 ≤ 2 ∧ a.2.2.2.1 ≤ 3 ∧ Memory.wf a.2.2.2.2 = true → b.2.2.1 ≤ 2 ∧ b.2.2.2.1 ≤ 3 ∧ Memory.wf b.2.2.2.2 = true)

theorem Carries.refl (a : Kept) : Carries a a := ⟨rfl, id, id⟩

@[simp] theorem carries_ite (k : Kept) (c : Prop) [Decidable c] (a b : State) :
    Carries k (if c then kept a else kept b) ↔ if c then Carries k (kept a) else Carries k (kept b) := by
  split <;> rfl

theorem carries_foldl {α : Type} {k : Kept} (f : State → α → State) (l : List α) (s : State)
    (h : ∀ s a, Carries k (kept s) → Carries k (kept (f s a))) (hk : Carries k (kept s)) : Carries k (kept (l.foldl f s)) := by
  induction l generalizing s with
  | nil => exact hk
  | cons a l ih => exact ih _ (h s a hk)

/-- A state that differs from one that `k` carries to only in legal modes. -/
theorem carries_modes {k : Kept} {s t : State} (hk : Carries k (kept s))
    (hp : t.pending = s.pending) (hl : t.upd.locked = s.upd.locked) (hm : t.pair.mode ≤ 2 ∨ t.pair.mode = s.pair.mode)
    (hs : t.pwr.state ≤ 3 ∨ t.pwr.state = s.pwr.state) (hr : t.pwr.ram = s.pwr.ram) : Carries k (kept t) := by
  obtain ⟨h1, h2, h3⟩ := hk
  refine ⟨hp.trans h1, fun h => hl.trans (h2 h), fun h => ?_⟩
  obtain ⟨a, b, c⟩ := h3 h
  exact ⟨hm.elim id fun e => Nat.le_trans (Nat.le_of_eq e) a, hs.elim id fun e => Nat.le_trans (Nat.le_of_eq e) b, (congrArg Memory.wf hr).trans c⟩

@[simp] theorem carries_finish {k : Kept} (h : Hdr) (status : Nat) (f : State → State) (s : State) (hf : ∀ s, Carries k (kept s) → Carries k (kept (f s))) (hk : Carries k (kept s)) :
    Carries k (kept (finish h status f s)) := by
  simp +contextual [finish, hf, hk]

@[simp] theorem carries_taken {k : Kept} (h : Hdr) (f : State → State) (s : State) (hf : ∀ s, Carries k (kept s) → Carries k (kept (f s))) (hk : Carries k (kept s)) :
    Carries k (kept (stateOf (taken h f s) s)) := by
  simp +contextual [taken, hf, hk]

@[simp] theorem carries_command {k : Kept} (h : Hdr) (f : State → State) (s : State)
    (hf : ∀ s, Carries k (kept s) → Carries k (kept (f s))) (hk : Carries k (kept s)) :
    Carries k (kept (stateOf (command h f s) s)) := by
  unfold command
  split
  · exact carries_taken h f s hf hk
  · exact hk

theorem carries_execAbstractWrite {k : Kept} (r : DbgReg) (v : Word) (s : State) (hk : Carries k (kept s)) :
    Carries k (kept (stateOf (execAbstractWrite r v s) s)) := by
  unfold execAbstractWrite
  rw [stateOf_next]
  dsimp only
  (repeat' split) <;> first | exact hk | (rw [kept_okaySettle]; exact carries_modes hk rfl rfl (.inl (Nat.le_refl 2)) (.inr rfl) rfl)

theorem carries_execLockstepSplit {k : Kept} (h : Hdr) (s : State) (hk : Carries k (kept s)) :
    Carries k (kept (stateOf (execLockstepSplit h s) s)) := by
  refine carries_command h _ s (fun s hk => ?_) hk
  dsimp only
  split
  · rw [kept_lockstepEnds, kept_icuSettle, kept_okaySettle]
    exact carries_modes hk rfl rfl (.inl (show 1 ≤ 2 by decide)) (.inr rfl) rfl
  · simpa using hk

theorem carries_execLockstepRejoin {k : Kept} (h : Hdr) (tap : TapResult) (s : State) (hk : Carries k (kept s)) :
    Carries k (kept (stateOf (execLockstepRejoin h tap s) s)) := by
  refine carries_command h _ s (fun s hk => ?_) hk
  dsimp only
  split
  · have h1 : kept (resync (checkerTargetEnds s)) = kept s := by simp
    generalize resync (checkerTargetEnds s) = u at *
    rw [← h1] at hk
    rw [kept_lockstepEnds, kept_icuSettle, kept_tapTest]
    exact carries_modes hk rfl rfl (.inl (show 0 ≤ 2 by decide)) (.inr rfl) rfl
  · simpa using hk

@[simp] theorem carries_afterReset {k : Kept} (code : Nat) (s : State)
    (hk : Carries k (kept s)) : Carries k (kept (afterReset code s)) := by
  have hp : kept (storeCut (outputsOff s)) = kept s := by simp
  unfold afterReset
  dsimp only
  generalize storeCut (outputsOff s) = t at *
  rw [← hp] at hk
  obtain ⟨h1, h2, h3⟩ := hk
  refine ⟨h1, h2, fun h => ⟨?_, ?_, ?_⟩⟩
  · exact Nat.zero_le 2
  · exact Nat.zero_le 3
  · have := (h3 h).2.2
    show Memory.wf (if code = 0 then [] else t.pwr.ram) = true
    split
    · rfl
    · exact this

theorem carries_pinsRead {k : Kept} (code : Nat) (b : Balls) (s : State)
    (hk : Carries k (kept s)) : Carries k (kept (pinsRead code b s)) := by
  obtain ⟨h1, -, h3⟩ := carries_afterReset code s hk
  have h : Carries k (kept { afterReset code s with upd := { (afterReset code s).upd with
      locked := true, aesSlot := Config.deviceKey, shakeSlot := Config.attestKey } }) := ⟨h1, fun _ => rfl, h3⟩
  unfold pinsRead
  dsimp only
  simp only [kept_modSeat, kept_modWdg, kept_sealRead]
  split
  · simpa using h
  · exact h

@[simp] theorem carries_bringUp {k : Kept} (code : Nat) (b : Balls) (s : State)
    (hk : Carries k (kept s)) : Carries k (kept (bringUp code b s)) := by
  have h := carries_pinsRead code b s hk
  unfold bringUp
  generalize pinsRead code b s = u at *
  dsimp only
  split <;> simpa using h

@[simp] theorem carries_resetW {k : Kept} (s : State) (hk : Carries k (kept s)) :
    Carries k (kept (resetW s)) := by
  simp +contextual [resetW, hk]

@[simp] theorem carries_resetY {k : Kept} (s : State) (hk : Carries k (kept s)) :
    Carries k (kept (resetY s)) := by
  simp +contextual [resetY, hk]

@[simp] theorem carries_napExitEnds {k : Kept} (s : State) (hk : Carries k (kept s)) :
    Carries k (kept (napExitEnds s)) := by
  have h1 : kept (napRestored s) = kept s := by simp
  unfold napExitEnds
  dsimp only
  generalize napRestored s = u at *
  rw [← h1] at hk
  have h2 : Carries k (kept { u with pwr := { u.pwr with state := 0, waking := false, wakeHdr := none, outcome := 1 } }) :=
    carries_modes hk rfl rfl (.inr rfl) (.inl (show 0 ≤ 3 by decide)) rfl
  split <;> simpa using h2

@[simp] theorem carries_discoveryEnds {k : Kept} (closed : Bool) (s : State) (hk : Carries k (kept s)) :
    Carries k (kept (discoveryEnds closed s)) := by
  unfold discoveryEnds
  dsimp only
  (repeat' split) <;> simp +contextual [hk]

@[simp] theorem carries_execPowerOn {k : Kept} (balls : Balls) (s : State) (hk : Carries k (kept s)) :
    Carries k (kept (stateOf (execPowerOn balls s) s)) := by
  simp +contextual [execPowerOn, hk]

@[simp] theorem carries_execResetN {k : Kept} (lowNs : Nat) (balls : Balls) (s : State) (hk : Carries k (kept s)) :
    Carries k (kept (stateOf (execResetN lowNs balls s) s)) := by
  unfold execResetN
  (repeat' split) <;> simp +contextual [hk]

@[simp] theorem carries_execSupplyBrownout {k : Kept} (supply : Supply) (lowNs : Nat) (balls : Balls) (s : State) (hk : Carries k (kept s)) :
    Carries k (kept (stateOf (execSupplyBrownout supply lowNs balls s) s)) := by
  unfold execSupplyBrownout
  (repeat' split) <;> simp +contextual [hk]

@[simp] theorem carries_execSystemReset {k : Kept} (h : Hdr) (s : State) (hk : Carries k (kept s)) :
    Carries k (kept (stateOf (execSystemReset h s) s)) := by
  simp +contextual [execSystemReset, hk]

theorem carries_sleep {k : Kept} (h : Hdr) (target : Nat) (enter : State → State) (s : State) (henter : ∀ s, Carries k (kept s) → Carries k (kept (enter s))) (hk : Carries k (kept s)) :
    Carries k (kept (stateOf (sleep h target enter s) s)) := by
  refine carries_command h _ s (fun s hk => ?_) hk
  dsimp only
  split
  · simpa using hk
  · split
    · simpa using hk
    · split
      · simpa using hk
      · exact henter _ (by simpa using hk)

theorem carries_execSleepRun {k : Kept} (h : Hdr) (s : State) (hk : Carries k (kept s)) :
    Carries k (kept (stateOf (execSleepRun h s) s)) := by
  refine carries_sleep h 0 _ s (fun s hk => ?_) hk
  dsimp only
  split
  · simpa using hk
  · rw [kept_complete, kept_icuEvent]
    exact carries_modes hk rfl rfl (.inr rfl) (.inl (show 0 ≤ 3 by decide)) rfl

theorem carries_execSleepDoze {k : Kept} (h : Hdr) (s : State) (hk : Carries k (kept s)) :
    Carries k (kept (stateOf (execSleepDoze h s) s)) := by
  refine carries_sleep h 1 _ s (fun s hk => ?_) hk
  rw [kept_complete, kept_icuEvent]
  exact carries_modes hk rfl rfl (.inr rfl) (.inl (show 1 ≤ 3 by decide)) rfl

@[simp] theorem carries_atticState {k : Kept} (s : State) (hk : Carries k (kept s)) : Carries k (kept (atticState s)) := by
  unfold atticState
  rw [kept_emit]
  exact carries_modes (carries_afterReset 4 s hk) rfl rfl (.inr rfl) (.inl (show 3 ≤ 3 by decide)) rfl

theorem carries_execSleepAttic {k : Kept} (h : Hdr) (timer : Nat) (s : State) (hk : Carries k (kept s)) :
    Carries k (kept (stateOf (execSleepAttic h timer s) s)) := by
  refine carries_sleep h 3 _ s (fun s hk => ?_) hk
  refine carries_atticState _ ?_
  rw [kept_complete, kept_icuEvent]
  exact hk

theorem carries_execNapSelfRefresh {k : Kept} (s : State) (hk : Carries k (kept s)) :
    Carries k (kept (stateOf (execNapSelfRefresh s) s)) := by
  unfold execNapSelfRefresh
  rw [stateOf_next]
  split
  · exact hk
  · split
    · exact hk
    · dsimp only
      have h1 : kept (capNap (eachDie dieToNap s)) = kept s := by simp
      generalize capNap (eachDie dieToNap s) = u at *
      have h0 : kept ([1, 2, 3].foldl (fun s b => modBase b (fun x => { x with offLo := 0 }) s) (ringFields u)) = kept u := by
        rw [kept_foldl] <;> simp
      rw [← h1, ← h0] at hk
      generalize [1, 2, 3].foldl (fun s b => modBase b (fun x => { x with offLo := 0 }) s) (ringFields u) = v at *
      have h2 : Carries k (kept { v with
          net := v.net.map (fun e => (e.1, { e.2 with stamps := [] }))
          ring := { v.ring with present := 0, east := none, west := none, tokens := [] }
          pwr := { v.pwr with state := 2, napping := none, outcome := 1, wakePend := false } }) :=
        carries_modes hk rfl rfl (.inr rfl) (.inl (show 2 ≤ 3 by decide)) rfl
      split
      · rw [kept_beginNapExit, kept_icuEvent, kept_complete]; exact h2
      · rw [kept_icuEvent, kept_complete]; exact h2

@[simp] theorem carries_atticWake {k : Kept} (cause : Nat) (src : Nat) (b : Balls) (s : State) (hk : Carries k (kept s)) :
    Carries k (kept (atticWake cause src b s)) := by
  simp +contextual [atticWake, hk]

@[simp] theorem carries_wakeTaken {k : Kept} (lowNs : Nat) (balls : Balls) (s : State) (hk : Carries k (kept s)) :
    Carries k (kept (wakeTaken lowNs balls s)) := by
  unfold wakeTaken
  (repeat' split) <;> simp +contextual [hk]

@[simp] theorem carries_execWakeN {k : Kept} (lowNs : Nat) (balls : Balls) (s : State) (hk : Carries k (kept s)) :
    Carries k (kept (stateOf (execWakeN lowNs balls s) s)) := by
  simp +contextual [execWakeN, hk]

@[simp] theorem carries_execAtticPinWake {k : Kept} (source : Nat) (balls : Balls) (s : State) (hk : Carries k (kept s)) :
    Carries k (kept (stateOf (execAtticPinWake source balls s) s)) := by
  simp +contextual [execAtticPinWake, hk]

@[simp] theorem carries_execAtticTimerWake {k : Kept} (balls : Balls) (s : State) (hk : Carries k (kept s)) :
    Carries k (kept (stateOf (execAtticTimerWake balls s) s)) := by
  simp +contextual [execAtticTimerWake, hk]

@[simp] theorem kept_dResetFailed (d : Nat) (s : State) : kept (execHello.dResetFailed d s) = kept s := by
  unfold execHello.dResetFailed
  dsimp only
  have h2 : kept { modDie d (fun x => { x with dReset := none, dPending := none }) s with
      ring := { (modDie d (fun x => { x with dReset := none, dPending := none }) s).ring with
        present := (modDie d (fun x => { x with dReset := none, dPending := none }) s).ring.present ||| 2 ^ d } } = kept s := rfl
  split
  · rw [kept_complete]; exact h2
  · exact h2

theorem carries_execHello {k : Kept} (die_ : Fin 4) (st : SelfTest) (s : State) (hk : Carries k (kept s)) :
    Carries k (kept (stateOf (execHello die_ st s) s)) := by
  unfold execHello
  rw [stateOf_next]
  dsimp only
  split
  · exact hk
  · split
    · simpa using hk
    · split
      · split <;> simpa using hk
      · simpa using hk

theorem carries_execDiscover {k : Kept} (node : Fin 5) (east : Bool) (hops : Nat) (s : State) (hk : Carries k (kept s)) :
    Carries k (kept (stateOf (execDiscover node east hops s) s)) := by
  unfold execDiscover
  rw [stateOf_next]
  split
  · exact hk
  · dsimp only
    split
    · exact carries_discoveryEnds _ _ hk
    · split
      · exact hk
      · split <;> exact hk

@[simp] theorem carries_execDiscoverReturnTimeout {k : Kept} (s : State) (hk : Carries k (kept s)) :
    Carries k (kept (stateOf (execDiscoverReturnTimeout s) s)) := by
  unfold execDiscoverReturnTimeout
  (repeat' split) <;> simp +contextual [hk]

theorem carries_wdgEnds {k : Kept} (r : State × Bool) (hk : Carries k (kept r.1)) :
    Carries k (kept (wdgEnds r)) := by
  unfold wdgEnds
  split
  · simp [hk]
  · exact hk

theorem carries_wdgKey {k : Kept} (v : View) (n w : Nat) (s : State) (hk : Carries k (kept s)) :
    Carries k (kept (wdgKey v n w s)) := by
  unfold wdgKey
  split
  · exact carries_wdgEnds _ (by simpa using hk)
  · exact hk

theorem carries_serviceWrite {k : Kept} (v : View) (n w : Nat) (s : State) (hk : Carries k (kept s)) :
    Carries k (kept (serviceWrite v n w s)) := by
  unfold serviceWrite
  split
  · simpa using hk
  · exact carries_wdgKey _ _ _ _ hk

theorem carries_execWdgArm {k : Kept} (view : View) (unit : Fin 8) (upper : BitVec 24) (s : State)
    (hk : Carries k (kept s)) : Carries k (kept (stateOf (execWdgArm view unit upper s) s)) := by
  unfold execWdgArm
  rw [stateOf_next]
  split
  · exact carries_serviceWrite _ _ _ _ hk
  · exact hk

theorem carries_execWdgService {k : Kept} (view : View) (unit : Fin 8) (upper : BitVec 24) (s : State)
    (hk : Carries k (kept s)) : Carries k (kept (stateOf (execWdgService view unit upper s) s)) := by
  unfold execWdgService
  rw [stateOf_next]
  split
  · exact carries_serviceWrite _ _ _ _ hk
  · exact hk

theorem carries_execWdgExpiry {k : Kept} (n : Fin 8) (s : State) (hk : Carries k (kept s)) :
    Carries k (kept (stateOf (execWdgExpiry n s) s)) := by
  exact carries_wdgEnds _ (by simpa using hk)

theorem carries_execTaskCycleEnd {k : Kept} (n : Fin 8) (s : State) (hk : Carries k (kept s)) :
    Carries k (kept (stateOf (execTaskCycleEnd n s) s)) := by
  exact carries_wdgEnds _ (by simpa using hk)

@[simp] theorem carries_regWrite {k : Kept} (v : View) (a w : Nat) (s : State) (hk : Carries k (kept s)) :
    Carries k (kept (regWrite v a w s)) := by
  have hw : ∀ v n w, Carries k (kept (wdgKey v n w s)) := fun _ _ _ => carries_wdgKey _ _ _ _ hk
  have h1 : ∀ o, Carries k (kept (wdgRegWrite o w s)) := by
    intro o
    unfold wdgRegWrite
    (repeat' split) <;> first | exact hw .. | simpa using hk
  have h2 : Carries k (kept (intWrite a w s)) := by
    unfold intWrite
    dsimp only
    (repeat' split) <;> first | exact h1 _ | simpa using hk
  unfold regWrite
  dsimp only
  (repeat' split) <;> first | exact h2 | exact hw .. | simpa using hk

theorem carries_runCommand {k : Kept} (i : Instr) (s : State) (hk : Carries k (kept s)) :
    Carries k (kept (stateOf (runCommand i s) s)) := by
  unfold runCommand
  split <;> first
    | (simp only [stateOf_next]; exact hk)
    | (simp [hk]; done)
    | with_reducible exact carries_execSleepRun _ _ hk
    | with_reducible exact carries_execSleepDoze _ _ hk
    | with_reducible exact carries_execSleepAttic _ _ _ hk
    | with_reducible exact carries_execSystemReset _ _ hk
    | with_reducible exact carries_execLockstepSplit _ _ hk
    | with_reducible exact carries_execLockstepRejoin _ _ _ hk

@[simp] theorem carries_runEntry {k : Kept} (h : Hdr) (e data : List Byte) (s : State)
    (hk : Carries k (kept s)) : Carries k (kept (runEntry h e data s)) := by
  unfold runEntry
  split
  · exact carries_runCommand _ (drawn s) (by simpa using hk)
  · simpa using hk
  · simpa using hk

@[simp] theorem carries_takeS {k : Kept} (w : Hdr × List Byte × List Byte) (s : State) (hk : Carries k (kept s)) :
    Carries k (kept (takeS w s)) := carries_runEntry _ _ _ _ hk

@[simp] theorem carries_takeN {k : Kept} (w : Hdr × List Byte × List Byte) (s : State) (hk : Carries k (kept s)) :
    Carries k (kept (takeN w s)) := by
  have h : Carries k (kept { s with seats := { s.seats with nWait := s.seats.nWait.drop 1, lastSeat := 2 } }) := hk
  unfold takeN
  generalize ({ s with seats := { s.seats with nWait := s.seats.nWait.drop 1, lastSeat := 2 } } : State) = t at *
  dsimp only
  split
  · rw [kept_refusedWith]; exact h
  · exact carries_runEntry _ _ _ _ h

@[simp] theorem carries_arbiterSteps {k : Kept} (n : Nat) (s : State) (hk : Carries k (kept s)) :
    Carries k (kept (arbiterSteps n s)) := by
  induction n generalizing s with
  | zero => exact hk
  | succ n ih =>
    unfold arbiterSteps
    split
    · exact ih _ (carries_takeS _ _ hk)
    · exact ih _ (carries_takeN _ _ hk)
    · exact hk

@[simp] theorem carries_arbiterRuns {k : Kept} (s : State) (hk : Carries k (kept s)) :
    Carries k (kept (arbiterRuns s)) := by
  simp +contextual [arbiterRuns, hk]

@[simp] theorem carries_execQueueDisable {k : Kept} (seat : Seat) (q : Fin 64) (s : State) (hk : Carries k (kept s)) :
    Carries k (kept (stateOf (execQueueDisable seat q s) s)) := by
  simp +contextual [execQueueDisable, hk]

@[simp] theorem carries_execCommandFetch {k : Kept} (entry : List Byte) (s : State) (hk : Carries k (kept s)) :
    Carries k (kept (stateOf (execCommandFetch entry s) s)) := by
  unfold execCommandFetch
  (repeat' split) <;> simp +contextual [hk]

@[simp] theorem carries_execHostDmaReadDone {k : Kept} (seat : Seat) (q : Fin 64) (ends : HostAnswer) (s : State) (hk : Carries k (kept s)) :
    Carries k (kept (stateOf (execHostDmaReadDone seat q ends s) s)) := by
  unfold execHostDmaReadDone
  dsimp only
  (repeat' split) <;> simp +contextual [hk]

@[simp] theorem carries_execUsbSubmission {k : Kept} (entry : List Byte) (data : List Byte) (s : State) (hk : Carries k (kept s)) :
    Carries k (kept (stateOf (execUsbSubmission entry data s) s)) := by
  unfold execUsbSubmission
  dsimp only
  (repeat' split) <;> simp +contextual [hk]

@[simp] theorem carries_execSeatNDatagram {k : Kept} (port : Fin 2) (srcIp : Word) (srcPort : Nat) (bytes : List Byte) (s : State) (hk : Carries k (kept s)) :
    Carries k (kept (stateOf (execSeatNDatagram port srcIp srcPort bytes s) s)) := by
  unfold execSeatNDatagram
  dsimp only
  (repeat' split) <;> simp +contextual [hk]

@[simp] theorem carries_seatReset {k : Kept} (x : Seat) (perst : Bool) (s : State) (hk : Carries k (kept s)) :
    Carries k (kept (seatReset x perst s)) := by
  simp +contextual [seatReset, hk]

@[simp] theorem carries_execSeatReset {k : Kept} (seat : Seat) (cause : SeatResetCause) (s : State) (hk : Carries k (kept s)) :
    Carries k (kept (stateOf (execSeatReset seat cause s) s)) := by
  unfold execSeatReset
  (repeat' split) <;> simp +contextual [hk]

@[simp] theorem carries_configWrite {k : Kept} (x : Seat) (o : Nat) (v : Nat) (s : State) (hk : Carries k (kept s)) :
    Carries k (kept (configWrite x o v s)) := by
  unfold configWrite
  (repeat' split) <;> simp +contextual [hk]

@[simp] theorem carries_hostWrite {k : Kept} (x : Seat) (a : Nat) (v : Nat) (s : State) (hk : Carries k (kept s)) :
    Carries k (kept (hostWrite x a v s)) := by
  unfold hostWrite
  (repeat' split) <;> simp +contextual [hk]

@[simp] theorem carries_chkWrite {k : Kept} (a : Nat) (w : Nat) (s : State) (hk : Carries k (kept s)) :
    Carries k (kept (chkWrite a w s)) := by
  simp +contextual [chkWrite, hk]

@[simp] theorem carries_execRegisterWrite {k : Kept} (view : View) (addr : Nat) (width : Nat) (v : Word) (s : State) (hk : Carries k (kept s)) :
    Carries k (kept (stateOf (execRegisterWrite view addr width v s) s)) := by
  unfold execRegisterWrite
  (repeat' split) <;> simp +contextual [hk]

@[simp] theorem carries_gatePass {k : Kept} (n : Nat) (s : State) (hk : Carries k (kept s)) :
    Carries k (kept (gatePass n s)) := by
  induction n generalizing s with
  | zero => exact hk
  | succ n ih =>
    unfold gatePass
    split
    · split
      · exact ih _ (carries_regWrite _ _ _ _ hk)
      · exact hk
    · exact hk

@[simp] theorem carries_idle {k : Kept} (s : State) (hk : Carries k (kept s)) :
    Carries k (kept (idle s)) := by
  simp +contextual [idle, hk]

@[simp] theorem carries_retentionPut {k : Kept} (o : Nat) (v : Word) (s : State) (hk : Carries k (kept s)) :
    Carries k (kept (retentionPut o v s)) := by
  obtain ⟨h1, h2, h3⟩ := hk
  exact ⟨h1, h2, fun h => ⟨(h3 h).1, (h3 h).2.1, memWrite_wf _ _ _ (h3 h).2.2⟩⟩

@[simp] theorem carries_debugWrite {k : Kept} (a : Nat) (v : Word) (s : State) (hk : Carries k (kept s)) :
    Carries k (kept (debugWrite a v s)) := by
  unfold debugWrite
  (repeat' split) <;> simp +contextual [hk]

theorem carries_execSystemBusAccess {k : Kept} (write : Bool) (addr : Nat) (v : Word) (s : State) (hk : Carries k (kept s)) :
    Carries k (kept (stateOf (execSystemBusAccess write addr v s) s)) := by
  unfold execSystemBusAccess
  rw [stateOf_next]
  (repeat' split) <;> simp [hk]

/-- Every command carries the kept part on. -/
theorem carries_exec {k : Kept} (c : Instr) (s : State) (hk : Carries k (kept s)) : Carries k (kept (stateOf (exec c s) s)) := by
  cases c <;> dsimp only [exec] <;> first
    | (simp [hk]; done)
    | (simp only [stateOf_next]; exact hk)
    | with_reducible exact carries_execSleepRun _ _ hk
    | with_reducible exact carries_execSleepDoze _ _ hk
    | with_reducible exact carries_execSleepAttic _ _ _ hk
    | with_reducible exact carries_execSystemReset _ _ hk
    | with_reducible exact carries_execLockstepSplit _ _ hk
    | with_reducible exact carries_execLockstepRejoin _ _ _ hk
    | with_reducible exact carries_execAbstractWrite _ _ _ hk
    | with_reducible exact carries_execSystemBusAccess _ _ _ _ hk
    | with_reducible exact carries_execWdgArm _ _ _ _ hk
    | with_reducible exact carries_execWdgService _ _ _ _ hk
    | with_reducible exact carries_execWdgExpiry _ _ hk
    | with_reducible exact carries_execTaskCycleEnd _ _ hk
    | with_reducible exact carries_execHello _ _ _ hk
    | with_reducible exact carries_execNapSelfRefresh _ hk
    | with_reducible exact carries_execWakeN _ _ _ hk
    | with_reducible exact carries_execDiscover _ _ _ _ hk

end Sys2Proof.Machine
end

