-- ==== Sys2Proof/Laws/State.lean ====
section
/-! SUPPORT. Laws/State.lean: what each update of the state leaves alone, one lemma per field, and what it does to the part it changes. -/

namespace Sys2Proof.Machine

@[simp] theorem drawn_pending  (s : State) : (drawn s).pending = s.pending := rfl
@[simp] theorem drawn_out  (s : State) : (drawn s).out = s.out := rfl
@[simp] theorem drawn_boot  (s : State) : (drawn s).boot = s.boot := rfl
@[simp] theorem drawn_releaseX  (s : State) : (drawn s).releaseX = s.releaseX := rfl
@[simp] theorem drawn_latch  (s : State) : (drawn s).latch = s.latch := rfl
@[simp] theorem drawn_time  (s : State) : (drawn s).time = s.time := rfl
@[simp] theorem drawn_icu  (s : State) : (drawn s).icu = s.icu := rfl
@[simp] theorem drawn_wdg  (s : State) : (drawn s).wdg = s.wdg := rfl
@[simp] theorem drawn_crc  (s : State) : (drawn s).crc = s.crc := rfl
@[simp] theorem drawn_net  (s : State) : (drawn s).net = s.net := rfl
@[simp] theorem drawn_sio  (s : State) : (drawn s).sio = s.sio := rfl
@[simp] theorem drawn_cap  (s : State) : (drawn s).cap = s.cap := rfl
@[simp] theorem drawn_dies  (s : State) : (drawn s).dies = s.dies := rfl
@[simp] theorem drawn_ring  (s : State) : (drawn s).ring = s.ring := rfl
@[simp] theorem drawn_parts  (s : State) : (drawn s).parts = s.parts := rfl
@[simp] theorem drawn_frames  (s : State) : (drawn s).frames = s.frames := rfl
@[simp] theorem drawn_evd  (s : State) : (drawn s).evd = s.evd := rfl
@[simp] theorem drawn_seats  (s : State) : (drawn s).seats = s.seats := rfl
@[simp] theorem drawn_upd  (s : State) : (drawn s).upd = s.upd := rfl
@[simp] theorem drawn_pair  (s : State) : (drawn s).pair = s.pair := rfl
@[simp] theorem drawn_pwr  (s : State) : (drawn s).pwr = s.pwr := rfl
@[simp] theorem drawn_snap  (s : State) : (drawn s).snap = s.snap := rfl

@[simp] theorem emit_pending (o : Out) (s : State) : (emit o s).pending = s.pending := rfl
@[simp] theorem emit_free (o : Out) (s : State) : (emit o s).free = s.free := rfl
@[simp] theorem emit_boot (o : Out) (s : State) : (emit o s).boot = s.boot := rfl
@[simp] theorem emit_releaseX (o : Out) (s : State) : (emit o s).releaseX = s.releaseX := rfl
@[simp] theorem emit_latch (o : Out) (s : State) : (emit o s).latch = s.latch := rfl
@[simp] theorem emit_time (o : Out) (s : State) : (emit o s).time = s.time := rfl
@[simp] theorem emit_icu (o : Out) (s : State) : (emit o s).icu = s.icu := rfl
@[simp] theorem emit_wdg (o : Out) (s : State) : (emit o s).wdg = s.wdg := rfl
@[simp] theorem emit_crc (o : Out) (s : State) : (emit o s).crc = s.crc := rfl
@[simp] theorem emit_net (o : Out) (s : State) : (emit o s).net = s.net := rfl
@[simp] theorem emit_sio (o : Out) (s : State) : (emit o s).sio = s.sio := rfl
@[simp] theorem emit_cap (o : Out) (s : State) : (emit o s).cap = s.cap := rfl
@[simp] theorem emit_dies (o : Out) (s : State) : (emit o s).dies = s.dies := rfl
@[simp] theorem emit_ring (o : Out) (s : State) : (emit o s).ring = s.ring := rfl
@[simp] theorem emit_parts (o : Out) (s : State) : (emit o s).parts = s.parts := rfl
@[simp] theorem emit_frames (o : Out) (s : State) : (emit o s).frames = s.frames := rfl
@[simp] theorem emit_evd (o : Out) (s : State) : (emit o s).evd = s.evd := rfl
@[simp] theorem emit_seats (o : Out) (s : State) : (emit o s).seats = s.seats := rfl
@[simp] theorem emit_upd (o : Out) (s : State) : (emit o s).upd = s.upd := rfl
@[simp] theorem emit_pair (o : Out) (s : State) : (emit o s).pair = s.pair := rfl
@[simp] theorem emit_pwr (o : Out) (s : State) : (emit o s).pwr = s.pwr := rfl
@[simp] theorem emit_snap (o : Out) (s : State) : (emit o s).snap = s.snap := rfl

@[simp] theorem modDie_pending (d : Nat) (f : Die → Die) (s : State) : (modDie d f s).pending = s.pending := rfl
@[simp] theorem modDie_free (d : Nat) (f : Die → Die) (s : State) : (modDie d f s).free = s.free := rfl
@[simp] theorem modDie_out (d : Nat) (f : Die → Die) (s : State) : (modDie d f s).out = s.out := rfl
@[simp] theorem modDie_boot (d : Nat) (f : Die → Die) (s : State) : (modDie d f s).boot = s.boot := rfl
@[simp] theorem modDie_releaseX (d : Nat) (f : Die → Die) (s : State) : (modDie d f s).releaseX = s.releaseX := rfl
@[simp] theorem modDie_latch (d : Nat) (f : Die → Die) (s : State) : (modDie d f s).latch = s.latch := rfl
@[simp] theorem modDie_time (d : Nat) (f : Die → Die) (s : State) : (modDie d f s).time = s.time := rfl
@[simp] theorem modDie_icu (d : Nat) (f : Die → Die) (s : State) : (modDie d f s).icu = s.icu := rfl
@[simp] theorem modDie_wdg (d : Nat) (f : Die → Die) (s : State) : (modDie d f s).wdg = s.wdg := rfl
@[simp] theorem modDie_crc (d : Nat) (f : Die → Die) (s : State) : (modDie d f s).crc = s.crc := rfl
@[simp] theorem modDie_net (d : Nat) (f : Die → Die) (s : State) : (modDie d f s).net = s.net := rfl
@[simp] theorem modDie_sio (d : Nat) (f : Die → Die) (s : State) : (modDie d f s).sio = s.sio := rfl
@[simp] theorem modDie_cap (d : Nat) (f : Die → Die) (s : State) : (modDie d f s).cap = s.cap := rfl
@[simp] theorem modDie_ring (d : Nat) (f : Die → Die) (s : State) : (modDie d f s).ring = s.ring := rfl
@[simp] theorem modDie_parts (d : Nat) (f : Die → Die) (s : State) : (modDie d f s).parts = s.parts := rfl
@[simp] theorem modDie_frames (d : Nat) (f : Die → Die) (s : State) : (modDie d f s).frames = s.frames := rfl
@[simp] theorem modDie_evd (d : Nat) (f : Die → Die) (s : State) : (modDie d f s).evd = s.evd := rfl
@[simp] theorem modDie_seats (d : Nat) (f : Die → Die) (s : State) : (modDie d f s).seats = s.seats := rfl
@[simp] theorem modDie_upd (d : Nat) (f : Die → Die) (s : State) : (modDie d f s).upd = s.upd := rfl
@[simp] theorem modDie_pair (d : Nat) (f : Die → Die) (s : State) : (modDie d f s).pair = s.pair := rfl
@[simp] theorem modDie_pwr (d : Nat) (f : Die → Die) (s : State) : (modDie d f s).pwr = s.pwr := rfl
@[simp] theorem modDie_snap (d : Nat) (f : Die → Die) (s : State) : (modDie d f s).snap = s.snap := rfl

@[simp] theorem modPart_pending (n : Nat) (f : Part → Part) (s : State) : (modPart n f s).pending = s.pending := rfl
@[simp] theorem modPart_free (n : Nat) (f : Part → Part) (s : State) : (modPart n f s).free = s.free := rfl
@[simp] theorem modPart_out (n : Nat) (f : Part → Part) (s : State) : (modPart n f s).out = s.out := rfl
@[simp] theorem modPart_boot (n : Nat) (f : Part → Part) (s : State) : (modPart n f s).boot = s.boot := rfl
@[simp] theorem modPart_releaseX (n : Nat) (f : Part → Part) (s : State) : (modPart n f s).releaseX = s.releaseX := rfl
@[simp] theorem modPart_latch (n : Nat) (f : Part → Part) (s : State) : (modPart n f s).latch = s.latch := rfl
@[simp] theorem modPart_time (n : Nat) (f : Part → Part) (s : State) : (modPart n f s).time = s.time := rfl
@[simp] theorem modPart_icu (n : Nat) (f : Part → Part) (s : State) : (modPart n f s).icu = s.icu := rfl
@[simp] theorem modPart_wdg (n : Nat) (f : Part → Part) (s : State) : (modPart n f s).wdg = s.wdg := rfl
@[simp] theorem modPart_crc (n : Nat) (f : Part → Part) (s : State) : (modPart n f s).crc = s.crc := rfl
@[simp] theorem modPart_net (n : Nat) (f : Part → Part) (s : State) : (modPart n f s).net = s.net := rfl
@[simp] theorem modPart_sio (n : Nat) (f : Part → Part) (s : State) : (modPart n f s).sio = s.sio := rfl
@[simp] theorem modPart_cap (n : Nat) (f : Part → Part) (s : State) : (modPart n f s).cap = s.cap := rfl
@[simp] theorem modPart_dies (n : Nat) (f : Part → Part) (s : State) : (modPart n f s).dies = s.dies := rfl
@[simp] theorem modPart_ring (n : Nat) (f : Part → Part) (s : State) : (modPart n f s).ring = s.ring := rfl
@[simp] theorem modPart_frames (n : Nat) (f : Part → Part) (s : State) : (modPart n f s).frames = s.frames := rfl
@[simp] theorem modPart_evd (n : Nat) (f : Part → Part) (s : State) : (modPart n f s).evd = s.evd := rfl
@[simp] theorem modPart_seats (n : Nat) (f : Part → Part) (s : State) : (modPart n f s).seats = s.seats := rfl
@[simp] theorem modPart_upd (n : Nat) (f : Part → Part) (s : State) : (modPart n f s).upd = s.upd := rfl
@[simp] theorem modPart_pair (n : Nat) (f : Part → Part) (s : State) : (modPart n f s).pair = s.pair := rfl
@[simp] theorem modPart_pwr (n : Nat) (f : Part → Part) (s : State) : (modPart n f s).pwr = s.pwr := rfl
@[simp] theorem modPart_snap (n : Nat) (f : Part → Part) (s : State) : (modPart n f s).snap = s.snap := rfl

@[simp] theorem modRegion_pending (n r : Nat) (f : RegionRt → RegionRt) (s : State) : (modRegion n r f s).pending = s.pending := rfl
@[simp] theorem modRegion_free (n r : Nat) (f : RegionRt → RegionRt) (s : State) : (modRegion n r f s).free = s.free := rfl
@[simp] theorem modRegion_out (n r : Nat) (f : RegionRt → RegionRt) (s : State) : (modRegion n r f s).out = s.out := rfl
@[simp] theorem modRegion_boot (n r : Nat) (f : RegionRt → RegionRt) (s : State) : (modRegion n r f s).boot = s.boot := rfl
@[simp] theorem modRegion_releaseX (n r : Nat) (f : RegionRt → RegionRt) (s : State) : (modRegion n r f s).releaseX = s.releaseX := rfl
@[simp] theorem modRegion_latch (n r : Nat) (f : RegionRt → RegionRt) (s : State) : (modRegion n r f s).latch = s.latch := rfl
@[simp] theorem modRegion_time (n r : Nat) (f : RegionRt → RegionRt) (s : State) : (modRegion n r f s).time = s.time := rfl
@[simp] theorem modRegion_icu (n r : Nat) (f : RegionRt → RegionRt) (s : State) : (modRegion n r f s).icu = s.icu := rfl
@[simp] theorem modRegion_wdg (n r : Nat) (f : RegionRt → RegionRt) (s : State) : (modRegion n r f s).wdg = s.wdg := rfl
@[simp] theorem modRegion_crc (n r : Nat) (f : RegionRt → RegionRt) (s : State) : (modRegion n r f s).crc = s.crc := rfl
@[simp] theorem modRegion_net (n r : Nat) (f : RegionRt → RegionRt) (s : State) : (modRegion n r f s).net = s.net := rfl
@[simp] theorem modRegion_sio (n r : Nat) (f : RegionRt → RegionRt) (s : State) : (modRegion n r f s).sio = s.sio := rfl
@[simp] theorem modRegion_cap (n r : Nat) (f : RegionRt → RegionRt) (s : State) : (modRegion n r f s).cap = s.cap := rfl
@[simp] theorem modRegion_dies (n r : Nat) (f : RegionRt → RegionRt) (s : State) : (modRegion n r f s).dies = s.dies := rfl
@[simp] theorem modRegion_ring (n r : Nat) (f : RegionRt → RegionRt) (s : State) : (modRegion n r f s).ring = s.ring := rfl
@[simp] theorem modRegion_frames (n r : Nat) (f : RegionRt → RegionRt) (s : State) : (modRegion n r f s).frames = s.frames := rfl
@[simp] theorem modRegion_evd (n r : Nat) (f : RegionRt → RegionRt) (s : State) : (modRegion n r f s).evd = s.evd := rfl
@[simp] theorem modRegion_seats (n r : Nat) (f : RegionRt → RegionRt) (s : State) : (modRegion n r f s).seats = s.seats := rfl
@[simp] theorem modRegion_upd (n r : Nat) (f : RegionRt → RegionRt) (s : State) : (modRegion n r f s).upd = s.upd := rfl
@[simp] theorem modRegion_pair (n r : Nat) (f : RegionRt → RegionRt) (s : State) : (modRegion n r f s).pair = s.pair := rfl
@[simp] theorem modRegion_pwr (n r : Nat) (f : RegionRt → RegionRt) (s : State) : (modRegion n r f s).pwr = s.pwr := rfl
@[simp] theorem modRegion_snap (n r : Nat) (f : RegionRt → RegionRt) (s : State) : (modRegion n r f s).snap = s.snap := rfl

@[simp] theorem modCtx_pending (d c : Nat) (f : Ctx → Ctx) (s : State) : (modCtx d c f s).pending = s.pending := rfl
@[simp] theorem modCtx_free (d c : Nat) (f : Ctx → Ctx) (s : State) : (modCtx d c f s).free = s.free := rfl
@[simp] theorem modCtx_out (d c : Nat) (f : Ctx → Ctx) (s : State) : (modCtx d c f s).out = s.out := rfl
@[simp] theorem modCtx_boot (d c : Nat) (f : Ctx → Ctx) (s : State) : (modCtx d c f s).boot = s.boot := rfl
@[simp] theorem modCtx_releaseX (d c : Nat) (f : Ctx → Ctx) (s : State) : (modCtx d c f s).releaseX = s.releaseX := rfl
@[simp] theorem modCtx_latch (d c : Nat) (f : Ctx → Ctx) (s : State) : (modCtx d c f s).latch = s.latch := rfl
@[simp] theorem modCtx_time (d c : Nat) (f : Ctx → Ctx) (s : State) : (modCtx d c f s).time = s.time := rfl
@[simp] theorem modCtx_icu (d c : Nat) (f : Ctx → Ctx) (s : State) : (modCtx d c f s).icu = s.icu := rfl
@[simp] theorem modCtx_wdg (d c : Nat) (f : Ctx → Ctx) (s : State) : (modCtx d c f s).wdg = s.wdg := rfl
@[simp] theorem modCtx_crc (d c : Nat) (f : Ctx → Ctx) (s : State) : (modCtx d c f s).crc = s.crc := rfl
@[simp] theorem modCtx_net (d c : Nat) (f : Ctx → Ctx) (s : State) : (modCtx d c f s).net = s.net := rfl
@[simp] theorem modCtx_sio (d c : Nat) (f : Ctx → Ctx) (s : State) : (modCtx d c f s).sio = s.sio := rfl
@[simp] theorem modCtx_cap (d c : Nat) (f : Ctx → Ctx) (s : State) : (modCtx d c f s).cap = s.cap := rfl
@[simp] theorem modCtx_ring (d c : Nat) (f : Ctx → Ctx) (s : State) : (modCtx d c f s).ring = s.ring := rfl
@[simp] theorem modCtx_parts (d c : Nat) (f : Ctx → Ctx) (s : State) : (modCtx d c f s).parts = s.parts := rfl
@[simp] theorem modCtx_frames (d c : Nat) (f : Ctx → Ctx) (s : State) : (modCtx d c f s).frames = s.frames := rfl
@[simp] theorem modCtx_evd (d c : Nat) (f : Ctx → Ctx) (s : State) : (modCtx d c f s).evd = s.evd := rfl
@[simp] theorem modCtx_seats (d c : Nat) (f : Ctx → Ctx) (s : State) : (modCtx d c f s).seats = s.seats := rfl
@[simp] theorem modCtx_upd (d c : Nat) (f : Ctx → Ctx) (s : State) : (modCtx d c f s).upd = s.upd := rfl
@[simp] theorem modCtx_pair (d c : Nat) (f : Ctx → Ctx) (s : State) : (modCtx d c f s).pair = s.pair := rfl
@[simp] theorem modCtx_pwr (d c : Nat) (f : Ctx → Ctx) (s : State) : (modCtx d c f s).pwr = s.pwr := rfl
@[simp] theorem modCtx_snap (d c : Nat) (f : Ctx → Ctx) (s : State) : (modCtx d c f s).snap = s.snap := rfl

@[simp] theorem modCore_pending (d i : Nat) (f : Core → Core) (s : State) : (modCore d i f s).pending = s.pending := rfl
@[simp] theorem modCore_free (d i : Nat) (f : Core → Core) (s : State) : (modCore d i f s).free = s.free := rfl
@[simp] theorem modCore_out (d i : Nat) (f : Core → Core) (s : State) : (modCore d i f s).out = s.out := rfl
@[simp] theorem modCore_boot (d i : Nat) (f : Core → Core) (s : State) : (modCore d i f s).boot = s.boot := rfl
@[simp] theorem modCore_releaseX (d i : Nat) (f : Core → Core) (s : State) : (modCore d i f s).releaseX = s.releaseX := rfl
@[simp] theorem modCore_latch (d i : Nat) (f : Core → Core) (s : State) : (modCore d i f s).latch = s.latch := rfl
@[simp] theorem modCore_time (d i : Nat) (f : Core → Core) (s : State) : (modCore d i f s).time = s.time := rfl
@[simp] theorem modCore_icu (d i : Nat) (f : Core → Core) (s : State) : (modCore d i f s).icu = s.icu := rfl
@[simp] theorem modCore_wdg (d i : Nat) (f : Core → Core) (s : State) : (modCore d i f s).wdg = s.wdg := rfl
@[simp] theorem modCore_crc (d i : Nat) (f : Core → Core) (s : State) : (modCore d i f s).crc = s.crc := rfl
@[simp] theorem modCore_net (d i : Nat) (f : Core → Core) (s : State) : (modCore d i f s).net = s.net := rfl
@[simp] theorem modCore_sio (d i : Nat) (f : Core → Core) (s : State) : (modCore d i f s).sio = s.sio := rfl
@[simp] theorem modCore_cap (d i : Nat) (f : Core → Core) (s : State) : (modCore d i f s).cap = s.cap := rfl
@[simp] theorem modCore_ring (d i : Nat) (f : Core → Core) (s : State) : (modCore d i f s).ring = s.ring := rfl
@[simp] theorem modCore_parts (d i : Nat) (f : Core → Core) (s : State) : (modCore d i f s).parts = s.parts := rfl
@[simp] theorem modCore_frames (d i : Nat) (f : Core → Core) (s : State) : (modCore d i f s).frames = s.frames := rfl
@[simp] theorem modCore_evd (d i : Nat) (f : Core → Core) (s : State) : (modCore d i f s).evd = s.evd := rfl
@[simp] theorem modCore_seats (d i : Nat) (f : Core → Core) (s : State) : (modCore d i f s).seats = s.seats := rfl
@[simp] theorem modCore_upd (d i : Nat) (f : Core → Core) (s : State) : (modCore d i f s).upd = s.upd := rfl
@[simp] theorem modCore_pair (d i : Nat) (f : Core → Core) (s : State) : (modCore d i f s).pair = s.pair := rfl
@[simp] theorem modCore_pwr (d i : Nat) (f : Core → Core) (s : State) : (modCore d i f s).pwr = s.pwr := rfl
@[simp] theorem modCore_snap (d i : Nat) (f : Core → Core) (s : State) : (modCore d i f s).snap = s.snap := rfl

@[simp] theorem modFrame_pending (i : FrameId) (g : Frame → Frame) (s : State) : (modFrame i g s).pending = s.pending := rfl
@[simp] theorem modFrame_free (i : FrameId) (g : Frame → Frame) (s : State) : (modFrame i g s).free = s.free := rfl
@[simp] theorem modFrame_out (i : FrameId) (g : Frame → Frame) (s : State) : (modFrame i g s).out = s.out := rfl
@[simp] theorem modFrame_boot (i : FrameId) (g : Frame → Frame) (s : State) : (modFrame i g s).boot = s.boot := rfl
@[simp] theorem modFrame_releaseX (i : FrameId) (g : Frame → Frame) (s : State) : (modFrame i g s).releaseX = s.releaseX := rfl
@[simp] theorem modFrame_latch (i : FrameId) (g : Frame → Frame) (s : State) : (modFrame i g s).latch = s.latch := rfl
@[simp] theorem modFrame_time (i : FrameId) (g : Frame → Frame) (s : State) : (modFrame i g s).time = s.time := rfl
@[simp] theorem modFrame_icu (i : FrameId) (g : Frame → Frame) (s : State) : (modFrame i g s).icu = s.icu := rfl
@[simp] theorem modFrame_wdg (i : FrameId) (g : Frame → Frame) (s : State) : (modFrame i g s).wdg = s.wdg := rfl
@[simp] theorem modFrame_crc (i : FrameId) (g : Frame → Frame) (s : State) : (modFrame i g s).crc = s.crc := rfl
@[simp] theorem modFrame_net (i : FrameId) (g : Frame → Frame) (s : State) : (modFrame i g s).net = s.net := rfl
@[simp] theorem modFrame_sio (i : FrameId) (g : Frame → Frame) (s : State) : (modFrame i g s).sio = s.sio := rfl
@[simp] theorem modFrame_cap (i : FrameId) (g : Frame → Frame) (s : State) : (modFrame i g s).cap = s.cap := rfl
@[simp] theorem modFrame_dies (i : FrameId) (g : Frame → Frame) (s : State) : (modFrame i g s).dies = s.dies := rfl
@[simp] theorem modFrame_ring (i : FrameId) (g : Frame → Frame) (s : State) : (modFrame i g s).ring = s.ring := rfl
@[simp] theorem modFrame_parts (i : FrameId) (g : Frame → Frame) (s : State) : (modFrame i g s).parts = s.parts := rfl
@[simp] theorem modFrame_evd (i : FrameId) (g : Frame → Frame) (s : State) : (modFrame i g s).evd = s.evd := rfl
@[simp] theorem modFrame_seats (i : FrameId) (g : Frame → Frame) (s : State) : (modFrame i g s).seats = s.seats := rfl
@[simp] theorem modFrame_upd (i : FrameId) (g : Frame → Frame) (s : State) : (modFrame i g s).upd = s.upd := rfl
@[simp] theorem modFrame_pair (i : FrameId) (g : Frame → Frame) (s : State) : (modFrame i g s).pair = s.pair := rfl
@[simp] theorem modFrame_pwr (i : FrameId) (g : Frame → Frame) (s : State) : (modFrame i g s).pwr = s.pwr := rfl
@[simp] theorem modFrame_snap (i : FrameId) (g : Frame → Frame) (s : State) : (modFrame i g s).snap = s.snap := rfl

@[simp] theorem dropFrame_pending (i : FrameId) (s : State) : (dropFrame i s).pending = s.pending := rfl
@[simp] theorem dropFrame_free (i : FrameId) (s : State) : (dropFrame i s).free = s.free := rfl
@[simp] theorem dropFrame_out (i : FrameId) (s : State) : (dropFrame i s).out = s.out := rfl
@[simp] theorem dropFrame_boot (i : FrameId) (s : State) : (dropFrame i s).boot = s.boot := rfl
@[simp] theorem dropFrame_releaseX (i : FrameId) (s : State) : (dropFrame i s).releaseX = s.releaseX := rfl
@[simp] theorem dropFrame_latch (i : FrameId) (s : State) : (dropFrame i s).latch = s.latch := rfl
@[simp] theorem dropFrame_time (i : FrameId) (s : State) : (dropFrame i s).time = s.time := rfl
@[simp] theorem dropFrame_icu (i : FrameId) (s : State) : (dropFrame i s).icu = s.icu := rfl
@[simp] theorem dropFrame_wdg (i : FrameId) (s : State) : (dropFrame i s).wdg = s.wdg := rfl
@[simp] theorem dropFrame_crc (i : FrameId) (s : State) : (dropFrame i s).crc = s.crc := rfl
@[simp] theorem dropFrame_net (i : FrameId) (s : State) : (dropFrame i s).net = s.net := rfl
@[simp] theorem dropFrame_sio (i : FrameId) (s : State) : (dropFrame i s).sio = s.sio := rfl
@[simp] theorem dropFrame_cap (i : FrameId) (s : State) : (dropFrame i s).cap = s.cap := rfl
@[simp] theorem dropFrame_dies (i : FrameId) (s : State) : (dropFrame i s).dies = s.dies := rfl
@[simp] theorem dropFrame_ring (i : FrameId) (s : State) : (dropFrame i s).ring = s.ring := rfl
@[simp] theorem dropFrame_parts (i : FrameId) (s : State) : (dropFrame i s).parts = s.parts := rfl
@[simp] theorem dropFrame_evd (i : FrameId) (s : State) : (dropFrame i s).evd = s.evd := rfl
@[simp] theorem dropFrame_seats (i : FrameId) (s : State) : (dropFrame i s).seats = s.seats := rfl
@[simp] theorem dropFrame_upd (i : FrameId) (s : State) : (dropFrame i s).upd = s.upd := rfl
@[simp] theorem dropFrame_pair (i : FrameId) (s : State) : (dropFrame i s).pair = s.pair := rfl
@[simp] theorem dropFrame_pwr (i : FrameId) (s : State) : (dropFrame i s).pwr = s.pwr := rfl
@[simp] theorem dropFrame_snap (i : FrameId) (s : State) : (dropFrame i s).snap = s.snap := rfl

@[simp] theorem modSeat_pending (x : Seat) (f : SeatSt → SeatSt) (s : State) : (modSeat x f s).pending = s.pending := by cases x <;> rfl
@[simp] theorem modSeat_free (x : Seat) (f : SeatSt → SeatSt) (s : State) : (modSeat x f s).free = s.free := by cases x <;> rfl
@[simp] theorem modSeat_out (x : Seat) (f : SeatSt → SeatSt) (s : State) : (modSeat x f s).out = s.out := by cases x <;> rfl
@[simp] theorem modSeat_boot (x : Seat) (f : SeatSt → SeatSt) (s : State) : (modSeat x f s).boot = s.boot := by cases x <;> rfl
@[simp] theorem modSeat_releaseX (x : Seat) (f : SeatSt → SeatSt) (s : State) : (modSeat x f s).releaseX = s.releaseX := by cases x <;> rfl
@[simp] theorem modSeat_latch (x : Seat) (f : SeatSt → SeatSt) (s : State) : (modSeat x f s).latch = s.latch := by cases x <;> rfl
@[simp] theorem modSeat_time (x : Seat) (f : SeatSt → SeatSt) (s : State) : (modSeat x f s).time = s.time := by cases x <;> rfl
@[simp] theorem modSeat_icu (x : Seat) (f : SeatSt → SeatSt) (s : State) : (modSeat x f s).icu = s.icu := by cases x <;> rfl
@[simp] theorem modSeat_wdg (x : Seat) (f : SeatSt → SeatSt) (s : State) : (modSeat x f s).wdg = s.wdg := by cases x <;> rfl
@[simp] theorem modSeat_crc (x : Seat) (f : SeatSt → SeatSt) (s : State) : (modSeat x f s).crc = s.crc := by cases x <;> rfl
@[simp] theorem modSeat_net (x : Seat) (f : SeatSt → SeatSt) (s : State) : (modSeat x f s).net = s.net := by cases x <;> rfl
@[simp] theorem modSeat_sio (x : Seat) (f : SeatSt → SeatSt) (s : State) : (modSeat x f s).sio = s.sio := by cases x <;> rfl
@[simp] theorem modSeat_cap (x : Seat) (f : SeatSt → SeatSt) (s : State) : (modSeat x f s).cap = s.cap := by cases x <;> rfl
@[simp] theorem modSeat_dies (x : Seat) (f : SeatSt → SeatSt) (s : State) : (modSeat x f s).dies = s.dies := by cases x <;> rfl
@[simp] theorem modSeat_ring (x : Seat) (f : SeatSt → SeatSt) (s : State) : (modSeat x f s).ring = s.ring := by cases x <;> rfl
@[simp] theorem modSeat_parts (x : Seat) (f : SeatSt → SeatSt) (s : State) : (modSeat x f s).parts = s.parts := by cases x <;> rfl
@[simp] theorem modSeat_frames (x : Seat) (f : SeatSt → SeatSt) (s : State) : (modSeat x f s).frames = s.frames := by cases x <;> rfl
@[simp] theorem modSeat_evd (x : Seat) (f : SeatSt → SeatSt) (s : State) : (modSeat x f s).evd = s.evd := by cases x <;> rfl
@[simp] theorem modSeat_upd (x : Seat) (f : SeatSt → SeatSt) (s : State) : (modSeat x f s).upd = s.upd := by cases x <;> rfl
@[simp] theorem modSeat_pair (x : Seat) (f : SeatSt → SeatSt) (s : State) : (modSeat x f s).pair = s.pair := by cases x <;> rfl
@[simp] theorem modSeat_pwr (x : Seat) (f : SeatSt → SeatSt) (s : State) : (modSeat x f s).pwr = s.pwr := by cases x <;> rfl
@[simp] theorem modSeat_snap (x : Seat) (f : SeatSt → SeatSt) (s : State) : (modSeat x f s).snap = s.snap := by cases x <;> rfl

@[simp] theorem modQueue_pending (x : Seat) (q : Nat) (f : Queue → Queue) (s : State) : (modQueue x q f s).pending = s.pending := by cases x <;> rfl
@[simp] theorem modQueue_free (x : Seat) (q : Nat) (f : Queue → Queue) (s : State) : (modQueue x q f s).free = s.free := by cases x <;> rfl
@[simp] theorem modQueue_out (x : Seat) (q : Nat) (f : Queue → Queue) (s : State) : (modQueue x q f s).out = s.out := by cases x <;> rfl
@[simp] theorem modQueue_boot (x : Seat) (q : Nat) (f : Queue → Queue) (s : State) : (modQueue x q f s).boot = s.boot := by cases x <;> rfl
@[simp] theorem modQueue_releaseX (x : Seat) (q : Nat) (f : Queue → Queue) (s : State) : (modQueue x q f s).releaseX = s.releaseX := by cases x <;> rfl
@[simp] theorem modQueue_latch (x : Seat) (q : Nat) (f : Queue → Queue) (s : State) : (modQueue x q f s).latch = s.latch := by cases x <;> rfl
@[simp] theorem modQueue_time (x : Seat) (q : Nat) (f : Queue → Queue) (s : State) : (modQueue x q f s).time = s.time := by cases x <;> rfl
@[simp] theorem modQueue_icu (x : Seat) (q : Nat) (f : Queue → Queue) (s : State) : (modQueue x q f s).icu = s.icu := by cases x <;> rfl
@[simp] theorem modQueue_wdg (x : Seat) (q : Nat) (f : Queue → Queue) (s : State) : (modQueue x q f s).wdg = s.wdg := by cases x <;> rfl
@[simp] theorem modQueue_crc (x : Seat) (q : Nat) (f : Queue → Queue) (s : State) : (modQueue x q f s).crc = s.crc := by cases x <;> rfl
@[simp] theorem modQueue_net (x : Seat) (q : Nat) (f : Queue → Queue) (s : State) : (modQueue x q f s).net = s.net := by cases x <;> rfl
@[simp] theorem modQueue_sio (x : Seat) (q : Nat) (f : Queue → Queue) (s : State) : (modQueue x q f s).sio = s.sio := by cases x <;> rfl
@[simp] theorem modQueue_cap (x : Seat) (q : Nat) (f : Queue → Queue) (s : State) : (modQueue x q f s).cap = s.cap := by cases x <;> rfl
@[simp] theorem modQueue_dies (x : Seat) (q : Nat) (f : Queue → Queue) (s : State) : (modQueue x q f s).dies = s.dies := by cases x <;> rfl
@[simp] theorem modQueue_ring (x : Seat) (q : Nat) (f : Queue → Queue) (s : State) : (modQueue x q f s).ring = s.ring := by cases x <;> rfl
@[simp] theorem modQueue_parts (x : Seat) (q : Nat) (f : Queue → Queue) (s : State) : (modQueue x q f s).parts = s.parts := by cases x <;> rfl
@[simp] theorem modQueue_frames (x : Seat) (q : Nat) (f : Queue → Queue) (s : State) : (modQueue x q f s).frames = s.frames := by cases x <;> rfl
@[simp] theorem modQueue_evd (x : Seat) (q : Nat) (f : Queue → Queue) (s : State) : (modQueue x q f s).evd = s.evd := by cases x <;> rfl
@[simp] theorem modQueue_upd (x : Seat) (q : Nat) (f : Queue → Queue) (s : State) : (modQueue x q f s).upd = s.upd := by cases x <;> rfl
@[simp] theorem modQueue_pair (x : Seat) (q : Nat) (f : Queue → Queue) (s : State) : (modQueue x q f s).pair = s.pair := by cases x <;> rfl
@[simp] theorem modQueue_pwr (x : Seat) (q : Nat) (f : Queue → Queue) (s : State) : (modQueue x q f s).pwr = s.pwr := by cases x <;> rfl
@[simp] theorem modQueue_snap (x : Seat) (q : Nat) (f : Queue → Queue) (s : State) : (modQueue x q f s).snap = s.snap := by cases x <;> rfl

@[simp] theorem accept_pending (h : Hdr) (s : State) : (accept h s).pending = s.pending := by unfold accept; split <;> first | rfl | simp
@[simp] theorem accept_free (h : Hdr) (s : State) : (accept h s).free = s.free := by unfold accept; split <;> first | rfl | simp
@[simp] theorem accept_out (h : Hdr) (s : State) : (accept h s).out = s.out := by unfold accept; split <;> first | rfl | simp
@[simp] theorem accept_boot (h : Hdr) (s : State) : (accept h s).boot = s.boot := by unfold accept; split <;> first | rfl | simp
@[simp] theorem accept_releaseX (h : Hdr) (s : State) : (accept h s).releaseX = s.releaseX := by unfold accept; split <;> first | rfl | simp
@[simp] theorem accept_latch (h : Hdr) (s : State) : (accept h s).latch = s.latch := by unfold accept; split <;> first | rfl | simp
@[simp] theorem accept_time (h : Hdr) (s : State) : (accept h s).time = s.time := by unfold accept; split <;> first | rfl | simp
@[simp] theorem accept_icu (h : Hdr) (s : State) : (accept h s).icu = s.icu := by unfold accept; split <;> first | rfl | simp
@[simp] theorem accept_wdg (h : Hdr) (s : State) : (accept h s).wdg = s.wdg := by unfold accept; split <;> first | rfl | simp
@[simp] theorem accept_crc (h : Hdr) (s : State) : (accept h s).crc = s.crc := by unfold accept; split <;> first | rfl | simp
@[simp] theorem accept_net (h : Hdr) (s : State) : (accept h s).net = s.net := by unfold accept; split <;> first | rfl | simp
@[simp] theorem accept_sio (h : Hdr) (s : State) : (accept h s).sio = s.sio := by unfold accept; split <;> first | rfl | simp
@[simp] theorem accept_cap (h : Hdr) (s : State) : (accept h s).cap = s.cap := by unfold accept; split <;> first | rfl | simp
@[simp] theorem accept_dies (h : Hdr) (s : State) : (accept h s).dies = s.dies := by unfold accept; split <;> first | rfl | simp
@[simp] theorem accept_ring (h : Hdr) (s : State) : (accept h s).ring = s.ring := by unfold accept; split <;> first | rfl | simp
@[simp] theorem accept_parts (h : Hdr) (s : State) : (accept h s).parts = s.parts := by unfold accept; split <;> first | rfl | simp
@[simp] theorem accept_frames (h : Hdr) (s : State) : (accept h s).frames = s.frames := by unfold accept; split <;> first | rfl | simp
@[simp] theorem accept_evd (h : Hdr) (s : State) : (accept h s).evd = s.evd := by unfold accept; split <;> first | rfl | simp
@[simp] theorem accept_upd (h : Hdr) (s : State) : (accept h s).upd = s.upd := by unfold accept; split <;> first | rfl | simp
@[simp] theorem accept_pair (h : Hdr) (s : State) : (accept h s).pair = s.pair := by unfold accept; split <;> first | rfl | simp
@[simp] theorem accept_pwr (h : Hdr) (s : State) : (accept h s).pwr = s.pwr := by unfold accept; split <;> first | rfl | simp
@[simp] theorem accept_snap (h : Hdr) (s : State) : (accept h s).snap = s.snap := by unfold accept; split <;> first | rfl | simp

@[simp] theorem msix_pending (x : Seat) (v : Nat) (s : State) : (msix x v s).pending = s.pending := by unfold msix; (repeat' split) <;> simp
@[simp] theorem msix_free (x : Seat) (v : Nat) (s : State) : (msix x v s).free = s.free := by unfold msix; (repeat' split) <;> simp
@[simp] theorem msix_boot (x : Seat) (v : Nat) (s : State) : (msix x v s).boot = s.boot := by unfold msix; (repeat' split) <;> simp
@[simp] theorem msix_releaseX (x : Seat) (v : Nat) (s : State) : (msix x v s).releaseX = s.releaseX := by unfold msix; (repeat' split) <;> simp
@[simp] theorem msix_latch (x : Seat) (v : Nat) (s : State) : (msix x v s).latch = s.latch := by unfold msix; (repeat' split) <;> simp
@[simp] theorem msix_time (x : Seat) (v : Nat) (s : State) : (msix x v s).time = s.time := by unfold msix; (repeat' split) <;> simp
@[simp] theorem msix_icu (x : Seat) (v : Nat) (s : State) : (msix x v s).icu = s.icu := by unfold msix; (repeat' split) <;> simp
@[simp] theorem msix_wdg (x : Seat) (v : Nat) (s : State) : (msix x v s).wdg = s.wdg := by unfold msix; (repeat' split) <;> simp
@[simp] theorem msix_crc (x : Seat) (v : Nat) (s : State) : (msix x v s).crc = s.crc := by unfold msix; (repeat' split) <;> simp
@[simp] theorem msix_net (x : Seat) (v : Nat) (s : State) : (msix x v s).net = s.net := by unfold msix; (repeat' split) <;> simp
@[simp] theorem msix_sio (x : Seat) (v : Nat) (s : State) : (msix x v s).sio = s.sio := by unfold msix; (repeat' split) <;> simp
@[simp] theorem msix_cap (x : Seat) (v : Nat) (s : State) : (msix x v s).cap = s.cap := by unfold msix; (repeat' split) <;> simp
@[simp] theorem msix_dies (x : Seat) (v : Nat) (s : State) : (msix x v s).dies = s.dies := by unfold msix; (repeat' split) <;> simp
@[simp] theorem msix_ring (x : Seat) (v : Nat) (s : State) : (msix x v s).ring = s.ring := by unfold msix; (repeat' split) <;> simp
@[simp] theorem msix_parts (x : Seat) (v : Nat) (s : State) : (msix x v s).parts = s.parts := by unfold msix; (repeat' split) <;> simp
@[simp] theorem msix_frames (x : Seat) (v : Nat) (s : State) : (msix x v s).frames = s.frames := by unfold msix; (repeat' split) <;> simp
@[simp] theorem msix_evd (x : Seat) (v : Nat) (s : State) : (msix x v s).evd = s.evd := by unfold msix; (repeat' split) <;> simp
@[simp] theorem msix_upd (x : Seat) (v : Nat) (s : State) : (msix x v s).upd = s.upd := by unfold msix; (repeat' split) <;> simp
@[simp] theorem msix_pair (x : Seat) (v : Nat) (s : State) : (msix x v s).pair = s.pair := by unfold msix; (repeat' split) <;> simp
@[simp] theorem msix_pwr (x : Seat) (v : Nat) (s : State) : (msix x v s).pwr = s.pwr := by unfold msix; (repeat' split) <;> simp
@[simp] theorem msix_snap (x : Seat) (v : Nat) (s : State) : (msix x v s).snap = s.snap := by unfold msix; (repeat' split) <;> simp

/-- A write to a seat's memory changes nothing that neither its port, the outside nor what follows the write changes. -/
theorem hostPut_field {γ : Type} (p : State → γ) (x : Seat) (a : Nat) (b : List Byte) (f : State → State) (s : State)
    (hm : ∀ g s, p (modSeat x g s) = p s) (he : ∀ o s, p (emit o s) = p s) (hf : ∀ s, p (f s) = p s) : p (hostPut x a b f s) = p s := by
  unfold hostPut
  split
  · exact hm _ _
  · rw [hf, he]

@[simp] theorem cqPost_pending (x : Seat) (q : Nat) (e : List Byte) (s : State) : (cqPost x q e s).pending = s.pending := hostPut_field (State.pending) x _ _ _ s (by simp) (by simp) (fun s => by dsimp only; split <;> simp)
@[simp] theorem cqPost_free (x : Seat) (q : Nat) (e : List Byte) (s : State) : (cqPost x q e s).free = s.free := hostPut_field (State.free) x _ _ _ s (by simp) (by simp) (fun s => by dsimp only; split <;> simp)
@[simp] theorem cqPost_boot (x : Seat) (q : Nat) (e : List Byte) (s : State) : (cqPost x q e s).boot = s.boot := hostPut_field (State.boot) x _ _ _ s (by simp) (by simp) (fun s => by dsimp only; split <;> simp)
@[simp] theorem cqPost_releaseX (x : Seat) (q : Nat) (e : List Byte) (s : State) : (cqPost x q e s).releaseX = s.releaseX := hostPut_field (State.releaseX) x _ _ _ s (by simp) (by simp) (fun s => by dsimp only; split <;> simp)
@[simp] theorem cqPost_latch (x : Seat) (q : Nat) (e : List Byte) (s : State) : (cqPost x q e s).latch = s.latch := hostPut_field (State.latch) x _ _ _ s (by simp) (by simp) (fun s => by dsimp only; split <;> simp)
@[simp] theorem cqPost_time (x : Seat) (q : Nat) (e : List Byte) (s : State) : (cqPost x q e s).time = s.time := hostPut_field (State.time) x _ _ _ s (by simp) (by simp) (fun s => by dsimp only; split <;> simp)
@[simp] theorem cqPost_icu (x : Seat) (q : Nat) (e : List Byte) (s : State) : (cqPost x q e s).icu = s.icu := hostPut_field (State.icu) x _ _ _ s (by simp) (by simp) (fun s => by dsimp only; split <;> simp)
@[simp] theorem cqPost_wdg (x : Seat) (q : Nat) (e : List Byte) (s : State) : (cqPost x q e s).wdg = s.wdg := hostPut_field (State.wdg) x _ _ _ s (by simp) (by simp) (fun s => by dsimp only; split <;> simp)
@[simp] theorem cqPost_crc (x : Seat) (q : Nat) (e : List Byte) (s : State) : (cqPost x q e s).crc = s.crc := hostPut_field (State.crc) x _ _ _ s (by simp) (by simp) (fun s => by dsimp only; split <;> simp)
@[simp] theorem cqPost_net (x : Seat) (q : Nat) (e : List Byte) (s : State) : (cqPost x q e s).net = s.net := hostPut_field (State.net) x _ _ _ s (by simp) (by simp) (fun s => by dsimp only; split <;> simp)
@[simp] theorem cqPost_sio (x : Seat) (q : Nat) (e : List Byte) (s : State) : (cqPost x q e s).sio = s.sio := hostPut_field (State.sio) x _ _ _ s (by simp) (by simp) (fun s => by dsimp only; split <;> simp)
@[simp] theorem cqPost_cap (x : Seat) (q : Nat) (e : List Byte) (s : State) : (cqPost x q e s).cap = s.cap := hostPut_field (State.cap) x _ _ _ s (by simp) (by simp) (fun s => by dsimp only; split <;> simp)
@[simp] theorem cqPost_dies (x : Seat) (q : Nat) (e : List Byte) (s : State) : (cqPost x q e s).dies = s.dies := hostPut_field (State.dies) x _ _ _ s (by simp) (by simp) (fun s => by dsimp only; split <;> simp)
@[simp] theorem cqPost_ring (x : Seat) (q : Nat) (e : List Byte) (s : State) : (cqPost x q e s).ring = s.ring := hostPut_field (State.ring) x _ _ _ s (by simp) (by simp) (fun s => by dsimp only; split <;> simp)
@[simp] theorem cqPost_parts (x : Seat) (q : Nat) (e : List Byte) (s : State) : (cqPost x q e s).parts = s.parts := hostPut_field (State.parts) x _ _ _ s (by simp) (by simp) (fun s => by dsimp only; split <;> simp)
@[simp] theorem cqPost_frames (x : Seat) (q : Nat) (e : List Byte) (s : State) : (cqPost x q e s).frames = s.frames := hostPut_field (State.frames) x _ _ _ s (by simp) (by simp) (fun s => by dsimp only; split <;> simp)
@[simp] theorem cqPost_evd (x : Seat) (q : Nat) (e : List Byte) (s : State) : (cqPost x q e s).evd = s.evd := hostPut_field (State.evd) x _ _ _ s (by simp) (by simp) (fun s => by dsimp only; split <;> simp)
@[simp] theorem cqPost_upd (x : Seat) (q : Nat) (e : List Byte) (s : State) : (cqPost x q e s).upd = s.upd := hostPut_field (State.upd) x _ _ _ s (by simp) (by simp) (fun s => by dsimp only; split <;> simp)
@[simp] theorem cqPost_pair (x : Seat) (q : Nat) (e : List Byte) (s : State) : (cqPost x q e s).pair = s.pair := hostPut_field (State.pair) x _ _ _ s (by simp) (by simp) (fun s => by dsimp only; split <;> simp)
@[simp] theorem cqPost_pwr (x : Seat) (q : Nat) (e : List Byte) (s : State) : (cqPost x q e s).pwr = s.pwr := hostPut_field (State.pwr) x _ _ _ s (by simp) (by simp) (fun s => by dsimp only; split <;> simp)
@[simp] theorem cqPost_snap (x : Seat) (q : Nat) (e : List Byte) (s : State) : (cqPost x q e s).snap = s.snap := hostPut_field (State.snap) x _ _ _ s (by simp) (by simp) (fun s => by dsimp only; split <;> simp)

@[simp] theorem answerN_pending (h : Hdr) (e o : List Byte) (s : State) : (answerN h e o s).pending = s.pending := by unfold answerN; split <;> simp
@[simp] theorem answerN_free (h : Hdr) (e o : List Byte) (s : State) : (answerN h e o s).free = s.free := by unfold answerN; split <;> simp
@[simp] theorem answerN_boot (h : Hdr) (e o : List Byte) (s : State) : (answerN h e o s).boot = s.boot := by unfold answerN; split <;> simp
@[simp] theorem answerN_releaseX (h : Hdr) (e o : List Byte) (s : State) : (answerN h e o s).releaseX = s.releaseX := by unfold answerN; split <;> simp
@[simp] theorem answerN_latch (h : Hdr) (e o : List Byte) (s : State) : (answerN h e o s).latch = s.latch := by unfold answerN; split <;> simp
@[simp] theorem answerN_time (h : Hdr) (e o : List Byte) (s : State) : (answerN h e o s).time = s.time := by unfold answerN; split <;> simp
@[simp] theorem answerN_icu (h : Hdr) (e o : List Byte) (s : State) : (answerN h e o s).icu = s.icu := by unfold answerN; split <;> simp
@[simp] theorem answerN_wdg (h : Hdr) (e o : List Byte) (s : State) : (answerN h e o s).wdg = s.wdg := by unfold answerN; split <;> simp
@[simp] theorem answerN_crc (h : Hdr) (e o : List Byte) (s : State) : (answerN h e o s).crc = s.crc := by unfold answerN; split <;> simp
@[simp] theorem answerN_sio (h : Hdr) (e o : List Byte) (s : State) : (answerN h e o s).sio = s.sio := by unfold answerN; split <;> simp
@[simp] theorem answerN_cap (h : Hdr) (e o : List Byte) (s : State) : (answerN h e o s).cap = s.cap := by unfold answerN; split <;> simp
@[simp] theorem answerN_dies (h : Hdr) (e o : List Byte) (s : State) : (answerN h e o s).dies = s.dies := by unfold answerN; split <;> simp
@[simp] theorem answerN_ring (h : Hdr) (e o : List Byte) (s : State) : (answerN h e o s).ring = s.ring := by unfold answerN; split <;> simp
@[simp] theorem answerN_parts (h : Hdr) (e o : List Byte) (s : State) : (answerN h e o s).parts = s.parts := by unfold answerN; split <;> simp
@[simp] theorem answerN_frames (h : Hdr) (e o : List Byte) (s : State) : (answerN h e o s).frames = s.frames := by unfold answerN; split <;> simp
@[simp] theorem answerN_evd (h : Hdr) (e o : List Byte) (s : State) : (answerN h e o s).evd = s.evd := by unfold answerN; split <;> simp
@[simp] theorem answerN_seats (h : Hdr) (e o : List Byte) (s : State) : (answerN h e o s).seats = s.seats := by unfold answerN; split <;> simp
@[simp] theorem answerN_upd (h : Hdr) (e o : List Byte) (s : State) : (answerN h e o s).upd = s.upd := by unfold answerN; split <;> simp
@[simp] theorem answerN_pair (h : Hdr) (e o : List Byte) (s : State) : (answerN h e o s).pair = s.pair := by unfold answerN; split <;> simp
@[simp] theorem answerN_pwr (h : Hdr) (e o : List Byte) (s : State) : (answerN h e o s).pwr = s.pwr := by unfold answerN; split <;> simp
@[simp] theorem answerN_snap (h : Hdr) (e o : List Byte) (s : State) : (answerN h e o s).snap = s.snap := by unfold answerN; split <;> simp

theorem foldl_field {α γ : Type} (p : State → γ) (f : State → α → State) (l : List α) (s : State)
    (h : ∀ s a, p (f s a) = p s) : p (l.foldl f s) = p s := by
  induction l generalizing s with
  | nil => rfl
  | cons a l ih => rw [List.foldl_cons, ih, h]

@[simp] theorem completeWith_pending (h : Hdr) (status info0 info1 info2 : Nat) (data : List Byte) (s : State) : (completeWith h status info0 info1 info2 data s).pending = s.pending := by
  unfold completeWith
  dsimp only
  (repeat' split) <;> first | rfl | (simp; done) | (rw [foldl_field (State.pending)]; intro s a; simp) |
    (rw [hostPut_field (State.pending)] <;> simp)
@[simp] theorem completeWith_free (h : Hdr) (status info0 info1 info2 : Nat) (data : List Byte) (s : State) : (completeWith h status info0 info1 info2 data s).free = s.free := by
  unfold completeWith
  dsimp only
  (repeat' split) <;> first | rfl | (simp; done) | (rw [foldl_field (State.free)]; intro s a; simp) |
    (rw [hostPut_field (State.free)] <;> simp)
@[simp] theorem completeWith_boot (h : Hdr) (status info0 info1 info2 : Nat) (data : List Byte) (s : State) : (completeWith h status info0 info1 info2 data s).boot = s.boot := by
  unfold completeWith
  dsimp only
  (repeat' split) <;> first | rfl | (simp; done) | (rw [foldl_field (State.boot)]; intro s a; simp) |
    (rw [hostPut_field (State.boot)] <;> simp)
@[simp] theorem completeWith_releaseX (h : Hdr) (status info0 info1 info2 : Nat) (data : List Byte) (s : State) : (completeWith h status info0 info1 info2 data s).releaseX = s.releaseX := by
  unfold completeWith
  dsimp only
  (repeat' split) <;> first | rfl | (simp; done) | (rw [foldl_field (State.releaseX)]; intro s a; simp) |
    (rw [hostPut_field (State.releaseX)] <;> simp)
@[simp] theorem completeWith_latch (h : Hdr) (status info0 info1 info2 : Nat) (data : List Byte) (s : State) : (completeWith h status info0 info1 info2 data s).latch = s.latch := by
  unfold completeWith
  dsimp only
  (repeat' split) <;> first | rfl | (simp; done) | (rw [foldl_field (State.latch)]; intro s a; simp) |
    (rw [hostPut_field (State.latch)] <;> simp)
@[simp] theorem completeWith_time (h : Hdr) (status info0 info1 info2 : Nat) (data : List Byte) (s : State) : (completeWith h status info0 info1 info2 data s).time = s.time := by
  unfold completeWith
  dsimp only
  (repeat' split) <;> first | rfl | (simp; done) | (rw [foldl_field (State.time)]; intro s a; simp) |
    (rw [hostPut_field (State.time)] <;> simp)
@[simp] theorem completeWith_icu (h : Hdr) (status info0 info1 info2 : Nat) (data : List Byte) (s : State) : (completeWith h status info0 info1 info2 data s).icu = s.icu := by
  unfold completeWith
  dsimp only
  (repeat' split) <;> first | rfl | (simp; done) | (rw [foldl_field (State.icu)]; intro s a; simp) |
    (rw [hostPut_field (State.icu)] <;> simp)
@[simp] theorem completeWith_wdg (h : Hdr) (status info0 info1 info2 : Nat) (data : List Byte) (s : State) : (completeWith h status info0 info1 info2 data s).wdg = s.wdg := by
  unfold completeWith
  dsimp only
  (repeat' split) <;> first | rfl | (simp; done) | (rw [foldl_field (State.wdg)]; intro s a; simp) |
    (rw [hostPut_field (State.wdg)] <;> simp)
@[simp] theorem completeWith_crc (h : Hdr) (status info0 info1 info2 : Nat) (data : List Byte) (s : State) : (completeWith h status info0 info1 info2 data s).crc = s.crc := by
  unfold completeWith
  dsimp only
  (repeat' split) <;> first | rfl | (simp; done) | (rw [foldl_field (State.crc)]; intro s a; simp) |
    (rw [hostPut_field (State.crc)] <;> simp)
@[simp] theorem completeWith_sio (h : Hdr) (status info0 info1 info2 : Nat) (data : List Byte) (s : State) : (completeWith h status info0 info1 info2 data s).sio = s.sio := by
  unfold completeWith
  dsimp only
  (repeat' split) <;> first | rfl | (simp; done) | (rw [foldl_field (State.sio)]; intro s a; simp) |
    (rw [hostPut_field (State.sio)] <;> simp)
@[simp] theorem completeWith_cap (h : Hdr) (status info0 info1 info2 : Nat) (data : List Byte) (s : State) : (completeWith h status info0 info1 info2 data s).cap = s.cap := by
  unfold completeWith
  dsimp only
  (repeat' split) <;> first | rfl | (simp; done) | (rw [foldl_field (State.cap)]; intro s a; simp) |
    (rw [hostPut_field (State.cap)] <;> simp)
@[simp] theorem completeWith_dies (h : Hdr) (status info0 info1 info2 : Nat) (data : List Byte) (s : State) : (completeWith h status info0 info1 info2 data s).dies = s.dies := by
  unfold completeWith
  dsimp only
  (repeat' split) <;> first | rfl | (simp; done) | (rw [foldl_field (State.dies)]; intro s a; simp) |
    (rw [hostPut_field (State.dies)] <;> simp)
@[simp] theorem completeWith_ring (h : Hdr) (status info0 info1 info2 : Nat) (data : List Byte) (s : State) : (completeWith h status info0 info1 info2 data s).ring = s.ring := by
  unfold completeWith
  dsimp only
  (repeat' split) <;> first | rfl | (simp; done) | (rw [foldl_field (State.ring)]; intro s a; simp) |
    (rw [hostPut_field (State.ring)] <;> simp)
@[simp] theorem completeWith_parts (h : Hdr) (status info0 info1 info2 : Nat) (data : List Byte) (s : State) : (completeWith h status info0 info1 info2 data s).parts = s.parts := by
  unfold completeWith
  dsimp only
  (repeat' split) <;> first | rfl | (simp; done) | (rw [foldl_field (State.parts)]; intro s a; simp) |
    (rw [hostPut_field (State.parts)] <;> simp)
@[simp] theorem completeWith_frames (h : Hdr) (status info0 info1 info2 : Nat) (data : List Byte) (s : State) : (completeWith h status info0 info1 info2 data s).frames = s.frames := by
  unfold completeWith
  dsimp only
  (repeat' split) <;> first | rfl | (simp; done) | (rw [foldl_field (State.frames)]; intro s a; simp) |
    (rw [hostPut_field (State.frames)] <;> simp)
@[simp] theorem completeWith_evd (h : Hdr) (status info0 info1 info2 : Nat) (data : List Byte) (s : State) : (completeWith h status info0 info1 info2 data s).evd = s.evd := by
  unfold completeWith
  dsimp only
  (repeat' split) <;> first | rfl | (simp; done) | (rw [foldl_field (State.evd)]; intro s a; simp) |
    (rw [hostPut_field (State.evd)] <;> simp)
@[simp] theorem completeWith_upd (h : Hdr) (status info0 info1 info2 : Nat) (data : List Byte) (s : State) : (completeWith h status info0 info1 info2 data s).upd = s.upd := by
  unfold completeWith
  dsimp only
  (repeat' split) <;> first | rfl | (simp; done) | (rw [foldl_field (State.upd)]; intro s a; simp) |
    (rw [hostPut_field (State.upd)] <;> simp)
@[simp] theorem completeWith_pair (h : Hdr) (status info0 info1 info2 : Nat) (data : List Byte) (s : State) : (completeWith h status info0 info1 info2 data s).pair = s.pair := by
  unfold completeWith
  dsimp only
  (repeat' split) <;> first | rfl | (simp; done) | (rw [foldl_field (State.pair)]; intro s a; simp) |
    (rw [hostPut_field (State.pair)] <;> simp)
@[simp] theorem completeWith_pwr (h : Hdr) (status info0 info1 info2 : Nat) (data : List Byte) (s : State) : (completeWith h status info0 info1 info2 data s).pwr = s.pwr := by
  unfold completeWith
  dsimp only
  (repeat' split) <;> first | rfl | (simp; done) | (rw [foldl_field (State.pwr)]; intro s a; simp) |
    (rw [hostPut_field (State.pwr)] <;> simp)
@[simp] theorem completeWith_snap (h : Hdr) (status info0 info1 info2 : Nat) (data : List Byte) (s : State) : (completeWith h status info0 info1 info2 data s).snap = s.snap := by
  unfold completeWith
  dsimp only
  (repeat' split) <;> first | rfl | (simp; done) | (rw [foldl_field (State.snap)]; intro s a; simp) |
    (rw [hostPut_field (State.snap)] <;> simp)

@[simp] theorem complete_pending (h : Hdr) (status : Nat) (s : State) : (complete h status s).pending = s.pending := by simp [complete]
@[simp] theorem complete_free (h : Hdr) (status : Nat) (s : State) : (complete h status s).free = s.free := by simp [complete]
@[simp] theorem complete_boot (h : Hdr) (status : Nat) (s : State) : (complete h status s).boot = s.boot := by simp [complete]
@[simp] theorem complete_releaseX (h : Hdr) (status : Nat) (s : State) : (complete h status s).releaseX = s.releaseX := by simp [complete]
@[simp] theorem complete_latch (h : Hdr) (status : Nat) (s : State) : (complete h status s).latch = s.latch := by simp [complete]
@[simp] theorem complete_time (h : Hdr) (status : Nat) (s : State) : (complete h status s).time = s.time := by simp [complete]
@[simp] theorem complete_icu (h : Hdr) (status : Nat) (s : State) : (complete h status s).icu = s.icu := by simp [complete]
@[simp] theorem complete_wdg (h : Hdr) (status : Nat) (s : State) : (complete h status s).wdg = s.wdg := by simp [complete]
@[simp] theorem complete_crc (h : Hdr) (status : Nat) (s : State) : (complete h status s).crc = s.crc := by simp [complete]
@[simp] theorem complete_sio (h : Hdr) (status : Nat) (s : State) : (complete h status s).sio = s.sio := by simp [complete]
@[simp] theorem complete_cap (h : Hdr) (status : Nat) (s : State) : (complete h status s).cap = s.cap := by simp [complete]
@[simp] theorem complete_dies (h : Hdr) (status : Nat) (s : State) : (complete h status s).dies = s.dies := by simp [complete]
@[simp] theorem complete_ring (h : Hdr) (status : Nat) (s : State) : (complete h status s).ring = s.ring := by simp [complete]
@[simp] theorem complete_parts (h : Hdr) (status : Nat) (s : State) : (complete h status s).parts = s.parts := by simp [complete]
@[simp] theorem complete_frames (h : Hdr) (status : Nat) (s : State) : (complete h status s).frames = s.frames := by simp [complete]
@[simp] theorem complete_evd (h : Hdr) (status : Nat) (s : State) : (complete h status s).evd = s.evd := by simp [complete]
@[simp] theorem complete_upd (h : Hdr) (status : Nat) (s : State) : (complete h status s).upd = s.upd := by simp [complete]
@[simp] theorem complete_pair (h : Hdr) (status : Nat) (s : State) : (complete h status s).pair = s.pair := by simp [complete]
@[simp] theorem complete_pwr (h : Hdr) (status : Nat) (s : State) : (complete h status s).pwr = s.pwr := by simp [complete]
@[simp] theorem complete_snap (h : Hdr) (status : Nat) (s : State) : (complete h status s).snap = s.snap := by simp [complete]

@[simp] theorem drawn_free (s : State) : (drawn s).free = s.free + 1 := rfl
@[simp] theorem emit_out (o : Out) (s : State) : (emit o s).out = o :: s.out := rfl

@[simp] theorem die_drawn (d : Nat) (s : State) : die (drawn s) d = die s d := rfl
@[simp] theorem die_emit (d : Nat) (o : Out) (s : State) : die (emit o s) d = die s d := rfl
@[simp] theorem die_modPart (d n : Nat) (f : Part → Part) (s : State) : die (modPart n f s) d = die s d := rfl
@[simp] theorem die_accept (d : Nat) (h : Hdr) (s : State) : die (accept h s) d = die s d := by simp [die]
@[simp] theorem part_drawn (n : Nat) (s : State) : part (drawn s) n = part s n := rfl
@[simp] theorem part_emit (n : Nat) (o : Out) (s : State) : part (emit o s) n = part s n := rfl
@[simp] theorem part_modDie (n d : Nat) (f : Die → Die) (s : State) : part (modDie d f s) n = part s n := rfl
@[simp] theorem part_accept (n : Nat) (h : Hdr) (s : State) : part (accept h s) n = part s n := by simp [part]
@[simp] theorem ctx_accept (d c : Nat) (h : Hdr) (s : State) : ctx (accept h s) d c = ctx s d c := by simp [ctx]
@[simp] theorem ownerNo_accept (n : Nat) (h : Hdr) (s : State) : ownerNo (accept h s) n = ownerNo s n := by simp [ownerNo]
@[simp] theorem tbSafe_accept (h : Hdr) (s : State) : tbSafe (accept h s) = tbSafe s := by simp [tbSafe]

@[simp] theorem part_msix (n : Nat) (x : Seat) (v : Nat) (s : State) : part (msix x v s) n = part s n := by simp [part]
@[simp] theorem die_msix (d : Nat) (x : Seat) (v : Nat) (s : State) : die (msix x v s) d = die s d := by simp [die]
@[simp] theorem part_cqPost (n : Nat) (x : Seat) (q : Nat) (e : List Byte) (s : State) : part (cqPost x q e s) n = part s n := by simp [part]
@[simp] theorem die_cqPost (d : Nat) (x : Seat) (q : Nat) (e : List Byte) (s : State) : die (cqPost x q e s) d = die s d := by simp [die]
@[simp] theorem part_completeWith (n : Nat) (h : Hdr) (st i0 i1 i2 : Nat) (data : List Byte) (s : State) : part (completeWith h st i0 i1 i2 data s) n = part s n := by simp [part]
@[simp] theorem die_completeWith (d : Nat) (h : Hdr) (st i0 i1 i2 : Nat) (data : List Byte) (s : State) : die (completeWith h st i0 i1 i2 data s) d = die s d := by simp [die]
@[simp] theorem part_complete (n : Nat) (h : Hdr) (st : Nat) (s : State) : part (complete h st s) n = part s n := by simp [part]
@[simp] theorem die_complete (d : Nat) (h : Hdr) (st : Nat) (s : State) : die (complete h st s) d = die s d := by simp [die]

theorem die_modDie_same (d : Nat) (f : Die → Die) (s : State) : die (modDie d f s) d = f (die s d) := tblGet_mod_same ..
theorem die_modDie_other (d e : Nat) (f : Die → Die) (s : State) (h : e ≠ d) : die (modDie d f s) e = die s e := tblGet_mod_other _ _ _ _ _ h
theorem part_modPart_same (n : Nat) (f : Part → Part) (s : State) : part (modPart n f s) n = f (part s n) := tblGet_mod_same ..
theorem part_modPart_other (n m : Nat) (f : Part → Part) (s : State) (h : m ≠ n) : part (modPart n f s) m = part s m :=
  tblGet_mod_other _ _ _ _ _ h
theorem ctx_modCtx_same (d c : Nat) (f : Ctx → Ctx) (s : State) : ctx (modCtx d c f s) d c = f (ctx s d c) := by
  unfold ctx modCtx
  rw [die_modDie_same, tblGet_mod_same]
theorem coreOf_modCore_same (d i : Nat) (f : Core → Core) (s : State) : coreOf (modCore d i f s) d i = f (coreOf s d i) := by
  unfold coreOf modCore
  rw [die_modDie_same, tblGet_mod_same]
theorem seatOf_modSeat_same (x : Seat) (f : SeatSt → SeatSt) (s : State) (h : x = .a ∨ x = .b) :
    seatOf (modSeat x f s) x = f (seatOf s x) := by
  rcases h with rfl | rfl <;> rfl
theorem queueOf_modQueue_same (x : Seat) (q : Nat) (f : Queue → Queue) (s : State) (h : x = .a ∨ x = .b) :
    queueOf (modQueue x q f s) x q = f (queueOf s x q) := by
  rcases h with rfl | rfl <;> exact tblGet_mod_same ..

end Sys2Proof.Machine
end

