-- ==== Sys2Proof/Laws/Commands.lean ====
section
/-! SUPPORT. Laws/Commands.lean: what the shared operations of accepting, ending and delivering commands answer. -/

namespace Sys2Proof.Machine

/-- A command of a seat that the device serves is accepted and run. -/
theorem command_taken (h : Hdr) (f : State → State) (s : State) (hs : serving s h.seat = true) :
    command h f s = .next (f (accept h s)) := by
  simp [command, hs, taken]

/-- A command of a seat that the device does not serve leaves the state as it is. -/
theorem command_unserved (h : Hdr) (f : State → State) (s : State) (hs : serving s h.seat = false) : command h f s = .next s := by
  simp [command, hs]

/-- The same for a command that the boot ROM serves too. -/
theorem rom_taken (h : Hdr) (f : State → State) (s : State) (hs : serving s h.seat = true) :
    romCommand h f s = .next (f (accept h s)) := by
  simp [romCommand, hs, taken]

/-- A command answers a next state, served or not. -/
theorem next_of_command (h : Hdr) (f : State → State) (s : State) : ∃ t, command h f s = .next t := by
  unfold command taken; split <;> exact ⟨_, rfl⟩

/-- So does one that the boot ROM serves too. -/
theorem next_of_rom (h : Hdr) (f : State → State) (s : State) : ∃ t, romCommand h f s = .next t := by
  unfold romCommand taken; split <;> exact ⟨_, rfl⟩

/-- A command without a refusal has its effect and completes with OK. -/
theorem finish_ok (h : Hdr) (f : State → State) (s : State) : finish h stOk f s = complete h stOk (f s) := if_pos rfl

/-- A refused command has none. -/
theorem finish_refused (h : Hdr) (st : Nat) (f : State → State) (s : State) (hs : st ≠ stOk) : finish h st f s = complete h st s :=
  if_neg hs

/-- An update of a queue pair is decided by what it makes of the pair as it is. -/
theorem modQueue_congr (x : Seat) (q : Nat) (f g : Queue → Queue) (s : State) (h : f (queueOf s x q) = g (queueOf s x q)) :
    modQueue x q f s = modQueue x q g s := by
  unfold modQueue modSeat queueOf seatOf at *
  cases x <;> simp_all [tblMod]

/-- A CMD that the companion has sent and the die has not executed is executed, and acknowledged (R150). -/
theorem cmdArrives_first (d kind : Nat) (args : List Nat) (c : CmdOut) (f : State → State) (s : State) (h1 : (die s d).inReset = false)
    (h2 : ((die s d).cmds.find? fun c => c.kind == kind && c.args == args && !executedSeq (die s d) c.seq) = some c) :
    cmdArrives d kind args f s =
      ackCmd d c.seq (f (modDie d (fun x => { x with executed := ((c.seq, kind, args) :: x.executed).take 64 }) s)) := by
  simp [cmdArrives, h1, h2]

/-- A CMD that was not sent does not arrive (R150). -/
theorem cmdArrives_unsent (d kind : Nat) (args : List Nat) (f : State → State) (s : State) (h1 : (die s d).cmds = [])
    (h2 : (die s d).executed = []) : cmdArrives d kind args f s = s := by
  simp [cmdArrives, h1, h2]

/-- A peg operation of a core that goes on, on a peg of its region. -/
theorem pegOp_eq (d i peg : Nat) (g : Peg → Option (State → State)) (f : Frame) (tw : Bool) (c : Copy) (p : Peg) (s : State)
    (hc : coreActs s d i = some (f, tw, c)) (hp : pegOf s d f.id.part c.region peg = some p) :
    pegOp d i peg g s = match g p with | some k => k s | none => pegFault d i f tw s := by
  unfold pegOp
  rw [hc]
  dsimp only
  rw [hp]
  rcases h : g p with _ | k <;> simp [h]

end Sys2Proof.Machine
end

