-- ==== Sys2Proof/Laws/Units.lean ====
section
/-! SUPPORT. Laws/Units.lean: what each update of a unit's table leaves alone, one lemma per field of State, and what the unit reads after it. -/

namespace Sys2Proof.Machine

@[simp] theorem modSrc_pending (n : Nat) (f : Src → Src) (s : State) : (modSrc n f s).pending = s.pending := rfl
@[simp] theorem modSrc_free (n : Nat) (f : Src → Src) (s : State) : (modSrc n f s).free = s.free := rfl
@[simp] theorem modSrc_out (n : Nat) (f : Src → Src) (s : State) : (modSrc n f s).out = s.out := rfl
@[simp] theorem modSrc_boot (n : Nat) (f : Src → Src) (s : State) : (modSrc n f s).boot = s.boot := rfl
@[simp] theorem modSrc_releaseX (n : Nat) (f : Src → Src) (s : State) : (modSrc n f s).releaseX = s.releaseX := rfl
@[simp] theorem modSrc_latch (n : Nat) (f : Src → Src) (s : State) : (modSrc n f s).latch = s.latch := rfl
@[simp] theorem modSrc_time (n : Nat) (f : Src → Src) (s : State) : (modSrc n f s).time = s.time := rfl
@[simp] theorem modSrc_wdg (n : Nat) (f : Src → Src) (s : State) : (modSrc n f s).wdg = s.wdg := rfl
@[simp] theorem modSrc_crc (n : Nat) (f : Src → Src) (s : State) : (modSrc n f s).crc = s.crc := rfl
@[simp] theorem modSrc_net (n : Nat) (f : Src → Src) (s : State) : (modSrc n f s).net = s.net := rfl
@[simp] theorem modSrc_sio (n : Nat) (f : Src → Src) (s : State) : (modSrc n f s).sio = s.sio := rfl
@[simp] theorem modSrc_cap (n : Nat) (f : Src → Src) (s : State) : (modSrc n f s).cap = s.cap := rfl
@[simp] theorem modSrc_dies (n : Nat) (f : Src → Src) (s : State) : (modSrc n f s).dies = s.dies := rfl
@[simp] theorem modSrc_ring (n : Nat) (f : Src → Src) (s : State) : (modSrc n f s).ring = s.ring := rfl
@[simp] theorem modSrc_parts (n : Nat) (f : Src → Src) (s : State) : (modSrc n f s).parts = s.parts := rfl
@[simp] theorem modSrc_frames (n : Nat) (f : Src → Src) (s : State) : (modSrc n f s).frames = s.frames := rfl
@[simp] theorem modSrc_evd (n : Nat) (f : Src → Src) (s : State) : (modSrc n f s).evd = s.evd := rfl
@[simp] theorem modSrc_seats (n : Nat) (f : Src → Src) (s : State) : (modSrc n f s).seats = s.seats := rfl
@[simp] theorem modSrc_upd (n : Nat) (f : Src → Src) (s : State) : (modSrc n f s).upd = s.upd := rfl
@[simp] theorem modSrc_pair (n : Nat) (f : Src → Src) (s : State) : (modSrc n f s).pair = s.pair := rfl
@[simp] theorem modSrc_pwr (n : Nat) (f : Src → Src) (s : State) : (modSrc n f s).pwr = s.pwr := rfl
@[simp] theorem modSrc_snap (n : Nat) (f : Src → Src) (s : State) : (modSrc n f s).snap = s.snap := rfl

@[simp] theorem modWdg_pending (n : Nat) (f : WdgUnit → WdgUnit) (s : State) : (modWdg n f s).pending = s.pending := rfl
@[simp] theorem modWdg_free (n : Nat) (f : WdgUnit → WdgUnit) (s : State) : (modWdg n f s).free = s.free := rfl
@[simp] theorem modWdg_out (n : Nat) (f : WdgUnit → WdgUnit) (s : State) : (modWdg n f s).out = s.out := rfl
@[simp] theorem modWdg_boot (n : Nat) (f : WdgUnit → WdgUnit) (s : State) : (modWdg n f s).boot = s.boot := rfl
@[simp] theorem modWdg_releaseX (n : Nat) (f : WdgUnit → WdgUnit) (s : State) : (modWdg n f s).releaseX = s.releaseX := rfl
@[simp] theorem modWdg_latch (n : Nat) (f : WdgUnit → WdgUnit) (s : State) : (modWdg n f s).latch = s.latch := rfl
@[simp] theorem modWdg_time (n : Nat) (f : WdgUnit → WdgUnit) (s : State) : (modWdg n f s).time = s.time := rfl
@[simp] theorem modWdg_icu (n : Nat) (f : WdgUnit → WdgUnit) (s : State) : (modWdg n f s).icu = s.icu := rfl
@[simp] theorem modWdg_crc (n : Nat) (f : WdgUnit → WdgUnit) (s : State) : (modWdg n f s).crc = s.crc := rfl
@[simp] theorem modWdg_net (n : Nat) (f : WdgUnit → WdgUnit) (s : State) : (modWdg n f s).net = s.net := rfl
@[simp] theorem modWdg_sio (n : Nat) (f : WdgUnit → WdgUnit) (s : State) : (modWdg n f s).sio = s.sio := rfl
@[simp] theorem modWdg_cap (n : Nat) (f : WdgUnit → WdgUnit) (s : State) : (modWdg n f s).cap = s.cap := rfl
@[simp] theorem modWdg_dies (n : Nat) (f : WdgUnit → WdgUnit) (s : State) : (modWdg n f s).dies = s.dies := rfl
@[simp] theorem modWdg_ring (n : Nat) (f : WdgUnit → WdgUnit) (s : State) : (modWdg n f s).ring = s.ring := rfl
@[simp] theorem modWdg_parts (n : Nat) (f : WdgUnit → WdgUnit) (s : State) : (modWdg n f s).parts = s.parts := rfl
@[simp] theorem modWdg_frames (n : Nat) (f : WdgUnit → WdgUnit) (s : State) : (modWdg n f s).frames = s.frames := rfl
@[simp] theorem modWdg_evd (n : Nat) (f : WdgUnit → WdgUnit) (s : State) : (modWdg n f s).evd = s.evd := rfl
@[simp] theorem modWdg_seats (n : Nat) (f : WdgUnit → WdgUnit) (s : State) : (modWdg n f s).seats = s.seats := rfl
@[simp] theorem modWdg_upd (n : Nat) (f : WdgUnit → WdgUnit) (s : State) : (modWdg n f s).upd = s.upd := rfl
@[simp] theorem modWdg_pair (n : Nat) (f : WdgUnit → WdgUnit) (s : State) : (modWdg n f s).pair = s.pair := rfl
@[simp] theorem modWdg_pwr (n : Nat) (f : WdgUnit → WdgUnit) (s : State) : (modWdg n f s).pwr = s.pwr := rfl
@[simp] theorem modWdg_snap (n : Nat) (f : WdgUnit → WdgUnit) (s : State) : (modWdg n f s).snap = s.snap := rfl

@[simp] theorem modCrc_pending (u : Nat) (f : CrcUnit → CrcUnit) (s : State) : (modCrc u f s).pending = s.pending := rfl
@[simp] theorem modCrc_free (u : Nat) (f : CrcUnit → CrcUnit) (s : State) : (modCrc u f s).free = s.free := rfl
@[simp] theorem modCrc_out (u : Nat) (f : CrcUnit → CrcUnit) (s : State) : (modCrc u f s).out = s.out := rfl
@[simp] theorem modCrc_boot (u : Nat) (f : CrcUnit → CrcUnit) (s : State) : (modCrc u f s).boot = s.boot := rfl
@[simp] theorem modCrc_releaseX (u : Nat) (f : CrcUnit → CrcUnit) (s : State) : (modCrc u f s).releaseX = s.releaseX := rfl
@[simp] theorem modCrc_latch (u : Nat) (f : CrcUnit → CrcUnit) (s : State) : (modCrc u f s).latch = s.latch := rfl
@[simp] theorem modCrc_time (u : Nat) (f : CrcUnit → CrcUnit) (s : State) : (modCrc u f s).time = s.time := rfl
@[simp] theorem modCrc_icu (u : Nat) (f : CrcUnit → CrcUnit) (s : State) : (modCrc u f s).icu = s.icu := rfl
@[simp] theorem modCrc_wdg (u : Nat) (f : CrcUnit → CrcUnit) (s : State) : (modCrc u f s).wdg = s.wdg := rfl
@[simp] theorem modCrc_net (u : Nat) (f : CrcUnit → CrcUnit) (s : State) : (modCrc u f s).net = s.net := rfl
@[simp] theorem modCrc_sio (u : Nat) (f : CrcUnit → CrcUnit) (s : State) : (modCrc u f s).sio = s.sio := rfl
@[simp] theorem modCrc_cap (u : Nat) (f : CrcUnit → CrcUnit) (s : State) : (modCrc u f s).cap = s.cap := rfl
@[simp] theorem modCrc_dies (u : Nat) (f : CrcUnit → CrcUnit) (s : State) : (modCrc u f s).dies = s.dies := rfl
@[simp] theorem modCrc_ring (u : Nat) (f : CrcUnit → CrcUnit) (s : State) : (modCrc u f s).ring = s.ring := rfl
@[simp] theorem modCrc_parts (u : Nat) (f : CrcUnit → CrcUnit) (s : State) : (modCrc u f s).parts = s.parts := rfl
@[simp] theorem modCrc_frames (u : Nat) (f : CrcUnit → CrcUnit) (s : State) : (modCrc u f s).frames = s.frames := rfl
@[simp] theorem modCrc_evd (u : Nat) (f : CrcUnit → CrcUnit) (s : State) : (modCrc u f s).evd = s.evd := rfl
@[simp] theorem modCrc_seats (u : Nat) (f : CrcUnit → CrcUnit) (s : State) : (modCrc u f s).seats = s.seats := rfl
@[simp] theorem modCrc_upd (u : Nat) (f : CrcUnit → CrcUnit) (s : State) : (modCrc u f s).upd = s.upd := rfl
@[simp] theorem modCrc_pair (u : Nat) (f : CrcUnit → CrcUnit) (s : State) : (modCrc u f s).pair = s.pair := rfl
@[simp] theorem modCrc_pwr (u : Nat) (f : CrcUnit → CrcUnit) (s : State) : (modCrc u f s).pwr = s.pwr := rfl
@[simp] theorem modCrc_snap (u : Nat) (f : CrcUnit → CrcUnit) (s : State) : (modCrc u f s).snap = s.snap := rfl

@[simp] theorem modBase_pending (b : Nat) (f : Base → Base) (s : State) : (modBase b f s).pending = s.pending := by unfold modBase; (repeat' split) <;> rfl
@[simp] theorem modBase_free (b : Nat) (f : Base → Base) (s : State) : (modBase b f s).free = s.free := by unfold modBase; (repeat' split) <;> rfl
@[simp] theorem modBase_out (b : Nat) (f : Base → Base) (s : State) : (modBase b f s).out = s.out := by unfold modBase; (repeat' split) <;> rfl
@[simp] theorem modBase_boot (b : Nat) (f : Base → Base) (s : State) : (modBase b f s).boot = s.boot := by unfold modBase; (repeat' split) <;> rfl
@[simp] theorem modBase_releaseX (b : Nat) (f : Base → Base) (s : State) : (modBase b f s).releaseX = s.releaseX := by unfold modBase; (repeat' split) <;> rfl
@[simp] theorem modBase_latch (b : Nat) (f : Base → Base) (s : State) : (modBase b f s).latch = s.latch := by unfold modBase; (repeat' split) <;> rfl
@[simp] theorem modBase_icu (b : Nat) (f : Base → Base) (s : State) : (modBase b f s).icu = s.icu := by unfold modBase; (repeat' split) <;> rfl
@[simp] theorem modBase_wdg (b : Nat) (f : Base → Base) (s : State) : (modBase b f s).wdg = s.wdg := by unfold modBase; (repeat' split) <;> rfl
@[simp] theorem modBase_crc (b : Nat) (f : Base → Base) (s : State) : (modBase b f s).crc = s.crc := by unfold modBase; (repeat' split) <;> rfl
@[simp] theorem modBase_net (b : Nat) (f : Base → Base) (s : State) : (modBase b f s).net = s.net := by unfold modBase; (repeat' split) <;> rfl
@[simp] theorem modBase_sio (b : Nat) (f : Base → Base) (s : State) : (modBase b f s).sio = s.sio := by unfold modBase; (repeat' split) <;> rfl
@[simp] theorem modBase_cap (b : Nat) (f : Base → Base) (s : State) : (modBase b f s).cap = s.cap := by unfold modBase; (repeat' split) <;> rfl
@[simp] theorem modBase_dies (b : Nat) (f : Base → Base) (s : State) : (modBase b f s).dies = s.dies := by unfold modBase; (repeat' split) <;> rfl
@[simp] theorem modBase_ring (b : Nat) (f : Base → Base) (s : State) : (modBase b f s).ring = s.ring := by unfold modBase; (repeat' split) <;> rfl
@[simp] theorem modBase_parts (b : Nat) (f : Base → Base) (s : State) : (modBase b f s).parts = s.parts := by unfold modBase; (repeat' split) <;> rfl
@[simp] theorem modBase_frames (b : Nat) (f : Base → Base) (s : State) : (modBase b f s).frames = s.frames := by unfold modBase; (repeat' split) <;> rfl
@[simp] theorem modBase_evd (b : Nat) (f : Base → Base) (s : State) : (modBase b f s).evd = s.evd := by unfold modBase; (repeat' split) <;> rfl
@[simp] theorem modBase_seats (b : Nat) (f : Base → Base) (s : State) : (modBase b f s).seats = s.seats := by unfold modBase; (repeat' split) <;> rfl
@[simp] theorem modBase_upd (b : Nat) (f : Base → Base) (s : State) : (modBase b f s).upd = s.upd := by unfold modBase; (repeat' split) <;> rfl
@[simp] theorem modBase_pair (b : Nat) (f : Base → Base) (s : State) : (modBase b f s).pair = s.pair := by unfold modBase; (repeat' split) <;> rfl
@[simp] theorem modBase_pwr (b : Nat) (f : Base → Base) (s : State) : (modBase b f s).pwr = s.pwr := by unfold modBase; (repeat' split) <;> rfl
@[simp] theorem modBase_snap (b : Nat) (f : Base → Base) (s : State) : (modBase b f s).snap = s.snap := by unfold modBase; (repeat' split) <;> rfl

@[simp] theorem modNet_pending (p : Nat) (f : NetPort → NetPort) (s : State) : (modNet p f s).pending = s.pending := rfl
@[simp] theorem modNet_free (p : Nat) (f : NetPort → NetPort) (s : State) : (modNet p f s).free = s.free := rfl
@[simp] theorem modNet_out (p : Nat) (f : NetPort → NetPort) (s : State) : (modNet p f s).out = s.out := rfl
@[simp] theorem modNet_boot (p : Nat) (f : NetPort → NetPort) (s : State) : (modNet p f s).boot = s.boot := rfl
@[simp] theorem modNet_releaseX (p : Nat) (f : NetPort → NetPort) (s : State) : (modNet p f s).releaseX = s.releaseX := rfl
@[simp] theorem modNet_latch (p : Nat) (f : NetPort → NetPort) (s : State) : (modNet p f s).latch = s.latch := rfl
@[simp] theorem modNet_time (p : Nat) (f : NetPort → NetPort) (s : State) : (modNet p f s).time = s.time := rfl
@[simp] theorem modNet_icu (p : Nat) (f : NetPort → NetPort) (s : State) : (modNet p f s).icu = s.icu := rfl
@[simp] theorem modNet_wdg (p : Nat) (f : NetPort → NetPort) (s : State) : (modNet p f s).wdg = s.wdg := rfl
@[simp] theorem modNet_crc (p : Nat) (f : NetPort → NetPort) (s : State) : (modNet p f s).crc = s.crc := rfl
@[simp] theorem modNet_sio (p : Nat) (f : NetPort → NetPort) (s : State) : (modNet p f s).sio = s.sio := rfl
@[simp] theorem modNet_cap (p : Nat) (f : NetPort → NetPort) (s : State) : (modNet p f s).cap = s.cap := rfl
@[simp] theorem modNet_dies (p : Nat) (f : NetPort → NetPort) (s : State) : (modNet p f s).dies = s.dies := rfl
@[simp] theorem modNet_ring (p : Nat) (f : NetPort → NetPort) (s : State) : (modNet p f s).ring = s.ring := rfl
@[simp] theorem modNet_parts (p : Nat) (f : NetPort → NetPort) (s : State) : (modNet p f s).parts = s.parts := rfl
@[simp] theorem modNet_frames (p : Nat) (f : NetPort → NetPort) (s : State) : (modNet p f s).frames = s.frames := rfl
@[simp] theorem modNet_evd (p : Nat) (f : NetPort → NetPort) (s : State) : (modNet p f s).evd = s.evd := rfl
@[simp] theorem modNet_seats (p : Nat) (f : NetPort → NetPort) (s : State) : (modNet p f s).seats = s.seats := rfl
@[simp] theorem modNet_upd (p : Nat) (f : NetPort → NetPort) (s : State) : (modNet p f s).upd = s.upd := rfl
@[simp] theorem modNet_pair (p : Nat) (f : NetPort → NetPort) (s : State) : (modNet p f s).pair = s.pair := rfl
@[simp] theorem modNet_pwr (p : Nat) (f : NetPort → NetPort) (s : State) : (modNet p f s).pwr = s.pwr := rfl
@[simp] theorem modNet_snap (p : Nat) (f : NetPort → NetPort) (s : State) : (modNet p f s).snap = s.snap := rfl

@[simp] theorem modCap_pending (p : Nat) (f : CapPort → CapPort) (s : State) : (modCap p f s).pending = s.pending := rfl
@[simp] theorem modCap_free (p : Nat) (f : CapPort → CapPort) (s : State) : (modCap p f s).free = s.free := rfl
@[simp] theorem modCap_out (p : Nat) (f : CapPort → CapPort) (s : State) : (modCap p f s).out = s.out := rfl
@[simp] theorem modCap_boot (p : Nat) (f : CapPort → CapPort) (s : State) : (modCap p f s).boot = s.boot := rfl
@[simp] theorem modCap_releaseX (p : Nat) (f : CapPort → CapPort) (s : State) : (modCap p f s).releaseX = s.releaseX := rfl
@[simp] theorem modCap_latch (p : Nat) (f : CapPort → CapPort) (s : State) : (modCap p f s).latch = s.latch := rfl
@[simp] theorem modCap_time (p : Nat) (f : CapPort → CapPort) (s : State) : (modCap p f s).time = s.time := rfl
@[simp] theorem modCap_icu (p : Nat) (f : CapPort → CapPort) (s : State) : (modCap p f s).icu = s.icu := rfl
@[simp] theorem modCap_wdg (p : Nat) (f : CapPort → CapPort) (s : State) : (modCap p f s).wdg = s.wdg := rfl
@[simp] theorem modCap_crc (p : Nat) (f : CapPort → CapPort) (s : State) : (modCap p f s).crc = s.crc := rfl
@[simp] theorem modCap_net (p : Nat) (f : CapPort → CapPort) (s : State) : (modCap p f s).net = s.net := rfl
@[simp] theorem modCap_sio (p : Nat) (f : CapPort → CapPort) (s : State) : (modCap p f s).sio = s.sio := rfl
@[simp] theorem modCap_dies (p : Nat) (f : CapPort → CapPort) (s : State) : (modCap p f s).dies = s.dies := rfl
@[simp] theorem modCap_ring (p : Nat) (f : CapPort → CapPort) (s : State) : (modCap p f s).ring = s.ring := rfl
@[simp] theorem modCap_parts (p : Nat) (f : CapPort → CapPort) (s : State) : (modCap p f s).parts = s.parts := rfl
@[simp] theorem modCap_frames (p : Nat) (f : CapPort → CapPort) (s : State) : (modCap p f s).frames = s.frames := rfl
@[simp] theorem modCap_evd (p : Nat) (f : CapPort → CapPort) (s : State) : (modCap p f s).evd = s.evd := rfl
@[simp] theorem modCap_seats (p : Nat) (f : CapPort → CapPort) (s : State) : (modCap p f s).seats = s.seats := rfl
@[simp] theorem modCap_upd (p : Nat) (f : CapPort → CapPort) (s : State) : (modCap p f s).upd = s.upd := rfl
@[simp] theorem modCap_pair (p : Nat) (f : CapPort → CapPort) (s : State) : (modCap p f s).pair = s.pair := rfl
@[simp] theorem modCap_pwr (p : Nat) (f : CapPort → CapPort) (s : State) : (modCap p f s).pwr = s.pwr := rfl
@[simp] theorem modCap_snap (p : Nat) (f : CapPort → CapPort) (s : State) : (modCap p f s).snap = s.snap := rfl

@[simp] theorem modEvt_pending (i : Nat) (f : EvtIn → EvtIn) (s : State) : (modEvt i f s).pending = s.pending := rfl
@[simp] theorem modEvt_free (i : Nat) (f : EvtIn → EvtIn) (s : State) : (modEvt i f s).free = s.free := rfl
@[simp] theorem modEvt_out (i : Nat) (f : EvtIn → EvtIn) (s : State) : (modEvt i f s).out = s.out := rfl
@[simp] theorem modEvt_boot (i : Nat) (f : EvtIn → EvtIn) (s : State) : (modEvt i f s).boot = s.boot := rfl
@[simp] theorem modEvt_releaseX (i : Nat) (f : EvtIn → EvtIn) (s : State) : (modEvt i f s).releaseX = s.releaseX := rfl
@[simp] theorem modEvt_latch (i : Nat) (f : EvtIn → EvtIn) (s : State) : (modEvt i f s).latch = s.latch := rfl
@[simp] theorem modEvt_time (i : Nat) (f : EvtIn → EvtIn) (s : State) : (modEvt i f s).time = s.time := rfl
@[simp] theorem modEvt_icu (i : Nat) (f : EvtIn → EvtIn) (s : State) : (modEvt i f s).icu = s.icu := rfl
@[simp] theorem modEvt_wdg (i : Nat) (f : EvtIn → EvtIn) (s : State) : (modEvt i f s).wdg = s.wdg := rfl
@[simp] theorem modEvt_crc (i : Nat) (f : EvtIn → EvtIn) (s : State) : (modEvt i f s).crc = s.crc := rfl
@[simp] theorem modEvt_net (i : Nat) (f : EvtIn → EvtIn) (s : State) : (modEvt i f s).net = s.net := rfl
@[simp] theorem modEvt_sio (i : Nat) (f : EvtIn → EvtIn) (s : State) : (modEvt i f s).sio = s.sio := rfl
@[simp] theorem modEvt_dies (i : Nat) (f : EvtIn → EvtIn) (s : State) : (modEvt i f s).dies = s.dies := rfl
@[simp] theorem modEvt_ring (i : Nat) (f : EvtIn → EvtIn) (s : State) : (modEvt i f s).ring = s.ring := rfl
@[simp] theorem modEvt_parts (i : Nat) (f : EvtIn → EvtIn) (s : State) : (modEvt i f s).parts = s.parts := rfl
@[simp] theorem modEvt_frames (i : Nat) (f : EvtIn → EvtIn) (s : State) : (modEvt i f s).frames = s.frames := rfl
@[simp] theorem modEvt_evd (i : Nat) (f : EvtIn → EvtIn) (s : State) : (modEvt i f s).evd = s.evd := rfl
@[simp] theorem modEvt_seats (i : Nat) (f : EvtIn → EvtIn) (s : State) : (modEvt i f s).seats = s.seats := rfl
@[simp] theorem modEvt_upd (i : Nat) (f : EvtIn → EvtIn) (s : State) : (modEvt i f s).upd = s.upd := rfl
@[simp] theorem modEvt_pair (i : Nat) (f : EvtIn → EvtIn) (s : State) : (modEvt i f s).pair = s.pair := rfl
@[simp] theorem modEvt_pwr (i : Nat) (f : EvtIn → EvtIn) (s : State) : (modEvt i f s).pwr = s.pwr := rfl
@[simp] theorem modEvt_snap (i : Nat) (f : EvtIn → EvtIn) (s : State) : (modEvt i f s).snap = s.snap := rfl

@[simp] theorem modPort_pending (node : Nat) (east : Bool) (f : Port → Port) (s : State) : (modPort node east f s).pending = s.pending := rfl
@[simp] theorem modPort_free (node : Nat) (east : Bool) (f : Port → Port) (s : State) : (modPort node east f s).free = s.free := rfl
@[simp] theorem modPort_out (node : Nat) (east : Bool) (f : Port → Port) (s : State) : (modPort node east f s).out = s.out := rfl
@[simp] theorem modPort_boot (node : Nat) (east : Bool) (f : Port → Port) (s : State) : (modPort node east f s).boot = s.boot := rfl
@[simp] theorem modPort_releaseX (node : Nat) (east : Bool) (f : Port → Port) (s : State) : (modPort node east f s).releaseX = s.releaseX := rfl
@[simp] theorem modPort_latch (node : Nat) (east : Bool) (f : Port → Port) (s : State) : (modPort node east f s).latch = s.latch := rfl
@[simp] theorem modPort_time (node : Nat) (east : Bool) (f : Port → Port) (s : State) : (modPort node east f s).time = s.time := rfl
@[simp] theorem modPort_icu (node : Nat) (east : Bool) (f : Port → Port) (s : State) : (modPort node east f s).icu = s.icu := rfl
@[simp] theorem modPort_wdg (node : Nat) (east : Bool) (f : Port → Port) (s : State) : (modPort node east f s).wdg = s.wdg := rfl
@[simp] theorem modPort_crc (node : Nat) (east : Bool) (f : Port → Port) (s : State) : (modPort node east f s).crc = s.crc := rfl
@[simp] theorem modPort_net (node : Nat) (east : Bool) (f : Port → Port) (s : State) : (modPort node east f s).net = s.net := rfl
@[simp] theorem modPort_sio (node : Nat) (east : Bool) (f : Port → Port) (s : State) : (modPort node east f s).sio = s.sio := rfl
@[simp] theorem modPort_cap (node : Nat) (east : Bool) (f : Port → Port) (s : State) : (modPort node east f s).cap = s.cap := rfl
@[simp] theorem modPort_dies (node : Nat) (east : Bool) (f : Port → Port) (s : State) : (modPort node east f s).dies = s.dies := rfl
@[simp] theorem modPort_parts (node : Nat) (east : Bool) (f : Port → Port) (s : State) : (modPort node east f s).parts = s.parts := rfl
@[simp] theorem modPort_frames (node : Nat) (east : Bool) (f : Port → Port) (s : State) : (modPort node east f s).frames = s.frames := rfl
@[simp] theorem modPort_evd (node : Nat) (east : Bool) (f : Port → Port) (s : State) : (modPort node east f s).evd = s.evd := rfl
@[simp] theorem modPort_seats (node : Nat) (east : Bool) (f : Port → Port) (s : State) : (modPort node east f s).seats = s.seats := rfl
@[simp] theorem modPort_upd (node : Nat) (east : Bool) (f : Port → Port) (s : State) : (modPort node east f s).upd = s.upd := rfl
@[simp] theorem modPort_pair (node : Nat) (east : Bool) (f : Port → Port) (s : State) : (modPort node east f s).pair = s.pair := rfl
@[simp] theorem modPort_pwr (node : Nat) (east : Bool) (f : Port → Port) (s : State) : (modPort node east f s).pwr = s.pwr := rfl
@[simp] theorem modPort_snap (node : Nat) (east : Bool) (f : Port → Port) (s : State) : (modPort node east f s).snap = s.snap := rfl

@[simp] theorem modKind_pending (k : Nat) (f : Kind → Kind) (s : State) : (modKind k f s).pending = s.pending := rfl
@[simp] theorem modKind_free (k : Nat) (f : Kind → Kind) (s : State) : (modKind k f s).free = s.free := rfl
@[simp] theorem modKind_out (k : Nat) (f : Kind → Kind) (s : State) : (modKind k f s).out = s.out := rfl
@[simp] theorem modKind_boot (k : Nat) (f : Kind → Kind) (s : State) : (modKind k f s).boot = s.boot := rfl
@[simp] theorem modKind_releaseX (k : Nat) (f : Kind → Kind) (s : State) : (modKind k f s).releaseX = s.releaseX := rfl
@[simp] theorem modKind_latch (k : Nat) (f : Kind → Kind) (s : State) : (modKind k f s).latch = s.latch := rfl
@[simp] theorem modKind_time (k : Nat) (f : Kind → Kind) (s : State) : (modKind k f s).time = s.time := rfl
@[simp] theorem modKind_icu (k : Nat) (f : Kind → Kind) (s : State) : (modKind k f s).icu = s.icu := rfl
@[simp] theorem modKind_wdg (k : Nat) (f : Kind → Kind) (s : State) : (modKind k f s).wdg = s.wdg := rfl
@[simp] theorem modKind_crc (k : Nat) (f : Kind → Kind) (s : State) : (modKind k f s).crc = s.crc := rfl
@[simp] theorem modKind_net (k : Nat) (f : Kind → Kind) (s : State) : (modKind k f s).net = s.net := rfl
@[simp] theorem modKind_sio (k : Nat) (f : Kind → Kind) (s : State) : (modKind k f s).sio = s.sio := rfl
@[simp] theorem modKind_cap (k : Nat) (f : Kind → Kind) (s : State) : (modKind k f s).cap = s.cap := rfl
@[simp] theorem modKind_dies (k : Nat) (f : Kind → Kind) (s : State) : (modKind k f s).dies = s.dies := rfl
@[simp] theorem modKind_ring (k : Nat) (f : Kind → Kind) (s : State) : (modKind k f s).ring = s.ring := rfl
@[simp] theorem modKind_parts (k : Nat) (f : Kind → Kind) (s : State) : (modKind k f s).parts = s.parts := rfl
@[simp] theorem modKind_frames (k : Nat) (f : Kind → Kind) (s : State) : (modKind k f s).frames = s.frames := rfl
@[simp] theorem modKind_evd (k : Nat) (f : Kind → Kind) (s : State) : (modKind k f s).evd = s.evd := rfl
@[simp] theorem modKind_seats (k : Nat) (f : Kind → Kind) (s : State) : (modKind k f s).seats = s.seats := rfl
@[simp] theorem modKind_pair (k : Nat) (f : Kind → Kind) (s : State) : (modKind k f s).pair = s.pair := rfl
@[simp] theorem modKind_pwr (k : Nat) (f : Kind → Kind) (s : State) : (modKind k f s).pwr = s.pwr := rfl
@[simp] theorem modKind_snap (k : Nat) (f : Kind → Kind) (s : State) : (modKind k f s).snap = s.snap := rfl

@[simp] theorem modUser_pending (n : Nat) (f : UserTask → UserTask) (s : State) : (modUser n f s).pending = s.pending := rfl
@[simp] theorem modUser_free (n : Nat) (f : UserTask → UserTask) (s : State) : (modUser n f s).free = s.free := rfl
@[simp] theorem modUser_out (n : Nat) (f : UserTask → UserTask) (s : State) : (modUser n f s).out = s.out := rfl
@[simp] theorem modUser_boot (n : Nat) (f : UserTask → UserTask) (s : State) : (modUser n f s).boot = s.boot := rfl
@[simp] theorem modUser_releaseX (n : Nat) (f : UserTask → UserTask) (s : State) : (modUser n f s).releaseX = s.releaseX := rfl
@[simp] theorem modUser_latch (n : Nat) (f : UserTask → UserTask) (s : State) : (modUser n f s).latch = s.latch := rfl
@[simp] theorem modUser_time (n : Nat) (f : UserTask → UserTask) (s : State) : (modUser n f s).time = s.time := rfl
@[simp] theorem modUser_icu (n : Nat) (f : UserTask → UserTask) (s : State) : (modUser n f s).icu = s.icu := rfl
@[simp] theorem modUser_wdg (n : Nat) (f : UserTask → UserTask) (s : State) : (modUser n f s).wdg = s.wdg := rfl
@[simp] theorem modUser_crc (n : Nat) (f : UserTask → UserTask) (s : State) : (modUser n f s).crc = s.crc := rfl
@[simp] theorem modUser_net (n : Nat) (f : UserTask → UserTask) (s : State) : (modUser n f s).net = s.net := rfl
@[simp] theorem modUser_sio (n : Nat) (f : UserTask → UserTask) (s : State) : (modUser n f s).sio = s.sio := rfl
@[simp] theorem modUser_cap (n : Nat) (f : UserTask → UserTask) (s : State) : (modUser n f s).cap = s.cap := rfl
@[simp] theorem modUser_dies (n : Nat) (f : UserTask → UserTask) (s : State) : (modUser n f s).dies = s.dies := rfl
@[simp] theorem modUser_ring (n : Nat) (f : UserTask → UserTask) (s : State) : (modUser n f s).ring = s.ring := rfl
@[simp] theorem modUser_parts (n : Nat) (f : UserTask → UserTask) (s : State) : (modUser n f s).parts = s.parts := rfl
@[simp] theorem modUser_frames (n : Nat) (f : UserTask → UserTask) (s : State) : (modUser n f s).frames = s.frames := rfl
@[simp] theorem modUser_evd (n : Nat) (f : UserTask → UserTask) (s : State) : (modUser n f s).evd = s.evd := rfl
@[simp] theorem modUser_seats (n : Nat) (f : UserTask → UserTask) (s : State) : (modUser n f s).seats = s.seats := rfl
@[simp] theorem modUser_upd (n : Nat) (f : UserTask → UserTask) (s : State) : (modUser n f s).upd = s.upd := rfl
@[simp] theorem modUser_pwr (n : Nat) (f : UserTask → UserTask) (s : State) : (modUser n f s).pwr = s.pwr := rfl
@[simp] theorem modUser_snap (n : Nat) (f : UserTask → UserTask) (s : State) : (modUser n f s).snap = s.snap := rfl

@[simp] theorem modSnap_pending (f : Snap → Snap) (s : State) : (modSnap f s).pending = s.pending := rfl
@[simp] theorem modSnap_free (f : Snap → Snap) (s : State) : (modSnap f s).free = s.free := rfl
@[simp] theorem modSnap_out (f : Snap → Snap) (s : State) : (modSnap f s).out = s.out := rfl
@[simp] theorem modSnap_boot (f : Snap → Snap) (s : State) : (modSnap f s).boot = s.boot := rfl
@[simp] theorem modSnap_releaseX (f : Snap → Snap) (s : State) : (modSnap f s).releaseX = s.releaseX := rfl
@[simp] theorem modSnap_latch (f : Snap → Snap) (s : State) : (modSnap f s).latch = s.latch := rfl
@[simp] theorem modSnap_time (f : Snap → Snap) (s : State) : (modSnap f s).time = s.time := rfl
@[simp] theorem modSnap_icu (f : Snap → Snap) (s : State) : (modSnap f s).icu = s.icu := rfl
@[simp] theorem modSnap_wdg (f : Snap → Snap) (s : State) : (modSnap f s).wdg = s.wdg := rfl
@[simp] theorem modSnap_crc (f : Snap → Snap) (s : State) : (modSnap f s).crc = s.crc := rfl
@[simp] theorem modSnap_net (f : Snap → Snap) (s : State) : (modSnap f s).net = s.net := rfl
@[simp] theorem modSnap_sio (f : Snap → Snap) (s : State) : (modSnap f s).sio = s.sio := rfl
@[simp] theorem modSnap_cap (f : Snap → Snap) (s : State) : (modSnap f s).cap = s.cap := rfl
@[simp] theorem modSnap_dies (f : Snap → Snap) (s : State) : (modSnap f s).dies = s.dies := rfl
@[simp] theorem modSnap_ring (f : Snap → Snap) (s : State) : (modSnap f s).ring = s.ring := rfl
@[simp] theorem modSnap_parts (f : Snap → Snap) (s : State) : (modSnap f s).parts = s.parts := rfl
@[simp] theorem modSnap_frames (f : Snap → Snap) (s : State) : (modSnap f s).frames = s.frames := rfl
@[simp] theorem modSnap_evd (f : Snap → Snap) (s : State) : (modSnap f s).evd = s.evd := rfl
@[simp] theorem modSnap_seats (f : Snap → Snap) (s : State) : (modSnap f s).seats = s.seats := rfl
@[simp] theorem modSnap_upd (f : Snap → Snap) (s : State) : (modSnap f s).upd = s.upd := rfl
@[simp] theorem modSnap_pair (f : Snap → Snap) (s : State) : (modSnap f s).pair = s.pair := rfl
@[simp] theorem modSnap_pwr (f : Snap → Snap) (s : State) : (modSnap f s).pwr = s.pwr := rfl

@[simp] theorem setLatch_pending (v : View) (a : Nat) (x : Option Word) (s : State) : (setLatch v a x s).pending = s.pending := rfl
@[simp] theorem setLatch_free (v : View) (a : Nat) (x : Option Word) (s : State) : (setLatch v a x s).free = s.free := rfl
@[simp] theorem setLatch_out (v : View) (a : Nat) (x : Option Word) (s : State) : (setLatch v a x s).out = s.out := rfl
@[simp] theorem setLatch_boot (v : View) (a : Nat) (x : Option Word) (s : State) : (setLatch v a x s).boot = s.boot := rfl
@[simp] theorem setLatch_releaseX (v : View) (a : Nat) (x : Option Word) (s : State) : (setLatch v a x s).releaseX = s.releaseX := rfl
@[simp] theorem setLatch_time (v : View) (a : Nat) (x : Option Word) (s : State) : (setLatch v a x s).time = s.time := rfl
@[simp] theorem setLatch_icu (v : View) (a : Nat) (x : Option Word) (s : State) : (setLatch v a x s).icu = s.icu := rfl
@[simp] theorem setLatch_wdg (v : View) (a : Nat) (x : Option Word) (s : State) : (setLatch v a x s).wdg = s.wdg := rfl
@[simp] theorem setLatch_crc (v : View) (a : Nat) (x : Option Word) (s : State) : (setLatch v a x s).crc = s.crc := rfl
@[simp] theorem setLatch_net (v : View) (a : Nat) (x : Option Word) (s : State) : (setLatch v a x s).net = s.net := rfl
@[simp] theorem setLatch_sio (v : View) (a : Nat) (x : Option Word) (s : State) : (setLatch v a x s).sio = s.sio := rfl
@[simp] theorem setLatch_cap (v : View) (a : Nat) (x : Option Word) (s : State) : (setLatch v a x s).cap = s.cap := rfl
@[simp] theorem setLatch_dies (v : View) (a : Nat) (x : Option Word) (s : State) : (setLatch v a x s).dies = s.dies := rfl
@[simp] theorem setLatch_ring (v : View) (a : Nat) (x : Option Word) (s : State) : (setLatch v a x s).ring = s.ring := rfl
@[simp] theorem setLatch_parts (v : View) (a : Nat) (x : Option Word) (s : State) : (setLatch v a x s).parts = s.parts := rfl
@[simp] theorem setLatch_frames (v : View) (a : Nat) (x : Option Word) (s : State) : (setLatch v a x s).frames = s.frames := rfl
@[simp] theorem setLatch_evd (v : View) (a : Nat) (x : Option Word) (s : State) : (setLatch v a x s).evd = s.evd := rfl
@[simp] theorem setLatch_seats (v : View) (a : Nat) (x : Option Word) (s : State) : (setLatch v a x s).seats = s.seats := rfl
@[simp] theorem setLatch_upd (v : View) (a : Nat) (x : Option Word) (s : State) : (setLatch v a x s).upd = s.upd := rfl
@[simp] theorem setLatch_pair (v : View) (a : Nat) (x : Option Word) (s : State) : (setLatch v a x s).pair = s.pair := rfl
@[simp] theorem setLatch_pwr (v : View) (a : Nat) (x : Option Word) (s : State) : (setLatch v a x s).pwr = s.pwr := rfl
@[simp] theorem setLatch_snap (v : View) (a : Nat) (x : Option Word) (s : State) : (setLatch v a x s).snap = s.snap := rfl

@[simp] theorem gateHold_pending (a : Nat) (v : Word) (s : State) : (gateHold a v s).pending = s.pending := rfl
@[simp] theorem gateHold_free (a : Nat) (v : Word) (s : State) : (gateHold a v s).free = s.free := rfl
@[simp] theorem gateHold_out (a : Nat) (v : Word) (s : State) : (gateHold a v s).out = s.out := rfl
@[simp] theorem gateHold_boot (a : Nat) (v : Word) (s : State) : (gateHold a v s).boot = s.boot := rfl
@[simp] theorem gateHold_releaseX (a : Nat) (v : Word) (s : State) : (gateHold a v s).releaseX = s.releaseX := rfl
@[simp] theorem gateHold_latch (a : Nat) (v : Word) (s : State) : (gateHold a v s).latch = s.latch := rfl
@[simp] theorem gateHold_time (a : Nat) (v : Word) (s : State) : (gateHold a v s).time = s.time := rfl
@[simp] theorem gateHold_icu (a : Nat) (v : Word) (s : State) : (gateHold a v s).icu = s.icu := rfl
@[simp] theorem gateHold_wdg (a : Nat) (v : Word) (s : State) : (gateHold a v s).wdg = s.wdg := rfl
@[simp] theorem gateHold_crc (a : Nat) (v : Word) (s : State) : (gateHold a v s).crc = s.crc := rfl
@[simp] theorem gateHold_net (a : Nat) (v : Word) (s : State) : (gateHold a v s).net = s.net := rfl
@[simp] theorem gateHold_sio (a : Nat) (v : Word) (s : State) : (gateHold a v s).sio = s.sio := rfl
@[simp] theorem gateHold_cap (a : Nat) (v : Word) (s : State) : (gateHold a v s).cap = s.cap := rfl
@[simp] theorem gateHold_dies (a : Nat) (v : Word) (s : State) : (gateHold a v s).dies = s.dies := rfl
@[simp] theorem gateHold_ring (a : Nat) (v : Word) (s : State) : (gateHold a v s).ring = s.ring := rfl
@[simp] theorem gateHold_parts (a : Nat) (v : Word) (s : State) : (gateHold a v s).parts = s.parts := rfl
@[simp] theorem gateHold_frames (a : Nat) (v : Word) (s : State) : (gateHold a v s).frames = s.frames := rfl
@[simp] theorem gateHold_evd (a : Nat) (v : Word) (s : State) : (gateHold a v s).evd = s.evd := rfl
@[simp] theorem gateHold_seats (a : Nat) (v : Word) (s : State) : (gateHold a v s).seats = s.seats := rfl
@[simp] theorem gateHold_upd (a : Nat) (v : Word) (s : State) : (gateHold a v s).upd = s.upd := rfl
@[simp] theorem gateHold_pwr (a : Nat) (v : Word) (s : State) : (gateHold a v s).pwr = s.pwr := rfl
@[simp] theorem gateHold_snap (a : Nat) (v : Word) (s : State) : (gateHold a v s).snap = s.snap := rfl

theorem crcUnit_modCrc_same (u : Nat) (f : CrcUnit → CrcUnit) (s : State) : crcUnit (modCrc u f s) u = f (crcUnit s u) := tblGet_mod_same ..
theorem crcUnit_modCrc_other (u k : Nat) (f : CrcUnit → CrcUnit) (s : State) (h : k ≠ u) : crcUnit (modCrc u f s) k = crcUnit s k :=
  tblGet_mod_other _ _ _ _ _ h
theorem netPort_modNet_same (p : Nat) (f : NetPort → NetPort) (s : State) : netPort (modNet p f s) p = f (netPort s p) := tblGet_mod_same ..
theorem capPort_modCap_same (p : Nat) (f : CapPort → CapPort) (s : State) : capPort (modCap p f s) p = f (capPort s p) := tblGet_mod_same ..
theorem evtIn_modEvt_same (i : Nat) (f : EvtIn → EvtIn) (s : State) : evtIn (modEvt i f s) i = f (evtIn s i) := tblGet_mod_same ..
theorem kindOf_modKind_same (k : Nat) (f : Kind → Kind) (s : State) : kindOf (modKind k f s) k = f (kindOf s k) := tblGet_mod_same ..
theorem userTask_modUser_same (n : Nat) (f : UserTask → UserTask) (s : State) : userTask (modUser n f s) n = f (userTask s n) := tblGet_mod_same ..
theorem srcOf_modSrc_same (n : Nat) (f : Src → Src) (s : State) : srcOf (modSrc n f s) n = f (srcOf s n) := tblGet_mod_same ..
theorem wdgUnit_modWdg_same (n : Nat) (f : WdgUnit → WdgUnit) (s : State) : wdgUnit (modWdg n f s) n = f (wdgUnit s n) := tblGet_mod_same ..
theorem portOf_modPort_same (node : Nat) (east : Bool) (f : Port → Port) (s : State) :
    portOf (modPort node east f s) node east = f (portOf s node east) := tblGet_mod_same ..

end Sys2Proof.Machine
end

