-- ==== Sys2Proof/Laws/Icu.lean ====
section
/-! SUPPORT. Laws/Icu.lean: what raising an interrupt source leaves alone. -/

namespace Sys2Proof.Machine

/-- What every round of a fold keeps, the fold keeps. -/
theorem foldl_keep {α β : Type} (g : State → β) (f : State → α → State) (l : List α) (hf : ∀ s a, g (f s a) = g s) (s : State) :
    g (l.foldl f s) = g s := by
  induction l generalizing s with
  | nil => rfl
  | cons a l ih => rw [List.foldl_cons, ih, hf]

/-- The parts of the state that no change of an interrupt source touches. -/
abbrev icuRest (s : State) : List Instr × BootPhase × Time × Tbl NetPort × Tbl CrcUnit × Wdg × Sio × Cap × Ring × Tbl Part × List Frame × Evd × Upd × Snap :=
  (s.pending, s.boot, s.time, s.net, s.crc, s.wdg, s.sio, s.cap, s.ring, s.parts, s.frames, s.evd, s.upd, s.snap)

/-- Waking a gated core for a source leaves them alone. -/
theorem icuRest_wakeOne (n : Nat) (s : State) : icuRest (icuWakeOne n s) = icuRest s := by
  unfold icuWakeOne; (repeat' split) <;> rfl

/-- So does a selection. -/
theorem icuRest_select (c : Bool) (s : State) : icuRest (icuSelect c s) = icuRest s := by
  unfold icuSelect setPres; (repeat' split) <;> rfl

/-- So does the release of a die that was in NAP. -/
theorem icuRest_releaseOr (d : Nat) (s : State) : icuRest (if (die s d).st = 7 then releaseDie d s else s) = icuRest s := by
  split <;> rfl

/-- So does the start of the exit from NAP. -/
theorem icuRest_napExit (h : Option Hdr) (s : State) : icuRest (beginNapExit h s) = icuRest s := by
  unfold beginNapExit eachDie
  simp only [icuRest_releaseOr]

/-- So does waking the cores for every source. -/
theorem icuRest_wakes (l : List Nat) (s : State) : icuRest (l.foldl (fun s n => icuWakeOne n s) s) = icuRest s :=
  foldl_keep icuRest _ _ (fun s n => icuRest_wakeOne n s) s

/-- What follows a change of the sources leaves them alone. -/
theorem icuRest_settle (s : State) : icuRest (icuSettle s) = icuRest s := by
  have h : ∀ t, icuRest (icuSelect false (icuSelect true (icuSelect false t))) = icuRest t := fun t => by
    rw [icuRest_select, icuRest_select, icuRest_select]
  have e : ∀ t : State, icuRest (if t.pwr.state = 2 && !t.pwr.waking && wakeMember t then beginNapExit none t
      else if t.pwr.napping.isSome && wakeMember t then { t with pwr := { t.pwr with wakePend := true } } else t) = icuRest t := fun t => by
    split
    · exact icuRest_napExit none t
    · split <;> rfl
  unfold icuSettle
  exact (e _).trans ((h _).trans (icuRest_wakes _ _))

/-- A withdrawal leaves them alone. -/
theorem icuRest_withdraw (s : State) (c : Bool) (s' : State) : icuRest (icuWithdraw s c s') = icuRest s' := by
  unfold icuWithdraw setLate; (repeat' split) <;> rfl

/-- A change of the sources leaves them as the change itself does. -/
theorem icuRest_change (f : State → State) (s : State) : icuRest (icuChange f s) = icuRest (f s) := by
  unfold icuChange; rw [icuRest_settle, icuRest_withdraw, icuRest_withdraw]

/-- A message to a seat leaves them alone. -/
theorem icuRest_msix (x : Seat) (v : Nat) (s : State) : icuRest (msix x v s) = icuRest s := by
  unfold msix modSeat emit; cases x <;> (repeat' split) <;> rfl

/-- A forwarded event leaves them alone. -/
theorem icuRest_forward (n : Nat) (s : State) : icuRest (icuForward n s) = icuRest s := by
  unfold icuForward; (repeat' split) <;> first | rfl | exact icuRest_msix _ _ _

/-- A doorbell leaves them alone. -/
theorem icuRest_doorbell (v : Word) (s : State) : icuRest (icuDoorbell v s) = icuRest s := by
  unfold icuDoorbell
  dsimp only
  split
  · rfl
  · split
    · rfl
    · split
      · unfold icuDrop; rw [icuRest_change]; rfl
      · unfold icuRaise; rw [icuRest_forward, icuRest_change]; rfl

/-- So does an event. -/
theorem icuRest_event (n : Nat) (s : State) : icuRest (icuEvent n s) = icuRest s := icuRest_doorbell _ _

@[simp] theorem icuSettle_time (s : State) : (icuSettle s).time = s.time := congrArg (·.2.2.1) (icuRest_settle s)
@[simp] theorem icuEvent_time (n : Nat) (s : State) : (icuEvent n s).time = s.time := congrArg (·.2.2.1) (icuRest_event n s)
@[simp] theorem icuEvent_net (n : Nat) (s : State) : (icuEvent n s).net = s.net := congrArg (·.2.2.2.1) (icuRest_event n s)
@[simp] theorem icuEvent_wdg (n : Nat) (s : State) : (icuEvent n s).wdg = s.wdg := congrArg (·.2.2.2.2.2.1) (icuRest_event n s)
@[simp] theorem icuEvent_sio (n : Nat) (s : State) : (icuEvent n s).sio = s.sio := congrArg (·.2.2.2.2.2.2.1) (icuRest_event n s)
@[simp] theorem icuEvent_cap (n : Nat) (s : State) : (icuEvent n s).cap = s.cap := congrArg (·.2.2.2.2.2.2.2.1) (icuRest_event n s)
@[simp] theorem icuEvent_ring (n : Nat) (s : State) : (icuEvent n s).ring = s.ring := congrArg (·.2.2.2.2.2.2.2.2.1) (icuRest_event n s)
@[simp] theorem icuEvent_parts (n : Nat) (s : State) : (icuEvent n s).parts = s.parts := congrArg (·.2.2.2.2.2.2.2.2.2.1) (icuRest_event n s)
@[simp] theorem icuEvent_frames (n : Nat) (s : State) : (icuEvent n s).frames = s.frames :=
  congrArg (·.2.2.2.2.2.2.2.2.2.2.1) (icuRest_event n s)
@[simp] theorem icuEvent_evd (n : Nat) (s : State) : (icuEvent n s).evd = s.evd :=
  congrArg (·.2.2.2.2.2.2.2.2.2.2.2.1) (icuRest_event n s)
@[simp] theorem icuEvent_upd (n : Nat) (s : State) : (icuEvent n s).upd = s.upd :=
  congrArg (·.2.2.2.2.2.2.2.2.2.2.2.2.1) (icuRest_event n s)
@[simp] theorem icuEvent_snap (n : Nat) (s : State) : (icuEvent n s).snap = s.snap :=
  congrArg (·.2.2.2.2.2.2.2.2.2.2.2.2.2) (icuRest_event n s)

end Sys2Proof.Machine
end

