-- ==== Sys2Proof/WellFormed.lean ====
section
/-! DEFINITION. WellFormed.lean: which operands a command can carry: fields within their widths, byte strings of the length the spec
gives them. No meaning relies on it; a meaning says what an operand out of range does. -/

namespace Sys2Proof

/-- A 16-bit field. -/
def u16 (n : Nat) : Bool := decide (n < 2 ^ 16)

/-- A 32-bit field. -/
def u32 (n : Nat) : Bool := decide (n < 2 ^ 32)

/-- A signed 64-bit field. -/
def s64 (x : Int) : Bool := decide (-2 ^ 63 ≤ x) && decide (x < 2 ^ 63)

/-- `n` bytes. -/
def bytes (n : Nat) (l : List Byte) : Bool := l.length == n

/-- An entry's header: fields within their widths (R282), a queue number below 64. -/
def hdrWf (h : Hdr) : Bool :=
  decide (h.sq < 64) && u16 h.cid && decide (h.part < 256) && decide (h.addr < 2 ^ 64) && u32 h.len

/-- The input data is LENGTH bytes (R283). -/
def covers (h : Hdr) (l : List Byte) : Bool := l.length == h.len

/-- The source of a time action. -/
def srcWf : TimeSrc → Bool
  | .cmd h => hdrWf h
  | .reg => true

/-- A register that an abstract command reaches: x1 to x31, a CSR number of 12 bits, dpc, two triggers (R320, R321). -/
def dbgRegWf : DbgReg → Bool
  | .x i => decide (1 ≤ i) && decide (i < 32)
  | .csr i => decide (i < 4096)
  | .dpc => true
  | .trigger i => decide (i < 4)

/-- A self-test names units that exist and a DIE_FAIL code of R131. -/
def selfTestWf (t : SelfTest) : Bool :=
  t.cores.all (fun u => decide (u.1 < 64) && decide (u.2 < 32)) && t.clusters.all (fun c => decide (c < 64)) && decide (t.dieFail ≤ 6)

/-- The operands of a command are within what the spec gives them. -/
def Instr.wf (i : Instr) : Bool :=
  match i with
  | .identify h => hdrWf h
  | .getStatusDevice h => hdrWf h
  | .getStatusPartition h => hdrWf h
  | .getStatusContext h index => hdrWf h && u32 index
  | .getStatusEvidence h index => hdrWf h && u32 index
  | .attestReport h nonce => hdrWf h && bytes 32 nonce
  | .attestSigned => true
  | .attestCert h => hdrWf h
  | .load h stream => hdrWf h && covers h stream
  | .loadComplete _ _ => true
  | .unload h => hdrWf h
  | .start h => hdrWf h
  | .stop h => hdrWf h
  | .stopComplete _ => true
  | .storeLayout h stream => hdrWf h && covers h stream
  | .eraseLayout h => hdrWf h
  | .uploadConst h dieMask body => hdrWf h && decide (dieMask < 256) && covers h body
  | .releaseConst h digest => hdrWf h && bytes 32 digest
  | .setResultRing h cq => hdrWf h && decide (cq < 256)
  | .feedSamples h ctx seq stamp era data => hdrWf h && u16 ctx && u16 seq && u32 stamp && decide (era < 256) && covers h data
  | .feedMessage h ctx rows data => hdrWf h && u16 ctx && u32 rows && covers h data
  | .checkin h task => hdrWf h && decide (task < 256)
  | .fenceCore h die cluster core => hdrWf h && decide (die < 256) && decide (cluster < 256) && decide (core < 256)
  | .wdgTake h unit _ _ opn close => hdrWf h && decide (unit < 256) && u32 opn && u32 close
  | .wdgRelease h unit => hdrWf h && decide (unit < 256)
  | .wdgMode h unit _ _ => hdrWf h && decide (unit < 256)
  | .timeStep src _ amount => srcWf src && s64 amount
  | .timeAdopt src _ => srcWf src
  | .timeDismiss src _ => srcWf src
  | .timePathAck src _ => srcWf src
  | .timeCfg h _ _ _ _ pathHold => hdrWf h && decide (pathHold < 256)
  | .xd h _ => hdrWf h
  | .netCfg h port _ _ _ _ => hdrWf h && decide (port < 256)
  | .telegram h cfg => hdrWf h && u16 cfg.udpPort && u16 cfg.txCycle && u16 cfg.rxCycle
  | .slot h cfg => hdrWf h && u16 cfg.region && u16 cfg.element
  | .okayRelease h => hdrWf h
  | .sleepRun h => hdrWf h
  | .sleepDoze h => hdrWf h
  | .sleepNap h => hdrWf h
  | .sleepAttic h timer => hdrWf h && u32 timer
  | .systemReset h => hdrWf h
  | .dieReset h die => hdrWf h && decide (die < 256)
  | .updDownload h kind chunk offset _ data => hdrWf h && decide (kind < 256) && u32 chunk && u32 offset && covers h data
  | .chunkCommit => true
  | .updVerify h kind => hdrWf h && decide (kind < 256)
  | .verifyDone => true
  | .updActivate h kind window => hdrWf h && decide (kind < 256) && u32 window
  | .activationRestartDone => true
  | .updConfirm h kind => hdrWf h && decide (kind < 256)
  | .trialWindowExpiry => true
  | .lockstepSplit h => hdrWf h
  | .lockstepRejoin h _ => hdrWf h
  | .debugHalt => true
  | .debugResume => true
  | .debugStep => true
  | .abstractWrite r _ => dbgRegWf r
  | .abstractRead r => dbgRegWf r
  | .systemBusAccess _ addr _ => u32 addr
  | .sqDoorbell _ _ _ => true
  | .cqDoorbell _ _ _ => true
  | .resultHeadDoorbell _ _ _ => true
  | .queueEnable _ _ => true
  | .queueDisable _ _ => true
  | .commandFetch entry => bytes 64 entry
  | .usbSubmission entry _ => bytes 64 entry
  | .seatNDatagram _ _ srcPort bytes_ => u16 srcPort && decide (bytes_.length ≤ 1088)
  | .hostDmaReadDone _ _ _ => true
  | .hostDmaTimeout _ _ => true
  | .seatReset _ _ => true
  | .seatBarsReady _ => true
  | .perstRelease _ => true
  | .registerWrite _ addr _ _ => decide (addr < 0x2021000)
  | .lowerWordRead _ at_ => decide (at_.addr < 0x2021000)
  | .capEvtHiRead _ _ => true
  | .capPpsInHiRead _ => true
  | .netTxtsHiRead _ _ => true
  | .icuErrorsRead _ => true
  | .wdgGlobalRead _ => true
  | .icuDoorbell _ => true
  | .icuClaim _ => true
  | .icuEoi _ _ => true
  | .icuEnSet _ _ => true
  | .icuEnClr _ _ => true
  | .icuPendSet _ _ => true
  | .icuPendClr _ _ _ => true
  | .icuSrcCfgWrite _ _ => true
  | .crcData8 _ _ => true
  | .crcData16 _ _ => true
  | .crcData32 _ _ => true
  | .crcStart _ => true
  | .crcStateLoWrite _ _ => true
  | .crcStateHiWrite _ _ => true
  | .offsetSample _ _ _ => true
  | .pathSample _ _ => true
  | .snapshotRequest _ => true
  | .snapshotLatch _ => true
  | .wdgArm _ _ _ => true
  | .wdgService _ _ _ => true
  | .wdgExpiry _ => true
  | .wdPulseEnd _ => true
  | .taskCycleEnd _ => true
  | .checkinService _ => true
  | .taskEcall _ _ _ => true
  | .taskFault _ _ => true
  | .taskBudgetExpiry _ => true
  | .coreMismatch _ => true
  | .stateTap main checker => main.length == checker.length
  | .tapTest _ _ => true
  | .comparePathFault _ => true
  | .inputDisagree _ => true
  | .inputStuck _ => true
  | .cacheParity => true
  | .memoryUncorrectable _ _ => true
  | .companionScrub _ _ _ => true
  | .captureBlock _ _ => true
  | .fsLost _ => true
  | .evtEdge _ _ => true
  | .ppsInEdge _ => true
  | .ppsOutRise => true
  | .ppsOutFall => true
  | .writePacket _ src _ data => decide (src < 5) && decide (data.length ≤ 512)
  | .resultPacket _ _ _ data => decide (data.length ≤ 512)
  | .codePacket _ _ _ => true
  | .launchCmd _ _ _ => true
  | .fence _ => true
  | .readCause _ => true
  | .descriptorWrite _ slot_ desc => decide (slot_ < 16384) && bytes 64 desc
  | .scanStateReset _ slot_ => decide (slot_ < 16384)
  | .derivedCommit _ slot_ _ _ => decide (slot_ < 16384)
  | .snapshotCmd _ id _ => decide (id < 256)
  | .ackPacket _ seq status => decide (seq < 256) && decide (status < 256)
  | .cmdResendTimeout _ seq => decide (seq < 256)
  | .hello _ st => selfTestWf st
  | .discover _ _ _ => true
  | .discoveryTimeout => true
  | .discoverReturnTimeout => true
  | .dieAnnounceTimeout _ => true
  | .ringState _ _ seq => decide (seq < 65536)
  | .evidPacket _ _ bytes_ => bytes 128 bytes_
  | .timeBlockSend _ _ => true
  | .timeBlockReceive _ _ _ _ => true
  | .linkRetryTimeout _ _ => true
  | .linkDown _ _ => true
  | .dieUnreachable _ => true
  | .launchConvert _ _ => true
  | .frameLaunch _ _ => true
  | .frameStart _ => true
  | .engineBatch _ core _ _ _ _ => decide (core < 2048)
  | .batchBoundary _ core => decide (core < 2048)
  | .sliverDone _ core => decide (core < 2048)
  | .pegArrive _ core peg => decide (core < 2048) && decide (peg < 4096)
  | .pegWait _ core peg => decide (core < 2048) && decide (peg < 4096)
  | .pegPost _ core peg => decide (core < 2048) && decide (peg < 4096)
  | .pegTake _ core peg => decide (core < 2048) && decide (peg < 4096)
  | .pegSet _ core peg => decide (core < 2048) && decide (peg < 4096)
  | .dmaTransfer _ core _ _ => decide (core < 2048)
  | .regionEnd _ _ _ _ _ => true
  | .deadlineExpiry _ => true
  | .waitDeadlineExpiry _ => true
  | .tuningSlotOpen _ _ => true
  | .regionReloadDone _ _ _ => true
  | .autostart _ => true
  | .alarmAssert _ _ => true
  | .alarmClear _ => true
  | .alarmHoldExpiry _ => true
  | .evidenceWaitExpiry _ => true
  | .resultWaitExpiry _ => true
  | .judgement _ => true
  | .judgeSelftest _ => true
  | .timebaseWrap _ => true
  | .stepApply _ => true
  | .appSample => true
  | .xdSample => true
  | .ptpMessageReceive _ _ => true
  | .ethTransmitRequest _ _ => true
  | .ethTransmitLaunch _ => true
  | .ethLinkUp _ _ => true
  | .ethLinkLoss _ => true
  | .ethLinkTryTimeout _ => true
  | .safeReqN _ => true
  | .sealReread samples => samples.length == 4
  | .okayPeriodBoundary => true
  | .telegramBuild _ => true
  | .telegramCopyReceive _ bytes_ => bytes 64 bytes_
  | .telegramWaitExpiry => true
  | .telegramRxTimeout => true
  | .powerOn _ => true
  | .resetN _ _ => true
  | .supplyBrownout _ _ _ => true
  | .pllLockLoss _ => true
  | .refclkFault => true
  | .cellarScrub _ _ found _ => decide (found.length ≤ 56)
  | .tempUpdate _ _ => true
  | .dozeTick => true
  | .napSelfRefresh => true
  | .wakeN _ _ => true
  | .atticPinWake source _ => decide (source < 256)
  | .atticTimerWake _ => true
  | .fsRegular _ => true
  | .safeReqNRelease => true
  | .inputAgreement _ _ => true
  | .unloadComplete _ => true
  | .storeLayoutComplete _ => true
  | .taskBudgetRenewal _ => true
  | .msixVectorUnmask _ _ => true
  | .linkBlockReceive _ _ bytes_ => bytes 80 bytes_

end Sys2Proof
end

