-- ==== Sys2Proof/Tests/Slice0.lean ====
section
/-! SUPPORT. Tests/Slice0.lean: the well-formedness smoke test, small tests of single operations against the spec's own numbers,
and for every obligation with hypotheses concrete states and operands that meet them together. -/

open Sys2Proof Sys2Proof.Machine

namespace Sys2Proof.Tests

-- One theorem after another: a `decide` waits for the kernel, and a waiting theorem would hold a thread.
set_option Elab.async false

/-! ### States that the tests start from -/

/-- A header from a seat for a partition, with a data length. -/
def hdr (x : Seat) (n : Nat := 0) (len : Nat := 0) : Hdr := ⟨x, 0, 1, n, 0x1000, len⟩

/-- The device up and serving its seats. -/
def up : State := { State.reset with boot := .up, releaseX := some 0, seats := { served := true } }

/-- A die that runs. -/
def present : Die := { st := 4, hello := true, inReset := false, microcode := true }

/-- The device up with its four dies running and every link up. -/
def full : State := { up with dies := [(0, present), (1, present), (2, present), (3, present)], ring := { up := 31, discovery := 1, present := 15 } }

/-- A one-element S8 output. -/
def out1 : OutRec := { hdr := ⟨5, 1, 0, 0, [1, 0, 0, 0, 0, 0], 0⟩, derived := 0xFFFF }

/-- A region of one step on a cluster of die 0. -/
def region1 : RegionRec where
  steps := [⟨1, 1, 1, 1, 0⟩]
  outputs := [out1]
  seedKind := 0
  pegs := 2
  seed := 0
  constBytes := 0
  workBytes := 0
  reserve := 1
  ioBytes := 0
  places := [⟨0, 1, 1, 1⟩]
  progs := [⟨0, 0, 0, 0, []⟩]
  consts := []
  integ := ⟨0, 0, 0xFF, 0, 0, 0, 0, 0xFFFF⟩
  verdict := some [0x78000000]
  tuning := some ⟨10000000, 0, [], [], []⟩

/-- A host-fed sample stream, a message stream and a capture-fed stream on port 0. -/
def streams1 : List StreamRec :=
  [⟨1, 0, 7, 2, 1, 0xFFFF, 1024, 0, 0, 4, 0, 0, 255, 0⟩, ⟨2, 0, 7, 2, 1, 0xFFFF, 1024, 0, 0, 0, 0, 0, 255, 4⟩,
   ⟨1, 0, 7, 1, 1, 1, 1024, 0, 0, 4, 48000, 0, 255, 0⟩]

/-- A layout with that region and those streams, a plan on TB_SAFE and a task. -/
def layout1 : Layout where
  part := 0
  seat := 0
  autostart := false
  microcodeMin := 0
  layoutVersion := 1
  buildId := 0
  clusters := [1, 0, 0, 0]
  contexts := [3, 0, 0, 0]
  cellar := [1, 0, 0, 0]
  streams := streams1
  regions := [region1]
  plans := [⟨0, 0, 1000000, 0, 500000, [⟨0, 4, 4, 0⟩]⟩]
  binds := []
  routes := []
  tasks := some ⟨1, 1000, 500, 1500, [⟨0, 1, 1, 0, 0xFFFF⟩]⟩

/-- A partition of seat A in a state with that layout, its contexts in slots 0 to 2 of die 0, and a result ring. -/
def part1 (st : Nat) : Part :=
  { st := st, seat := 0, layout := some layout1, slots := [(0, [(0, 0)]), (1, [(0, 1)]), (2, [(0, 2)])]
    regions := [(0, { clusters := [0], usable := [true] })], cellBase := [0, 0, 0, 0], ring := some ⟨0x10000, 65536, 0, 0, 0, 0⟩ }

/-- A context with its check value right. -/
def sealCtx (c : Ctx) : Ctx := { c with dcrc := crc32c (ctxBody c) }

/-- The sample context and the message context of that layout. -/
def ctxs1 : Tbl Ctx :=
  [(0, sealCtx { kind := 1, part := 0, fmt := 7, flags := 2, channels := 1, ringLength := 1024, blockSamples := 4 }),
   (1, sealCtx { kind := 2, part := 0, stream := 1, fmt := 7, flags := 2, channels := 1, ringLength := 1024 }),
   (2, sealCtx { kind := 3, part := 0, stream := 2, fmt := 7, channels := 1, ringLength := 1024 })]

/-- The device up with that partition in a state. -/
def held (st : Nat) : State :=
  let s : State := { full with parts := [(0, part1 st)] }
  modDie 0 (fun x => { x with ctx := ctxs1 }) s

/-- A frame of that partition's region. -/
def fid : FrameId := ⟨0, 0, false, 0, 0⟩

/-- That frame at a phase with its main copy at a phase. -/
def frame1 (p : FramePhase) (r : RunPhase) : Frame :=
  { id := fid, deadline := 500000, phase := p, main := { die := 0, clusters := [0], phase := r } }

/-- The device with that frame, a core of it on sliver 1 of step 0, and its cluster's work. -/
def working (p : FramePhase) (r : RunPhase) (w : Work) (c : Core) : State :=
  let s : State := { held 2 with frames := [frame1 p r] }
  modDie 0 (fun x => { x with work := [(0, w)], cores := [(0, c)] }) s

/-- A cluster's work in that frame: the step, the next sliver, slivers in all and outstanding. -/
def work1 (step next total out : Nat) : Work := ⟨fid, step, 1, 1, 0, 0, next, total, out, 0, [], [0], [0], []⟩

/-- A peg of that region: kind, expected count, arrivals, open, count, flag. -/
def peg1 (k e a : Nat) (o : Bool) (n : Nat) (f : Bool) : Peg := ⟨k, e, a, o, n, f, 0, 0, 0, 0, false⟩

/-- A command packet sent to a die at edge 0. -/
def cmd1 (seq kind : Nat) (args : List Nat) : CmdOut := ⟨seq, kind, args, true, 0, 0⟩

/-- A die of the device with that command packet on its way. -/
def asked (d : Nat) (c : CmdOut) (s : State) : State := modDie d (fun x => { x with cmds := x.cmds ++ [c] }) s

/-- A record of a layout stream around a body. -/
def record (t : Nat) (body : List Byte) : List Byte :=
  let h := leBytes 2 t ++ zeroBytes 2 ++ leBytes 4 body.length
  h ++ leBytes 4 (crc32c (h ++ zeroBytes 4 ++ body)).toNat ++ zeroBytes 4 ++ body ++ zeroBytes (roundUp body.length 16 - body.length)

/-- A small layout stream for partition 0 of seat A: a message stream, a region with one step, one placement, one program
and a verdict program, and its plan. -/
def stream1 : List Byte :=
  let part := record 2 (leBytes 4 0 ++ leBytes 8 1 ++ zeroBytes 24 ++ leBytes 2 1 ++ zeroBytes 6 ++ leBytes 4 2 ++ zeroBytes 12 ++ zeroBytes 4)
  let strm := record 8 (leBytes 1 2 ++ leBytes 1 0 ++ leBytes 1 7 ++ leBytes 1 2 ++ leBytes 2 1 ++ leBytes 2 0xFFFF ++ leBytes 4 1024 ++
    leBytes 4 0 ++ leBytes 2 0 ++ leBytes 2 0 ++ leBytes 4 0 ++ leBytes 1 0 ++ leBytes 1 255 ++ leBytes 2 4 ++ zeroBytes 4)
  let regn := record 4 (leBytes 2 1 ++ leBytes 1 1 ++ leBytes 1 0 ++ leBytes 2 0 ++ zeroBytes 2 ++ leBytes 8 0 ++ leBytes 8 0 ++
    leBytes 4 0 ++ leBytes 4 100 ++ leBytes 8 0 ++ zeroBytes 8 ++
    leBytes 4 1 ++ leBytes 2 1 ++ leBytes 1 1 ++ zeroBytes 1 ++ leBytes 4 1 ++ leBytes 4 0 ++
    leBytes 1 5 ++ leBytes 1 1 ++ leBytes 1 0 ++ leBytes 1 0 ++ leBytes 4 1 ++ zeroBytes 20 ++ leBytes 2 0xFFFF ++ zeroBytes 2)
  let plce := record 3 (leBytes 1 0 ++ leBytes 1 1 ++ leBytes 1 1 ++ zeroBytes 5 ++ leBytes 8 1)
  let prog := record 5 (leBytes 2 0 ++ leBytes 2 0 ++ zeroBytes 4 ++ leBytes 8 0 ++ leBytes 8 0 ++ leBytes 4 16 ++ zeroBytes 4 ++ zeroBytes 16)
  let intg := record 10 (zeroBytes 4 ++ leBytes 1 0xFF ++ zeroBytes 19 ++ leBytes 2 0xFFFF ++ zeroBytes 6)
  let verd := record 11 (leBytes 2 1 ++ zeroBytes 14 ++ leBytes 4 0x80000100)
  let plan := record 9 (leBytes 2 0 ++ leBytes 1 0 ++ leBytes 1 1 ++ zeroBytes 4 ++ leBytes 8 1000000 ++ leBytes 8 0 ++ leBytes 8 500000 ++
    leBytes 2 0 ++ zeroBytes 2 ++ leBytes 4 1 ++ leBytes 4 1 ++ leBytes 4 0)
  let rest := part ++ strm ++ regn ++ plce ++ prog ++ intg ++ verd ++ plan ++ record 0xFFFF []
  record 1 (leBytes 4 0x534C5952 ++ leBytes 1 1 ++ leBytes 1 1 ++ leBytes 2 0 ++ leBytes 8 (64 + rest.length) ++ leBytes 4 10 ++ leBytes 4 1 ++ zeroBytes 24) ++ rest

/-! ### Well-formedness refuses ill-formed operands -/

theorem test_wf_accepts :
    ([.identify (hdr .a), .stateTap [1] [2], .abstractWrite (.x 31) 0, .hello 0 ⟨[(63, 31)], [63], 6⟩,
      .dmaTransfer 0 2047 ⟨true, 131072, .store 0, 0⟩ .clean, .registerWrite .int 0x1FFFFFF 4 0, .snapshotCmd 0 255 0] : List Instr).all Instr.wf = true := by
  decide

theorem test_wf_refuses_header :
    ([.identify ⟨.a, 64, 0, 0, 0, 0⟩, .identify ⟨.a, 0, 65536, 0, 0, 0⟩, .identify ⟨.a, 0, 0, 256, 0, 0⟩,
      .identify ⟨.a, 0, 0, 0, 2 ^ 64, 0⟩, .identify ⟨.a, 0, 0, 0, 0, 2 ^ 32⟩] : List Instr).any Instr.wf = false := by decide

theorem test_wf_refuses_data :
    ([.load (hdr .a 0 2) [1], .attestReport (hdr .a) [1], .releaseConst (hdr .a) [], .commandFetch [], .usbSubmission [0] [],
      .evidPacket fid false [], .telegramCopyReceive 0 [], .descriptorWrite 0 0 [], .linkBlockReceive 0 true [], .stateTap [1] [],
      .sealReread [], .writePacket 0 0 0 (zeroBytes 513), .resultPacket fid false 0 (zeroBytes 513),
      .seatNDatagram 0 0 0 (zeroBytes 1089), .cellarScrub 0 0 (List.replicate 57 .clean) false] : List Instr).any Instr.wf = false := by
  decide +kernel

theorem test_wf_refuses_fields :
    ([.getStatusContext (hdr .a) (2 ^ 32), .uploadConst (hdr .a) 256 [], .setResultRing (hdr .a) 256, .feedSamples (hdr .a) 65536 0 0 0 [],
      .feedSamples (hdr .a) 0 65536 0 0 [], .feedSamples (hdr .a) 0 0 (2 ^ 32) 0 [], .feedSamples (hdr .a) 0 0 0 256 [],
      .feedMessage (hdr .a) 0 (2 ^ 32) [], .checkin (hdr .a) 256, .fenceCore (hdr .a) 256 0 0, .fenceCore (hdr .a) 0 256 0,
      .fenceCore (hdr .a) 0 0 256, .wdgTake (hdr .a) 256 0 1 0 0, .wdgTake (hdr .a) 1 0 1 (2 ^ 32) 0, .wdgTake (hdr .a) 1 0 1 0 (2 ^ 32),
      .timeStep .reg 1 (2 ^ 63), .timeStep .reg 1 (-2 ^ 63 - 1), .timeStep (.cmd ⟨.a, 64, 0, 0, 0, 0⟩) 1 0, .timeCfg (hdr .a) 1 0 0 0 256,
      .netCfg (hdr .a) 256 0 0 0 0, .telegram (hdr .a) ⟨true, 65536, 0, 0, 10, 0, 0, 0⟩, .telegram (hdr .a) ⟨true, 0, 0, 0, 65536, 0, 0, 0⟩,
      .telegram (hdr .a) ⟨true, 0, 0, 0, 10, 65536, 0, 0⟩, .slot (hdr .a) ⟨0, true, 0, 65536, 0, 0⟩, .slot (hdr .a) ⟨0, true, 0, 0, 0, 65536⟩,
      .sleepAttic (hdr .a) (2 ^ 32), .dieReset (hdr .s) 256, .updDownload (hdr .a) 256 0 0 0 [], .updDownload (hdr .a) 1 (2 ^ 32) 0 0 [],
      .updActivate (hdr .a) 1 (2 ^ 32), .abstractWrite (.x 0) 0, .abstractWrite (.x 32) 0, .abstractRead (.csr 4096), .abstractRead (.trigger 4),
      .systemBusAccess false (2 ^ 32) 0, .seatNDatagram 0 0 65536 [], .registerWrite .a 0x3000000 4 0, .writePacket 0 5 0 [],
      .scanStateReset 0 16384, .snapshotCmd 0 256 0, .ackPacket 0 256 0, .ackPacket 0 0 256, .hello 0 ⟨[(64, 0)], [], 0⟩,
      .hello 0 ⟨[(0, 32)], [], 0⟩, .hello 0 ⟨[], [64], 0⟩, .hello 0 ⟨[], [], 7⟩, .ringState 0 0 65536, .sliverDone 0 2048,
      .pegArrive 0 0 4096, .pegArrive 0 2048 0, .pegWait 0 0 4096, .pegWait 0 2048 0, .pegPost 0 0 4096, .pegPost 0 2048 0, .pegTake 0 0 4096,
      .pegTake 0 2048 0, .pegSet 0 0 4096, .pegSet 0 2048 0, .dmaTransfer 0 2048 ⟨true, 0, .store 0, 64⟩ .clean, .batchBoundary 0 2048,
      .engineBatch 0 2048 0 [] ⟨[], [], 0, 0, 0⟩ none, .atticPinWake 256 ⟨0, 0⟩, .wdgRelease (hdr .a) 256, .wdgMode (hdr .a) 256 0 1,
      .updVerify (hdr .a) 256, .updActivate (hdr .a) 256 0, .updConfirm (hdr .a) 256, .getStatusEvidence (hdr .a) (2 ^ 32),
      .lowerWordRead .a ⟨0x3000000, 4⟩, .derivedCommit 0 16384 0 false, .cmdResendTimeout 0 256, .descriptorWrite 0 16384 (zeroBytes 64)] : List Instr).any Instr.wf = false := by
  decide +kernel

/-! ### Single operations against the spec's own numbers -/

/-- No row of the table has bits, so no word spells a command. -/
theorem test_no_word_spells_a_command : decodeTableWord 32 0xFFFFFFFF = none ∧ State.reset.withFetchWord 32 1 = State.reset := by decide

/-- SHAKE256 of no bytes, from FIPS 202's own examples. -/
theorem test_shake256_of_nothing : (shake256 32 []).map (·.toNat) =
    [0x46, 0xb9, 0xdd, 0x2b, 0x0b, 0xa8, 0x8d, 0x13, 0x23, 0x3b, 0x3f, 0xeb, 0x74, 0x3e, 0xeb, 0x24,
     0x3f, 0xcd, 0x52, 0xea, 0x62, 0xb8, 0x1b, 0x82, 0xb5, 0x0c, 0x27, 0x64, 0x6e, 0xd5, 0x76, 0x2f] := by decide +kernel

/-- R53: halves go to the even neighbour. -/
theorem test_rne_shift_halves : [rneShift 1 1, rneShift 3 1, rneShift (-1) 1, rneShift (-3) 1, rneShift 5 1] = [0, 2, 0, -2, 2] := by decide

/-- R135: from node 0, nodes 1 and 2 lie east, 3 and 4 west. -/
theorem test_short_way : [1, 2].map (fun d => (pathLinks 0 d true).length) = [1, 2] ∧ [3, 4].map (fun d => (pathLinks 0 d false).length) = [2, 1] := by decide

/-- R377: an edge is 2.5 ns. -/
theorem test_tb_safe_counts_ns : tbSafe { State.reset with time := { edges := 400000000 } } = 1000000000 := by decide

/-- R329: KIND 0b11 is ignored and counted. -/
theorem test_bad_doorbell_counts : (match exec (.icuDoorbell 0xC0000000) up with | .next t => t.icu.bad | _ => 0) = 1 := by decide

/-- R405: with nothing that blocks it a release is cleared. -/
theorem test_release_clears : (match exec (.okayRelease (hdr .s)) { up with sio := { release := true } } with | .next t => t.sio.release | _ => true) = false := by
  decide

/-- R456: the retention RAM keeps a word written through the debugger. -/
theorem test_ram_word : (match exec (.systemBusAccess true 0x8000004 0x12345678) up with | .next t => t.pwr.ram | _ => []) =
    [⟨4, 0x78⟩, ⟨5, 0x56⟩, ⟨6, 0x34⟩, ⟨7, 0x12⟩] := by decide

/-- R117: a POST on a COUNT that nobody waits on raises it by one. -/
theorem test_post_counts :
    (match exec (.pegPost 0 0 3) (modDie 0 (fun x => { x with pegs := [(3, peg1 1 0 0 false 4 false)] })
      (working .running .running (work1 0 1 1 1) { frame := some fid, sliver := 1 })) with
      | .next t => (pegOf t 0 0 0 3).map (·.count) | _ => none) = some 5 := by decide +kernel

/-- R350, R352: a service inside the window disarms the unit. -/
theorem test_service_disarms :
    (match exec (.wdgService .a 1 0) (modWdg 1 (fun u => { u with holder := 2, enable := true, opn := 100, close := 200, armed := true })
      { up with time := { edges := 60000 } }) with | .next t => (wdgUnit t 1).armed | _ => true) = false := by decide

/-- R114: a core of cluster 1 that finishes a sliver gets the next one, by its number in its cluster. -/
theorem test_sliver_of_cluster_1 :
    (match exec (.sliverDone 0 33) (modDie 0 (fun x => { x with work := [(1, { work1 0 1 2 1 with cores := [1], live := [1] })], cores := [(33, { frame := some fid, sliver := 1 })] })
      { held 2 with frames := [{ frame1 .running .running with main := { clusters := [1], phase := .running } }] }) with
      | .next t => ((coreOf t 0 33).sliver, (coreOf t 0 1).sliver) | _ => (0, 0)) = (2, 0) := by decide +kernel

/-- R308: an internal write to the watchdogs waits three edges in the write gate. -/
theorem test_write_gate_waits : (match exec (.registerWrite .int 0x70008 4 5) up with | .next t => t.pair.gate | _ => []) = [(3, 0x70008, 5)] := by decide +kernel

/-- R346: a source of type event takes a PENDING by its doorbell. -/
theorem test_event_doorbell : (match exec (.icuDoorbell 600) up with | .next t => (srcOf t 600).pend | _ => false) = true := by decide

/-! ### States and operands that meet the hypotheses of the obligations -/

theorem wit_StepTakesFrontCommand : ({ up with pending := [.cacheParity, .debugHalt] } : State).pending = .cacheParity :: [.debugHalt] := rfl

/-- A state whose write gate holds a write up to an edge. -/
def gateUp (e : Nat) : State := { up with pair := { gate := [(e, 0xB0008, 1)] } }

theorem wit_EmptyQueueLetsOneEdgePass : State.reset.pending = [] ∧ State.reset.pair.gate = [] ∧ (gateUp 2).pending = [] ∧
    (gateUp 2).pair.gate = [(2, 0xB0008, 1)] ∧ (gateUp 2).time.edges + 1 < 2 ∧ (gateUp 1).pair.gate = [(1, 0xB0008, 1)] ∧ 1 ≤ (gateUp 1).time.edges + 1 := by
  decide

theorem wit_EmptyQueueLetsOneEdgePass_idle : State.reset.sio.toggling = false ∧ State.reset.seats.sWait = none ∧ State.reset.seats.nWait = [] ∧
    State.reset.pwr.state ≠ 1 ∧ splitNow State.reset = false ∧ (gateUp 2).seats.sWait = none ∧ (gateUp 2).pwr.state ≠ 1 ∧ splitNow (gateUp 2) = false ∧
    ({ up with sio := { toggling := true } } : State).time.edges + 1 ≠ okayPeriod { up with sio := { toggling := true } } / 2 := by decide +kernel

theorem wit_QueueBelongsToTheStep : Answers (.abstractWrite (.x 1) 0) up up := by rfl

theorem wit_IdentityStaysLocked : ({ up with upd := { locked := true } } : State).upd.locked = true ∧
    Steps { up with upd := { locked := true } } (idle { up with upd := { locked := true } }) := ⟨rfl, rfl⟩

theorem wit_LegalStaysLegal : Legal State.reset ∧ Steps State.reset (idle State.reset) := by
  refine ⟨?_, rfl⟩; unfold Legal; decide

theorem wit_QueriesAnswerTheSeat : serving (held 1) .a = true ∧ Owns (hdr .a) (held 1) ∧ (part (held 1) 0).st ≠ 5 ∧
    (ctx (held 1) (0 / 16384) (0 % 16384)).kind ≠ 0 ∧ (ctx (held 1) (0 / 16384) (0 % 16384)).part = 0 ∧ dieLost (held 1) (0 / 16384) = false := by
  unfold Owns; decide

/-- A state with one stored evidence record of seat A. -/
def withRecord : State := { up with evd := { head := 1, store := [(0, ⟨[1], 0, 0⟩)] } }

theorem wit_QueriesAnswerTheSeat_evidence : serving withRecord .a = true ∧ evidenceAt withRecord 0 = some ⟨[1], 0, 0⟩ := by decide

/-- A state whose queue 0 of seat A is enabled. -/
def queued : State := modQueue .a 0 (fun _ => { enable := true, enabled := true, sqSize := 4, cqSize := 2, cqTail := 1 }) up

theorem wit_CompletionReachesTheQueue : serving queued .a = true ∧ (queueOf queued .a 0).enable = true ∧ (queueOf queued .a 0).discard = 0 ∧
    (queueOf queued .a 0).intEn = false ∧ (seatOf queued .a).rejects = false ∧ 0 < (hdr .a 0 64).len ∧ (queueOf queued .a 0).cqTail + 1 = (queueOf queued .a 0).cqSize := by decide

theorem wit_AttestationIsSigned : serving up .n = true ∧ up.upd.signing = none ∧ firmwareRuns up = true ∧
    ({ up with upd := { signing := some (hdr .n, []) } } : State).upd.signing = some (hdr .n, []) := by decide

set_option maxRecDepth 4000 in
theorem wit_LoadAndUnload_load : serving full .a = true ∧ (part full 0).st = 0 ∧ seatLoading (accept (hdr .a 0 576) full) (seatNo .a) = false ∧
    (loadErrs (accept (hdr .a 0 576) full) .a (seatNo .a) 0 stream1).2.2 = [] := by decide +kernel

/-- A layout whose region has no program yet. -/
def layout2 : Layout := { layout1 with regions := [{ region1 with progs := [] }] }

/-- Partition 0 while it is loading, its descriptors not yet acknowledged or all so. -/
def loading1 : State := modPart 0 (fun p => { p with st := 5, layout := none, loading := some ⟨layout2, [], some (hdr .a), 0⟩ }) (held 1)

theorem wit_LoadAndUnload_complete : (part loading1 0).loading = some ⟨layout2, [], some (hdr .a), 0⟩ ∧ firmwareRuns loading1 = true ∧
    badProgs layout2 = [] ∧ ((loadDies loading1 0 layout2).any fun d => !diePresent loading1 d) = false ∧
    ([0, 1, 2, 3].all fun d => loadStands loading1 0 d layout2) = true ∧
    (resettleAll 0 layout2.regions.length (modPart 0 (fun p => { p with layout := some layout2 }) loading1)).isSome = true := by decide +kernel

theorem wit_LoadAndUnload_unload : serving (held 3) .a = true ∧ Owns (hdr .a) (held 3) ∧ (part (held 3) 0).st = 3 ∧
    seatLoading (accept (hdr .a) (held 3)) (seatNo .a) = false := by unfold Owns; decide

theorem wit_LoadAndUnload_unloaded : (part (modPart 0 (fun p => { p with unloading := some (hdr .a) }) (held 3)) 0).unloading = some (hdr .a) ∧
    (part (held 3) 0).layout = some layout1 ∧ firmwareRuns (held 3) = true ∧ ((held 3).frames.any fun f => f.id.part == 0) = false := by decide

theorem wit_StartAndStop_start : serving (held 1) .a = true ∧ Owns (hdr .a) (held 1) ∧ (part (held 1) 0).unloading = none ∧
    (part (held 1) 0).st = 1 ∧ (part (held 1) 0).ring.isSome = true ∧ basesReady (accept (hdr .a) (held 1)) 0 = true ∧ (part (held 2) 0).st = 2 := by
  unfold Owns; decide

theorem wit_StartAndStop_stop : framesLeft (stopPart 0 (accept (hdr .a) (held 2))) 0 = false ∧
    framesLeft (stopPart 0 (accept (hdr .a) { held 2 with frames := [frame1 .running .running] })) 0 = true ∧ framesLeft (held 3) 0 = false := by
  decide +kernel

theorem wit_StartAndStop_autostart : let s := modPart 0 (fun p => { p with autowait := true }) (held 1)
    (part s 0).autowait = true ∧ (part s 0).st = 1 ∧ s.boot = .up ∧ basesReady s 0 = true := by decide +kernel

set_option maxRecDepth 4000 in
theorem wit_StoredLayouts_store : serving up .a = true ∧ (part up 0).st = 0 ∧ storedForeign (accept (hdr .a) up) (hdr .a) = false ∧ stream1 ≠ [] ∧
    storedElse (accept (hdr .a) up) 0 + stream1.length ≤ 0x1000000 ∧ (up.seats.storing.all fun e => !(e.1.seat == .a)) = true ∧
    (readLayout (splitRecs (stream1.length / 16 + 1) 0 stream1).1).seat = seatNo .a ∧ storeErrs stream1 = [] := by decide +kernel

/-- A state with a stored layout of partition 0 and a store in progress. -/
def storing1 : State := { up with seats := { served := true, stored := [⟨0, 0, [1]⟩], storing := [(hdr .a, some ⟨0, 0, [2]⟩)] } }

theorem wit_StoredLayouts_end : storing1.seats.storing = [(hdr .a, some ⟨0, 0, [2]⟩)] ∧ firmwareRuns storing1 = true ∧ serving storing1 .a = true ∧
    (part storing1 0).st = 0 ∧ storedForeign (accept (hdr .a) storing1) (hdr .a) = false ∧
    (storedAhead (accept (hdr .a) storing1) 0).isSome = true ∧ (storing1.seats.storing.any fun e => e.1.part == 0) = true ∧
    (let s : State := { up with seats := { served := true, stored := [⟨0, 0, [1]⟩] } }
     (s.seats.storing.all fun e => !(e.1.part == 0)) = true ∧ (storedAhead (accept (hdr .a) s) 0).isSome = true ∧ storedForeign (accept (hdr .a) s) (hdr .a) = false) := by decide +kernel

/-- A constant of one S8 element. -/
def const1 : List Byte := leBytes 1 5 ++ leBytes 1 1 ++ zeroBytes 2 ++ leBytes 4 1 ++ zeroBytes 20 ++ leBytes 4 4 ++ zeroBytes 32

theorem wit_UploadsAndRings_upload : serving full .a = true ∧ (part full 0).st = 0 ∧ tensorBad const1 0 = false ∧
    const1.length = hdrLength (readHdr const1 0) ∧ ((maskDies 15).any fun d => !diePresent (accept (hdr .a) full) d) = false ∧
    uploadOf (accept (hdr .a) full) .a 0 (shake256 32 const1) = none ∧
    ((accept (hdr .a) full).seats.uploads.filter fun u => u.seat == .a).length < 64 ∧
    (∀ d ∈ maskDies 15, roundUp (constImage const1).length 64 ≤ uploadRoom (accept (hdr .a) full) d ∧
      (uploadPlace (accept (hdr .a) full) d (roundUp (constImage const1).length 64)).isSome = true) := by decide +kernel

theorem wit_UploadsAndRings_release : let s : State := { up with seats := { served := true, uploads := [⟨.a, 0, [7], const1, 1, [0]⟩] } }
    serving s .a = true ∧ (part s 0).st = 0 ∧ (uploadOf (accept (hdr .a) s) .a 0 [7]).isSome = true ∧ constReferred (accept (hdr .a) s) .a 0 [7] = false := by
  decide +kernel

theorem wit_UploadsAndRings_ring : let s := modQueue .a 0 (fun q => { q with enable := true, enabled := true }) (held 1)
    serving s .a = true ∧ Owns (hdr .a 0 65536) s ∧ (part s 0).st = 1 ∧ ringSizeOk 65536 = true ∧ 0x1000 % 4096 = 0 ∧ 0x1000 + 65536 ≤ 2 ^ 64 ∧
    (queueOf (accept (hdr .a 0 65536) s) .a 0).enabled = true := by unfold Owns; decide +kernel

set_option maxRecDepth 4000 in
theorem wit_FeedsCheckinsAndFencing_samples : serving (held 1) .a = true ∧ Owns (hdr .a) (held 1) ∧ (part (held 1) 0).st ≠ 5 ∧ (part (held 1) 0).st ≠ 4 ∧
    ctxStream (held 1) 0 0 = some 0 ∧ (streamRec (held 1) 0 0).map (fun r => (r.kind, bitOf r.sflags 1)) = some (1, true) ∧
    ctxForeign (held 1) (hdr .a) 0 = false ∧ diePresent (held 1) 0 = true ∧ ctxBad (ctx (held 1) 0 0) = false ∧
    (streamRec (held 1) 0 0).map (fun r => rowsLen r.fmt r.channels r.blockSamples) = some (zeroBytes 16).length ∧
    feedAhead (held 1) 0 0 32767 ≤ 32767 := by unfold Owns; decide +kernel

set_option maxRecDepth 4000 in
theorem wit_FeedsCheckinsAndFencing_message : ctxStream (held 1) 0 1 = some 1 ∧ (streamRec (held 1) 0 1).map (fun r => (r.kind, r.evtBind)) = some (2, 255) ∧
    ctxForeign (held 1) (hdr .a) 1 = false ∧ ctxBad (ctx (held 1) 0 1) = false ∧
    (streamRec (held 1) 0 1).map (fun r => (rowsLen r.fmt r.channels 1024, decide (feedHeld (held 1) 0 1 + 1024 ≤ r.ringLength))) = some ((zeroBytes 4096).length, true) := by
  decide +kernel

theorem wit_FeedsCheckinsAndFencing_checkin : let s := modTask 5 (fun t => { t with valid := true, group := 1, source := 0, region := 0, part := 0 }) (modWdg 1 (fun u => { u with holder := 4 }) (held 2))
    serving s .a = true ∧ Owns (hdr .a) s ∧ (part s 0).st = 2 ∧ taskSlot s 0 0 = some 5 ∧
    (layout1.tasks.map fun k => (k.tasks[0]?).map (·.source)) = some (some 0) := by unfold Owns; decide +kernel

theorem wit_FeedsCheckinsAndFencing_fence : let s := held 1
    serving s .a = true ∧ serving s .s = true ∧ ownerNo s (ownerAt s 0 0) = seatNo .a ∧ diePresent s 3 = true ∧ diePresent s 0 = true := by decide +kernel

/-- A state with base 1 SET and both refusals shown. -/
def timed : State := { up with time := { na := { set := true, shift := true, pathChg := true } } }

theorem wit_TimeActions : (baseOf timed 1).set = true ∧ (baseOf timed 1).shift = true ∧ (baseOf timed 1).pathChg = true ∧ serving timed .s = true ∧
    HasSafetyRights (hdr .s) timed := by unfold HasSafetyRights; decide

/-- Partition 0's layout with a TIMEBIND that asks for another application source. -/
def bound1 : State := modPart 0 (fun p => { p with layout := some { layout1 with binds := [⟨3, false, 0, 1⟩] } }) (held 1)

theorem wit_SourceOfTheApplicationBase : serving bound1 .s = true ∧ HasSafetyRights (hdr .s) bound1 ∧ sourceBound bound1 (fld 0 2 1) = true ∧
    sourceBound bound1 (fld 2 2 1) = false ∧ fld 2 2 1 ≠ bound1.time.app.source ∧ up.time.app.source = 3 := by unfold HasSafetyRights; decide +kernel

theorem wit_SamplesOfTheBases : (baseOf timed 1).feed = false ∧ timed.pair.halted = false ∧ (baseOf { up with time := { nb := { feed := true } } } 2).feed = true ∧
    (netPort (modNet 1 (fun x => { x with samples := [-7] }) { up with time := { nb := { feed := true } } }) (2 - 1)).samples.head? = some (-7) ∧
    (baseOf { up with time := { nb := { feed := true } } } 2).set = false := by decide

theorem wit_SamplesOfTheBases_app : let s : State := { up with time := { edges := 400000, app := { source := 1 }, xdEn := true, na := { set := true }, nb := { set := true } } }
    s.time.edges % 400000 = 0 ∧ s.time.app.source ≤ 1 ∧ (baseOf s (s.time.app.source + 1)).set = true ∧ s.time.xdEn = true ∧ s.time.na.set = true ∧ s.time.nb.set = true := by
  decide

theorem wit_SamplesOfTheBases_wrap : longOf { up with time := { na := { count := 2 ^ 32 + 2 } } } 1 % 2 ^ 32 < 3 ∧
    2 ^ 32 ≤ longOf { up with time := { na := { count := 2 ^ 32 + 2 } } } 1 := by decide

theorem wit_StepIsApplied : dueStep { up with time := { edges := 20000, na := { pending := [(50000, -5)] } } } 1 = some (50000, -5) := by decide

theorem wit_SettingsTakeEffectAndAreStored : serving up .s = true ∧ HasSafetyRights (hdr .s) up ∧ sourceBound up (fld 0 2 1) = false ∧ ownerNo up 15 = 3 := by
  unfold HasSafetyRights; decide

/-- A state with a seal fault. -/
def unsealed : State := { up with sio := { fault := true } }

theorem wit_SealFaultRefusesSafetyCommands : serving unsealed .a = true ∧ unsealed.sio.fault = true ∧ unsealed.evd.safe = false ∧ alarmOn unsealed = false ∧
    fencing unsealed = false ∧ inMaintenance unsealed = false ∧ (wdgUnit unsealed 7).holder = 0 ∧
    ownerNo { held 1 with sio := { fault := true } } 0 = 0 ∧ (baseOf { timed with sio := { fault := true } } 1).set = true ∧
    (baseOf { timed with sio := { fault := true } } 1).shift = true ∧ (baseOf { timed with sio := { fault := true } } 1).pathChg = true ∧
    sourceBound unsealed (fld 0 2 1) = false ∧ (wdgUnit (modWdg 1 (fun u => { u with holder := 2 }) unsealed) 1).holder = 2 := by decide

theorem wit_WatchdogUnitsChangeHands : let s := modWdg 1 (fun u => { u with holder := 2 }) up
    serving s .a = true ∧ s.sio.fault = false ∧ (wdgUnit s 7).holder = 0 ∧ (wdgUnit s 1).holder = 2 ∧ HasSafetyRights (hdr .s) s ∧ s.evd.safe = false ∧
    alarmOn s = false ∧ fencing s = false ∧ inMaintenance s = false := by unfold HasSafetyRights; decide

theorem wit_SleepEntersAndLeaves : let d : State := { full with pwr := { state := 1, tick := 10 }, time := { edges := 400000 } }
    serving full .a = true ∧ sleepStatus (accept (hdr .a) d) (hdr .a) 0 = 0 ∧ d.pwr.state = 1 ∧ sleepStatus (accept (hdr .a) full) (hdr .a) 1 = 0 ∧
    sleepStatus (accept (hdr .a) full) (hdr .a) 2 = 0 ∧ sleepStatus (accept (hdr .a) full) (hdr .a) 3 = 0 ∧ full.pwr.state = 0 ∧
    wakePresent (accept (hdr .a) full) false = false ∧ wakePresent (accept (hdr .a) full) true = false ∧ d.time.edges % (d.pwr.tick * 40000) = 0 := by
  decide +kernel

theorem wit_SleepEntersAndLeaves_nap : let s : State := { full with pwr := { napping := some (hdr .a) } }
    s.pwr.napping = some (hdr .a) ∧ s.frames = [] ∧ (∀ d, d ≤ 3 → (die s d).dReset = none) ∧ wakePresent (capNap (eachDie dieToNap s)) false = false ∧
    (capNap (eachDie dieToNap s)).pwr.wakePend = false := by decide +kernel

/-- The device in ATTIC with its timer set, a pin source or SAFE_REQ_n in the wake set. -/
def attic1 (n : Nat) : State :=
  { up with boot := .off, pwr := { state := 3, timer := 2, atticAt := 0 }, time := { edges := 800000000 }, icu := { wake := [(0, (n, true))] }, sio := { reqLow := true } }

theorem wit_WakingStartsTheExit : let n : State := { full with pwr := { state := 2 } }
    n.boot ≠ .off ∧ n.pwr.napping = none ∧ n.pwr.state = 2 ∧ n.pwr.waking = false ∧ (attic1 112).boot = .off ∧ inWakeSet (attic1 112) 112 = true ∧
    inWakeSet (attic1 104) 104 = true ∧ inWakeSet (attic1 121) 121 = true ∧ (attic1 121).sio.reqLow = true ∧
    (attic1 112).pwr.timer ≠ 0 ∧ (attic1 112).pwr.atticAt + (attic1 112).pwr.timer * 400000000 ≤ (attic1 112).time.edges := by decide

theorem wit_ResetsBringTheDeviceUp : up.boot ≠ .off ∧ serving full .a = true ∧ serving full .s = true ∧ (die full 3).st ≠ 6 ∧ (die full 3).dReset = none ∧
    inNap full = false := by decide

theorem wit_AResetKeepsTheAttic : (10000 : Nat) ≤ 10000 ∧ Answers (.resetN 10000 ⟨0, 0⟩) up (bringUp 1 ⟨0, 0⟩ up) := by
  refine ⟨by decide, ?_⟩; rfl

theorem wit_UpdatesAreDownloadedAndVerified : serving up .n = true ∧ up.upd.seatSOnly = false ∧ up.upd.current = 0 ∧ inTrial up 3 = false ∧
    (kindOf up 3).committing = none ∧ (kindOf up 3).partial_ = [] ∧ (zeroBytes 1).length ≤ 29920 := by decide

theorem wit_UpdatesAreDownloadedAndVerified_end :
    let c : State := { up with upd := { kinds := [(2, { stage := 2, committing := some (hdr .n) })] } }
    let v : State := { up with upd := { kinds := [(3, { stage := 3, verifying := some (hdr .a) })] } }
    committingKind c = some (2, hdr .n) ∧ c.pair.halted = false ∧ c.upd.restart = false ∧ verifyingKind v = some (3, hdr .a) ∧ (kindOf v 3).stage = 3 ∧
    (kindOf { up with upd := { kinds := [(2, { stage := 2 })] } } 2).stage = 2 ∧
    updInProgress (accept (hdr .s) { up with upd := { kinds := [(2, { stage := 2 })] } }) = false := by decide +kernel

theorem wit_TrialsBeginAndEnd : let v (k st : Nat) : State := { up with upd := { kinds := [(k, { stage := st, window := 60 })] }, time := { edges := 24000000000 } }
    serving (v 3 4) .s = true ∧ (v 3 4).upd.seatSOnly = false ∧ (kindOf (v 3 4) 3).stage = 4 ∧ (∀ e ∈ (v 2 4).parts, e.2.st = 0) ∧
    inTrial (v 1 5) 1 = true ∧ windowOver (v 1 5) 1 = true ∧ windowOver (v 2 5) 1 = false ∧ windowOver (v 2 5) 2 = true ∧
    windowOver (v 3 5) 1 = false ∧ windowOver (v 3 5) 2 = false ∧ windowOver (v 3 5) 3 = true := by decide +kernel

theorem wit_TrialsBeginAndEnd_restart : let s : State := { up with upd := { restart := true } }
    s.upd.restart = true ∧ s.upd.seatSOnly = false ∧ s.releaseX.isSome = true := by decide

theorem wit_LockstepSplitsAndRejoins : serving full .s = true ∧ full.pair.mode = 0 ∧ deviceState (accept (hdr .s) full) ≠ 1 ∧
    ({ full with pair := { mode := 2 } } : State).pair.mode ≠ 0 := by decide +kernel

theorem wit_TheDebuggerRunsTheCores : let j (n : Nat) : State := { up with pair := { halted := true, journal := List.replicate n ⟨.dpc, 0⟩, main := { x := [(31, 5)] } } }
    inputDiffers up 0 = false ∧ inputDiffers { up with pair := { differ := [(0, 5)] } } 0 = true ∧ inputDiffers (j 63) 0 = false ∧
    dbgReaches (.x 31) = true ∧ dbgReaches (.csr 0x7B1) = true ∧ up.pair.halted = false ∧ (j 63).pair.halted = true ∧ (j 63).pair.journal.length < 64 ∧ 64 ≤ (j 64).pair.journal.length ∧ (j 64).pair.mode = 0 ∧
    cpuRead (.x 31) (j 63).pair.main = some 5 := by decide +kernel

theorem wit_PairFaultsLatchSafe : let s (e : Nat) : State := { up with time := { edges := e } }
    pairActive (s 400000) = true ∧ (s 400000).time.edges % 400000 = 0 ∧ (s 600000).time.edges % 400000 = 200000 ∧
    crc32c (([1] : List Word).map fun w => leBytes 4 w.toNat).flatten ≠ crc32c (([2] : List Word).map fun w => leBytes 4 w.toNat).flatten := by decide +kernel

theorem wit_CompanionInputsAndMemories : let s : State := { full with pair := { differ := [(2, 6)] }, time := { edges := 400001 } }
    tblGet 0 s.pair.differ 2 ≠ 0 ∧ tblGet 0 s.pair.differ 2 + 399995 ≤ s.time.edges ∧ s.boot ≠ .off ∧ (die s 3).inReset = false ∧
    inputDiffers s 1 = false ∧ s.pair.dbgReq = none ∧ taskArea 0x10280000 = none ∧ taskArea 0x10100000 = some (0, true) ∧
    taskArea 0x1027FFFF = some (7, false) ∧ full.pair.main = full.pair.checker ∧ 400000000 ≤ ({ full with time := { edges := 400000000 } } : State).time.edges := by decide

theorem wit_UserTasksAndCheckins : let s : State := modUser 7 (fun t => { t with state := 1, services := 4, budget := 0 }) (modTask 63 (fun t => { t with valid := true, source := 3 }) { up with time := { edges := 800000 } })
    (userTask s 7).state = 1 ∧ (userTask s 7).budget * 400 ≤ s.time.edges % 400000 ∧ s.pair.halted = false ∧
    bitOf (userTask s 7).services 2 = true ∧ bitOf (userTask s 7).services 3 = false ∧ (userTask s 7).preempt = false ∧ (taskOf s 63).valid = true ∧ (taskOf s 63).source = 3 ∧ s.time.edges % 400000 = 0 := by decide

theorem wit_DoorbellsMoveTheQueues : let s := modQueue .a 0 (fun q => { q with enable := true, enabled := true, sqSize := 4, cqSize := 4 }) (held 1)
    hostServes s .a = true ∧ (queueOf s .a 0).enable = true ∧ (queueOf s .a 0).enabled = true ∧ (3 : Word).toNat < (queueOf s .a 0).sqSize ∧
    (queueOf s .a 0).cqSize ≤ (4 : Word).toNat ∧ (part s 0).st ≠ 0 ∧ (part s 0).seat = seatNo .a ∧ (part s 0).ring.map (·.size) = some 65536 ∧
    (65520 : Word).toNat < 65536 ∧ (65520 : Word).toNat % 16 = 0 ∧ 65536 ≤ (65536 : Word).toNat ∧ (queueOf s .a 0).busy = 0 := by decide +kernel

theorem wit_DoorbellsMoveTheQueues_enable : let s := modQueue .b 63 (fun q => { q with sqSize := 2, cqSize := 4096 }) up
    hostServes s .b = true ∧ (queueOf s .b 63).enable = false ∧ 2 ≤ (queueOf s .b 63).sqSize ∧ (queueOf s .b 63).cqSize ≤ 4096 ∧
    (queueOf s .b 63).sqBase % 4096 = 0 ∧ (queueOf s .b 63).cqBase % 4096 = 0 := by decide +kernel

/-- A submission entry with an operation code and a length. -/
def entry (op len : Nat) : List Byte := leBytes 1 op ++ zeroBytes 15 ++ leBytes 4 len ++ zeroBytes 44

/-- A state whose queue 0 of seat A has an entry waiting. -/
def ready1 : State := modQueue .a 0 (fun _ => { enable := true, enabled := true, sqSize := 4, cqSize := 4, sqTail := 1 }) up

theorem wit_CommandsComeFromTheirSeats_fetch : nextFetch ready1 = some (.a, 0) ∧ (entry 0x01 64).length = 64 ∧ opReads (entryOp (entry 0x01 64)) = false ∧
    opReads (entryOp (entry 0x10 64)) = true ∧ 0 < entryLen (entry 0x10 64) := by decide +kernel

theorem wit_CommandsComeFromTheirSeats_wait :
    readEntry (entryHdr .a 0 none (entry 0x10 64)) (entry 0x10 64) [] (entryTaken .a 0 ready1) = some (.load (entryHdr .a 0 none (entry 0x10 64)) [], true) := by
  decide +kernel

theorem wit_CommandsComeFromTheirSeats_data : let s := modQueue .a 0 (fun u => { u with fetching := some ⟨entry 0x10 64, 0⟩ }) { up with time := { edges := 4000000 } }
    (queueOf s .a 0).fetching = some ⟨entry 0x10 64, 0⟩ ∧ serving s .a = true ∧ (zeroBytes 64).length = entryLen (entry 0x10 64) ∧ 0 + 4000000 ≤ s.time.edges := by
  decide +kernel

theorem wit_CommandsComeFromTheirSeats_usb : let s : State := { up with seats := { served := true, sBusy := true } }
    serving s .s = true ∧ (icuEvent 84 s).seats.sBusy = true ∧ (icuEvent 84 up).seats.sBusy = false ∧ serving up .s = true ∧
    romTakes (icuEvent 84 up) (entryOp (entry 0x10 64)) = true ∧ romTakes (icuEvent 84 up) (entryOp (entry 0x01 64)) = true ∧
    (zeroBytes 64).length = (entryHdr .s 0 (some 0) (entry 0x10 64)).len := by decide +kernel

theorem wit_CommandsComeFromTheirSeats_turn : let s : State := { up with seats := { served := true, sWait := some (hdr .s, entry 0x01 64, []) } }
    s.seats.nWait = [] ∧ s.seats.sWait = some (hdr .s, entry 0x01 64, []) ∧ nextTurn s = some .s ∧ (icuEvent 84 s).seats.sWait.isSome = true ∧
    (icuEvent 84 up).seats.sWait = none := by decide +kernel

theorem wit_CommandsComeFromTheirSeats_net : let s := modNet 1 (fun x => { x with up := true, addr := 1, nCount := 999 }) up
    let u := icuEvent 74 (modNet 1 (fun x => { x with rx := wrapAt 16 (x.rx + 1) }) s)
    (netPort s 1).up = true ∧ (netPort s 1).addr ≠ 0 ∧ serving u .n = true ∧ (rateTaken (netPort u 1) (tbSafe u / 1000000000)).2 = true ∧
    (zeroBytes 1024).length ≤ 1024 ∧ (zeroBytes 1024).length = (entryHdr .n 1 (some 0) (entry 0x40 1024)).len ∧ opReads (entryOp (entry 0x40 1024)) = true ∧
    opReads (entryOp (entry 0x01 64)) = false := by decide +kernel

theorem wit_SeatsResetAndReturn_enabled : let s : State := { up with seats := { a := { pendingMsg := [63], fn := { msixOn := true } } } }
    (seatOf s .a).fn.msixOn = true ∧ (seatOf s .a).fn.msixMask = false ∧ 63 ∈ (seatOf s .a).pendingMsg ∧ SeatResetCause.flr ≠ .perst ∧ up.seats.served = true ∧
    State.reset.seats.served = false ∧ ({ State.reset with boot := .boot } : State).boot ≠ .off := by decide +kernel

theorem wit_SeatsResetAndReturn : up.boot ≠ .off ∧ (seatOf ({ up with seats := { b := { perst := false } } } : State) .b).perst = false ∧
    (seatOf ({ up with seats := { a := { pendingMsg := [63] } } } : State) .a).inReset = false ∧
    63 ∈ (seatOf ({ up with seats := { a := { pendingMsg := [63] } } } : State) .a).pendingMsg ∧ 0 ∉ (seatOf up .a).pendingMsg := by decide

theorem wit_RegistersAreReadAndWritten : gated 0x7000C = true ∧ gated 0xCFFFC = true ∧ gated 0x60000 = false ∧ (2 : Nat) ≠ 4 ∧ 0x30 % 4 = 0 ∧
    isLower 0x30 = true ∧ viewReads up .int 0 = true ∧ viewActs up .int = true ∧ viewActs up .a = true ∧ portAnswers { up with seats := { served := true, a := { cfgReady := true } } } .a = true ∧
    ({ up with pair := { halted := true } } : State).pair.halted = true ∧
    latchOf { up with latch := [(.int, 0x10015C, 9)] } .int 0x10015C = some 9 ∧
    latchOf { up with latch := [(.int, 0xA0848, 0x80000)] } .int (0xA0808 + 0x40 * 1) = some 0x80000 ∧ bitOf (0x80000 : Word).toNat 19 = true ∧
    latchOf { up with latch := [(.int, 0x10014C, 8)] } .int (0x100114 + 8 * 7) = some 8 ∧ bitOf (8 : Word).toNat 3 = true := by decide +kernel

theorem wit_SystemBusReachesTheMap : up.boot ≠ .off ∧ 0x3FC < 0x400 ∧ 0x3FC % 4 = 0 ∧ 0x103FFFFC < 0x10400000 ∧ 0x103FFFFC % 4 = 0 ∧
    0x1FFFFFC < 0x2000000 ∧ 0x1FFFFFC % 4 = 0 ∧ 0x40000001 % 4 ≠ 0 ∧ 0x41FFFFFF % 4 ≠ 0 ∧ 0x10100001 % 4 ≠ 0 ∧ 0x54000000 % 4 = 0 ∧
    ({ up with pair := { halted := true } } : State).pair.halted = true := by decide

theorem wit_InterruptsAreRaisedAndClaimed : let s : State := { up with icu := { pres0 := some (600, 0), stack0 := [(7, 3)] } }
    let c : State := { up with pair := { mode := 1 }, icu := { pres1 := some (1023, 0), stack1 := [(600, 3)] } }
    (srcOf up 1023).isLevel = false ∧ (srcOf (modSrc 512 (fun x => { x with isLevel := true }) up) 512).isLevel = true ∧ icuLate s false = none ∧
    icuPres s false = some (600, 0) ∧ icuStack s false = (7, 3) :: [] ∧ s.pwr.state ≠ 1 ∧ (∀ e ∈ (icuStack s false).head?, e.1 ≠ (8 : BitVec 10).toNat) ∧
    splitNow s = false ∧ splitNow c = true ∧ icuLate c true = none ∧ icuPres c true = some (1023, 0) ∧ icuStack c true = (600, 3) :: [] := by
  decide +kernel

theorem wit_CrcUnitsComputeCheckValues : (crcUnit up 7).aliveEn = false ∧ (crcUnit (modCrc 7 (fun x => { x with aliveEn := true }) up) 7).aliveEn = true ∧
    (crcUnit up 7).cfg < 4 ∧ 4 ≤ (crcUnit (modCrc 7 (fun x => { x with cfg := 4 }) up) 7).cfg := by decide

theorem wit_SnapshotsLatchAndAcknowledge : let s : State := { full with snap := { pending := some 0, waitFor := 16 } }
    let d := modDie 3 (fun x => { x with snapArm := some (0, 1) }) full
    s.snap.pending.isSome = true ∧ up.snap.pending = none ∧ s.boot ≠ .off ∧ s.pair.halted = false ∧ s.upd.restart = false ∧ (tbSafe up : Int) ≤ extendStamp (tbSafe up) up.snap.at_.toNat (fld 0 9 8) ∧
    extendStamp (tbSafe { up with time := { edges := 400 } }) up.snap.at_.toNat (fld 0 9 8) < (tbSafe { up with time := { edges := 400 } } : Int) ∧ s.snap.pending = some 0 ∧ 16 ≤ s.snap.waitFor ∧ 0 ≤ tbSafe s ∧
    (die d 3).snapArm = some (0, 1) ∧ (die d 3).inReset = false ∧ 0 ≤ dieTime d 3 := by decide +kernel

/-- A die that has executed a command packet whose acknowledgement is on its way. -/
def executed1 (c : CmdOut) : State := modDie 3 (fun x => { x with executed := [(c.seq, c.kind, c.args)] }) (asked 3 c { full with time := { edges := 4000 } })

theorem wit_SnapshotsLatchAndAcknowledge_cmds :
    Sent 3 cmdSnapshot [255, 7] (cmd1 255 cmdSnapshot [255, 7]) (asked 3 (cmd1 255 cmdSnapshot [255, 7]) full) ∧
    ((die (executed1 (cmd1 255 cmdLaunch [])) 3).cmds.find? fun c => c.seq == 255 && executedSeq (die (executed1 (cmd1 255 cmdLaunch [])) 3) c.seq) = some (cmd1 255 cmdLaunch []) ∧
    ((die (executed1 (cmd1 0 cmdFence [])) 3).cmds.find? fun c => c.seq == 0 && executedSeq (die (executed1 (cmd1 0 cmdFence [])) 3) c.seq) = some (cmd1 0 cmdFence []) ∧
    cmdLaunch ≠ cmdFence ∧ cmdLaunch ≠ cmdDerived ∧
    ((die (executed1 (cmd1 0 cmdFence [])) 3).cmds.find? fun c => c.seq == 0) = some (cmd1 0 cmdFence []) ∧
    (cmd1 0 cmdFence []).sent + 4000 ≤ (executed1 (cmd1 0 cmdFence [])).time.edges := by unfold Sent; decide +kernel

theorem wit_WatchdogsGuardTheirWindows : let u (armed : Bool) (e : Nat) : State := modWdg 7 (fun x => { x with holder := 2, enable := true, opn := 100, close := 200, armed := armed }) { up with time := { edges := e } }
    (wdgUnit (u true 40000) 7).enable = true ∧ viewServes (u true 40000) .a = true ∧ wdgHolds .a (wdgUnit (u true 40000) 7) = true ∧
    wdgHolds .int (wdgUnit up 0) = true ∧ wdgHolds .b (wdgUnit (u true 40000) 7) = false ∧ viewServes up .b = true ∧ (wdgUnit (u false 40000) 7).armed = false ∧
    (wdgUnit (u true 40000) 7).armed = true ∧ wdgJustExpired (u true 40000) (wdgUnit (u true 40000) 7) = false ∧ (wdgUnit (u true 40000) 7).cycle = 0 ∧
    (wdgUnit (u true 40000) 7).pendMode = none ∧ (wdgUnit (u true 40000) 7).opn ≤ wdgElapsed (u true 40000) 7 ∧ (u true 40000).time.edges / 4 < ((wdgUnit (u true 40000) 7).since + (wdgUnit (u true 40000) 7).close * 400) / 4 ∧
    viewActs (u true 40000) .int = true ∧ (wdgUnit (u true 40000) 7).holder ≠ 0 ∧ (u true 80000).boot ≠ .off ∧
    (wdgUnit (u true 80000) 7).close ≤ wdgElapsed (u true 80000) 7 := by decide +kernel

theorem wit_WatchdogsGuardTheirWindows_ends : let s : State := modWdg 7 (fun x => { x with pulse := some 4, cycle := 1000 }) { up with time := { edges := 400000 } }
    let g : State := { s with wdg := { s.wdg with groups := [(7, { (default : Group) with running := true })] } }
    (wdgUnit s 7).pulse = some 4 ∧ 4 ≤ s.time.edges ∧ wdPulseLow (modWdg 7 (fun u => { u with pulse := none }) s) = false ∧
    wdPulseLow (modWdg 7 (fun u => { u with pulse := none }) (modWdg 6 (fun x => { x with pulse := some 9 }) s)) = true ∧
    (groupOf g 7).running = true ∧ (groupOf g 7).start + (wdgUnit g 7).cycle * 400 ≤ g.time.edges := by decide +kernel

/-- A transmit request with a launch. -/
def tx (en : Bool) : TxReq := ⟨en, true, 0, false, 0, []⟩

theorem wit_EthernetPortsSendAndLink : let q : State := modNet 1 (fun x => { x with queue := [(tx true, false)] }) up
    (netPort up 1).queue = [] ∧ (tx false).launchEn = false ∧ (netPort q 1).queue = [(tx true, false)] ∧ (tx true).launchEn = true ∧ -5 ≤ txAhead q 1 (tx true) ∧ txAhead q 1 (tx true) ≤ 5 ∧ up.boot ≠ .off ∧
    (netPort up 1).up = false ∧
    (netPort up 1).tryTen = true ∧ (netPort (modNet 1 (fun x => { x with up := true }) up) 1).up = true ∧
    (netPort { up with time := { edges := 40000000 } } 1).trySince + 40000000 ≤ ({ up with time := { edges := 40000000 } } : State).time.edges := by decide +kernel

theorem wit_EthernetPortsSendAndLink_ptp : let f : State := modNet 1 (fun x => { x with syncRx := some (1, 2), syncDiff := some 3, pdelayRx := some (1, 2, 3, 4) }) { up with time := { nb := { feed := true } } }
    let u (p : Fin 2) (s : State) : State := icuEvent (72 + 2 * p) (modNet p (fun x => { x with rx := wrapAt 16 (x.rx + 1) }) s)
    (baseOf (u 1 f) (1 + 1)).feed = true ∧ (baseOf (u 0 up) (0 + 1)).feed = false ∧ (netPort (drawn (u 1 f)) 1).syncRx = some (1, 2) ∧
    (netPort (drawn (u 1 f)) 1).syncDiff = some 3 ∧ (netPort (drawn (u 1 f)) 1).pdelayRx = some (1, 2, 3, 4) := by decide +kernel

/-- The head of a PTP message of the port's own domain, of another version or of it. -/
def ptp1 (version : Nat) : PtpHead := ⟨version, 1, Config.ptpDomain 1 % 128, false, .udp4, true, zeroBytes 8⟩

theorem wit_EthernetPortsSendAndLink_takes : ptpTakes 1 (ptp1 2) [zeroBytes 10, zeroBytes 10] = true ∧ ptpTakes 1 (ptp1 2) [zeroBytes 10] = true ∧
    ptpTakes 1 (ptp1 2) [] = true ∧ ptpTakes 1 (ptp1 1) [] = false ∧
    ownStamp (netPort (modNet 1 (fun x => { x with txIds := [(5, 9)] }) up) 1) 5 = some 9 := by
  refine ⟨?_, ?_, ?_, ?_, by decide +kernel⟩ <;> simp [ptpTakes, ptp1, zeroBytes]

/-- The partition with ports 0 and 1 running as slaves or not, its capture stream on some ports, packets of its blocks waiting. -/
def capped (run : Bool) (source waiting : Nat) : State :=
  let p : CapPort := { enable := true, running := run, rate := 48000 }
  let l : Layout := { layout1 with streams := streams1.take 2 ++ [⟨1, 0, 7, 1, 1, source, 1024, 0, 0, 4, 48000, 0, 255, 0⟩] }
  let w : Packet × Option Bool := (⟨0, false, false, 1, 0, 1, 1, 0, 64, []⟩, none)
  let c : Ctx := sealCtx { kind := 1, part := 0, stream := 2, fmt := 7, flags := 1, channels := 1, ringLength := 1024, blockSamples := 4 }
  modPart 0 (fun x => { x with layout := some l })
    { modCtx 0 2 (fun _ => c) (held 1) with cap := { ports := [(0, p), (1, p)] }, ring := { up := 31, ports := [(portKey 0 true, { waiting := List.replicate waiting w })] } }

/-- A block of four samples. -/
def block4 : List (List Int) := [[-32768], [0], [1], [32767]]

/-- Port 0 after it has numbered a block, and after it keeps it. -/
def numbered (s : State) : State := modCap 0 (fun x => { x with nextSeq := (x.nextSeq + 1) % 65536 }) s

theorem wit_CaptureKeepsItsBlocks : let s := capped true 1 31
    portStream s 0 = some (0, 2) ∧ (streamRec s 0 2).map (fun r => (maskPorts r.source, blockShape r (capPort s 0) block4,
      edgesFit s (capPort s 0) r.blockSamples 61875, edgesFit s (capPort s 0) r.blockSamples 84166)) = some ([0], true, true, true) ∧
    (capPort s 0).enable = true ∧ (capPort s 0).running = true ∧ (capPort s 0).master = false ∧ capWaiting (numbered s) 0 2 < 32 ∧
    32 ≤ capWaiting (numbered (capped true 1 32)) 0 2 ∧ (capPort (capped false 1 0) 0).running = false := by
  decide +kernel

theorem wit_CaptureKeepsItsBlocks_join : let v (s : State) : State := modCap 0 (fun x => { x with held := some ⟨0, 0, block4⟩ }) (numbered s)
    ((maskPorts 1).filterMap fun q => (capPort (v (capped true 1 0)) q).held).length = (maskPorts 1).length ∧
    ((maskPorts 3).filterMap fun q => (capPort (v (capped true 3 0)) q).held).length < (maskPorts 3).length ∧
    portStream (capped true 3 0) 0 = some (0, 2) ∧ (streamRec (capped true 3 0) 0 2).map (fun r => (r.source, blockShape r (capPort (capped true 3 0) 0) block4)) = some (3, true) := by
  decide +kernel

theorem wit_CaptureKeepsItsBlocks_edges : let s : State := { up with cap := { edgeSel := [(7, 1)], outEn := true }, time := { app := { source := 3 }, edges := 400000000 } }
    let f : State := { up with cap := { ppsOut := true, outFell := 0 }, time := { app := { source := 2 }, edges := 40000000 } }
    bitOf (tblGet 0 s.cap.edgeSel 7) 1 = false ∧ bitOf (tblGet 0 s.cap.edgeSel 7) 0 = true ∧ (evtIn s 7).edges.length < 16 ∧
    s.time.app.source ≠ 2 ∧ f.time.app.source = 2 ∧ s.cap.outEn = true ∧ s.cap.ppsOut = false ∧ longOf s (ppsBase s) % 1000000000 ≤ 4 ∧ f.cap.ppsOut = true ∧
    f.cap.outFell + ppsWidth f * 400000 ≤ f.time.edges := by decide +kernel

/-- A telegram copy with its check value, from and to the identifiers of a reset state or another source. -/
def copy1 (src : Byte) : List Byte :=
  let b := zeroBytes 7 ++ [src] ++ zeroBytes 2 ++ [2] ++ zeroBytes 49
  b ++ (leBytes 4 (crc32 b).toNat).reverse

theorem wit_SafetyPinsAndTelegrams : let x : Balls := ⟨0xA5, 0x5A⟩
    let s : State := { full with time := { edges := 4000000 }, sio := { sealP := 0xA5 } }
    s.boot ≠ .off ∧ 0 < s.time.edges ∧ s.time.edges % 4000000 = 0 ∧ (∀ i, i < 8 → pairFault s.sio.sealP [x, x, x, x] i = 0) ∧ holds s = 0 ∧ s.time.edges % okayPeriod s = 0 ∧ s.sio.okayPin = 0 ∧
    (let t : State := { s with sio := { s.sio with okayPin := 2 } }; holds t = 0 ∧ t.time.edges % okayPeriod t = 0 ∧ t.sio.okayPin = 2) := by
  decide +kernel

set_option maxRecDepth 4000 in
theorem wit_SafetyPinsAndTelegrams_telegram : let s : State := modNet 0 (fun x => { x with addr := 1 }) { full with time := { edges := 320000 }, sio := { tgEnable := true, txCycle := 10, rxCycle := 10 } }
    let w : State := { s with sio := { s.sio with wait := some ⟨0, [copy1 0], 0⟩ }, time := { edges := 1200000 } }
    s.sio.tgEnable = true ∧ 2 ≤ deviceState s ∧ s.sio.txCycle ≠ 0 ∧ (s.time.edges + 80000) % (s.sio.txCycle * 40000) = 0 ∧ s.pair.halted = false ∧
    s.sio.rxCycle ≠ 0 ∧ (netPort s 0).addr ≠ 0 ∧ copyValid (copy1 0) = true ∧ copyForeign s (copy1 0) = false ∧ copyValid (copy1 1) = true ∧
    copyForeign s (copy1 1) = true ∧ copyValid (zeroBytes 63) = false ∧ s.sio.wait = none ∧
    (let u : State := icuEvent (72 + 2 * 0) (modNet 0 (fun x => { x with rx := wrapAt 16 (x.rx + 1) }) s)
     u.sio.rxCycle ≠ 0 ∧ (netPort u 0).addr ≠ 0 ∧ copyForeign u (copy1 0) = false ∧ copyForeign u (copy1 1) = true ∧ u.sio.wait = none) ∧
    w.sio.wait = some ⟨0, [copy1 0], 0⟩ ∧ 0 + w.sio.rxCycle * 20000 ≤ w.time.edges ∧ w.sio.timeout = false ∧ w.sio.lastUsed + 3 * w.sio.rxCycle * 40000 ≤ w.time.edges := by
  decide +kernel

/-- A block with SLOT and BSEQ fields and a BCRC, right or not. -/
def block1 (kind seq : Nat) (good : Bool) : List Byte :=
  let b := zeroBytes 64 ++ leBytes 12 (kind + seq * 2 ^ 68)
  b ++ leBytes 4 (if good then (crc32c b).toNat else (crc32c b).toNat + 1)

/-- Port east of node 0 after it has taken an idle block. -/
def gotIdle (s : State) : State := blockPayload 0 true (block1 3 0 true) (modPort 0 true (fun p => { p with
  expect := (p.expect + 1) % 256, lastRecv := s.time.edges, sent := unacked (slotFld (block1 3 0 true) 83 76) p.sent
  credits := tblMod 32 p.credits (slotFld (block1 3 0 true) 85 84) (fun n => min 32 (n + slotFld (block1 3 0 true) 90 86)) }) s)

set_option maxRecDepth 4000 in
theorem wit_RingCarriesAndRetries : portUp full 0 true = true ∧ (block1 3 0 true).length = 80 ∧
    rd (block1 3 0 false) 76 4 ≠ (crc32c ((block1 3 0 false).take 76)).toNat ∧ rd (block1 3 5 true) 76 4 = (crc32c ((block1 3 5 true).take 76)).toNat ∧
    slotFld (block1 3 5 true) 75 68 ≠ (portOf full 0 true).expect ∧ rd (block1 3 0 true) 76 4 = (crc32c ((block1 3 0 true).take 76)).toNat ∧
    slotFld (block1 3 0 true) 75 68 = (portOf full 0 true).expect ∧ choosePacket (portOf (gotIdle full) 0 true) = none ∧
    (choosePacket (portOf (gotIdle (modPort 0 true (fun p => { p with waiting := [(⟨0, false, false, 1, 0, 1, 1, 0, 0, zeroBytes 16⟩, none)] }) full)) 0 true)).isSome = true := by
  decide +kernel

/-- The ring with a block that port west of node 4 has sent some times at edge 0. -/
def sentTimes (n : Nat) : State := modPort 4 false (fun p => { p with sent := [⟨0, n, 0, []⟩] }) { full with time := { edges := 400 } }

theorem wit_RingCarriesAndRetries_retry : portUp (sentTimes 7) 4 false = true ∧ (portOf (sentTimes 7) 4 false).sent = [⟨0, 7, 0, []⟩] ∧
    0 + 240 ≤ (sentTimes 7).time.edges ∧ sentOut (portOf (sentTimes 7) 4 false) = false ∧ sentOut (portOf (sentTimes 8) 4 false) = true ∧
    (die (sentTimes 7) 3).inReset = false ∧ linkIn (sentTimes 8).ring.up 3 = true ∧ downCause (sentTimes 8) 3 1 = true ∧
    downCause (sentTimes 7) 3 2 = true ∧ downCause (sentTimes 7) 3 3 = true ∧ 65535 % 256 ∉ (die (sentTimes 7) 3).rsSeen := by decide +kernel

theorem wit_RingCarriesAndRetries_time : portUp full 0 true = true ∧ portUp full 1 false = true ∧ timeSide full 1 = false ∧ timeSide full 1 ≠ true ∧
    (die full 0).inReset = false ∧ (die State.reset 3).inReset = true ∧ portUp { State.reset with ring := { up := 16 } } 4 true = true := by decide +kernel

/-- Die 1 released and silent, in a D reset or not, at an edge. -/
def silent (r : Option Nat) (e : Nat) : State :=
  modDie 1 (fun x => { x with hello := false, st := 1, released := 1, dReset := r }) { full with time := { edges := e } }

theorem wit_DiesAnnounceAndAreFound_hello : let st : SelfTest := ⟨[(0, 1)], [], 0⟩
    (die (silent none 600000000) 1).inReset = false ∧ (die (silent none 600000000) 1).hello = false ∧ (die (silent none 600000000) 1).microcode = true ∧
    heardBy (silent none 600000000) 1 = true ∧ announceLate (silent none 600000000) 1 = false ∧ (die (silent none 600000000) 1).dReset = none ∧
    (die (silent (some 7) 600000000) 1).dReset.isSome = true ∧
    (die (dieHello 1 (selfTestOf st) (sendHello 1 (silent (some 7) 600000000))) 1).st ≠ 5 ∧
    announceLate (silent none 600000001) 1 = true ∧ (die (silent none 600000001) 1).st ≠ 6 := by decide +kernel

/-- The ring in discovery with a token at a node. -/
def token (n : Nat) (up : Nat) : State := { full with ring := { up := up, tokens := [(true, n, 3)] } }

theorem wit_DiesAnnounceAndAreFound_discover : (true, (3 : Fin 4).val + 1, 3) ∈ (token 4 31).ring.tokens ∧ (die (token 4 31) 3).inReset = false ∧
    portUp (token 4 31) 4 true = true ∧ portUp (token 4 15) 4 true = false ∧ (true, 0, 3) ∈ (token 0 31).ring.tokens := by decide +kernel

/-- The device in boot 1.5 s after the release, die 3 announced or not. -/
def booting (h : Bool) : State :=
  modDie 3 (fun x => { x with hello := h, st := if h then 3 else 0 }) { full with boot := .boot, ring := { up := 31 }, time := { edges := 600000000 } }

theorem wit_DiesAnnounceAndAreFound_timeouts :
    let u (h : Bool) : State := eachDie (fun d s => if (die s d).hello || (die s d).st == 6 then s else trialDieLost d (dieAbsent d 1 s)) (booting h)
    (booting true).releaseX = some 0 ∧ discovering (booting true) = true ∧ (booting true).ring.east = none ∧ 0 + 600000000 ≤ (booting true).time.edges ∧
    (u true).ring.east = none ∧ (u false).ring.east = none ∧
    ({ booting true with ring := { east := some 0 } } : State).ring.east = some 0 ∧ ({ booting true with ring := { east := some 0 } } : State).ring.west = none ∧
    0 + 400000 ≤ (booting true).time.edges ∧ ({ booting true with ring := { west := some 0 } } : State).ring.west = some 0 := by decide +kernel

theorem wit_DiesAnnounceAndAreFound_lost : let s := modDie 0 (fun x => { x with almT := true, almF := false, cut := some 0 }) { full with time := { edges := 400000 } }
    (die s 0).inReset = false ∧ (die s 0).st ≠ 6 ∧ (die s 0).st ≠ 7 ∧ unreached s 0 = true ∧ alarmCode (die s 0) = true ∧ alarmHeard (die s 0) = true ∧
    (die s 0).almAt + 400000 ≤ s.time.edges ∧ ((die s 0).seq.any fun q => q.read) = false ∧ (die s 1).hello = true := by decide +kernel

/-- An error of core 1 of cluster 0, its cause read or not. -/
def seq1 (r : Bool) : FenceSeq := ⟨0, [.residue 0 1], [(.core 0 1, 1)], [], r⟩

/-- A die that handles that error. -/
def struck (r : Bool) : State := modDie 0 (fun x => { x with seq := some (seq1 r) }) full

theorem wit_DiesTakeCommands_launch : Sent 0 cmdLaunch (launchArgs fid 500000) (cmd1 1 cmdLaunch (launchArgs fid 500000))
    (asked 0 (cmd1 1 cmdLaunch (launchArgs fid 500000)) (held 2)) := by unfold Sent; decide +kernel

theorem wit_DiesTakeCommands_fence : let f : State := asked 0 (cmd1 2 cmdFence [0, 1]) (modDie 0 (fun x => { x with fenceCmds := [(hdr .a, 0, 1, false)] }) (held 2))
    let g : State := modDie 0 (fun x => { x with executed := [(2, cmdFence, [])] }) full
    (die (asked 0 (cmd1 2 cmdFence []) (struck true)) 0).seq = some (seq1 true) ∧ (seq1 true).read = true ∧ wantsFence (seq1 true) = true ∧
    Sent 0 cmdFence [] (cmd1 2 cmdFence []) (asked 0 (cmd1 2 cmdFence []) (struck true)) ∧ (die f 0).seq = none ∧
    ((die f 0).fenceCmds.find? fun e => !e.2.2.2) = some (hdr .a, 0, 1, false) ∧ Sent 0 cmdFence [0, 1] (cmd1 2 cmdFence [0, 1]) f ∧
    (die g 0).inReset = false ∧ (die g 0).seq = none ∧ (die g 0).fenceCmds = [] ∧
    ((die g 0).cmds.find? fun x => x.kind == cmdFence && x.args == [] && !executedSeq (die g 0) x.seq) = none ∧
    ((die g 0).executed.find? fun x => x.2.1 == cmdFence && x.2.2 == []) = some (2, cmdFence, []) := by unfold Sent; decide +kernel

theorem wit_DiesTakeCommands_cause : (die (struck false) 0).inReset = false ∧ (die (struck false) 0).seq = some (seq1 false) ∧ firmwareRuns (struck false) = true ∧
    wantsFence (seq1 false) = true ∧ wantsFence ⟨0, [.context 2], [], [], false⟩ = false ∧
    (die (modDie 0 (fun x => { x with seq := some ⟨0, [.context 2], [], [], false⟩ }) full) 0).seq = some ⟨0, [.context 2], [], [], false⟩ := by decide +kernel

set_option maxRecDepth 4000 in
theorem wit_DiesTakeCommands_contexts : (zeroBytes 64).length = 64 ∧ 16383 < 16384 ∧
    Sent 0 cmdDescriptor (descArgs 16383 (zeroBytes 64)) (cmd1 3 cmdDescriptor (descArgs 16383 (zeroBytes 64))) (asked 0 (cmd1 3 cmdDescriptor (descArgs 16383 (zeroBytes 64))) full) ∧
    Sent 0 cmdScanReset [2] (cmd1 4 cmdScanReset [2]) (asked 0 (cmd1 4 cmdScanReset [2]) full) ∧
    (ctx (held 1) 0 2).kind = 3 ∧ Sent 0 cmdDerived [2, 4, 0] (cmd1 5 cmdDerived [2, 4, bit false]) (asked 0 (cmd1 5 cmdDerived [2, 4, 0]) (held 1)) := by
  unfold Sent; decide +kernel

theorem wit_DiesTakeCommands_alarms : let m := modDie 0 (fun x => { x with hello := false, microcode := false }) full
    (die m 0).inReset = false ∧ (kindOf m 2).bootFail = false ∧ (die m 0).hello = false ∧ (die m 0).microcode = false ∧
    (coreOf full 0 (32 * 63 + 31)).frame = none ∧ (die full 0).seq = none ∧ framesOn full 0 (List.range 64) = [] ∧
    framesOn { held 2 with frames := [frame1 .running .running] } 0 (List.range 64) = [(fid, false)] ∧
    alarmCode (die (modDie 0 (fun x => { x with almT := true, almF := false }) full) 0) = true := by decide +kernel

theorem wit_CellarsAreWrittenThroughWindows : let s := modDie 3 (fun x => { x with windows := [⟨0, 64, 192, 0, false⟩] }) full
    (die s 3).inReset = false ∧ ((die s 3).windows.any fun w => w.src == 0 && decide (w.lo ≤ 64 * 1) && decide (64 * 1 + (zeroBytes 128).length ≤ w.hi)) = true ∧
    ((die s 3).windows.any fun w => w.src == 1 && decide (w.lo ≤ 64 * 1) && decide (64 * 1 + (zeroBytes 128).length ≤ w.hi)) = false := by decide +kernel

/-- The partition running with a plan on base 1 whose launch 0 lies at 5.1 ms. -/
def planned : State :=
  let s := modPart 0 (fun p => { p with layout := some { layout1 with plans := [⟨0, 1, 1000000, 0, 500000, [⟨0, 4, 4, 0⟩]⟩] }, plans := [(0, { l0 := 5100000 })] }) (held 2)
  { s with time := { edges := 2000000, na := { set := true, count := 5000000 } } }

theorem wit_FramesAreLaunchedAndStarted_convert : (planRec planned 0 0).map (·.base) = some 1 ∧ planRuns planned 0 0 = true ∧
    launchTime planned 0 0 0 ⟨0, 1, 1000000, 0, 500000, [⟨0, 4, 4, 0⟩]⟩ = 5100000 ∧ tbSafe planned = 5000000 ∧ toSafe planned 1 5100000 = 5100000 := by
  refine ⟨by decide +kernel, by decide +kernel, by decide +kernel, by decide +kernel, ?_⟩
  have h1 : longOf planned 1 = 5000000 := by decide +kernel
  have h2 : (baseOf planned 1).freq = 0 := by decide +kernel
  have h3 : tbSafe planned = 5000000 := by decide +kernel
  unfold toSafe
  rw [h1, h2, h3]
  simp

/-- The partition running with launch 3 of its plan converted, its CMD sent to the die and kept there, or not sent. -/
def launching (sent : Bool) : State :=
  let s := modPart 0 (fun p => { p with plans := [(0, { l0 := 5000000, nextSeq := 4, converted := [(3, 8000000, 8000000)] })] }) { held 2 with time := { edges := 3200000 } }
  modDie 0 (fun x => { x with launches := if sent then [(launchId s 0 0 3, 8000000)] else [] }) s

theorem wit_FramesAreLaunchedAndStarted_launch : dueLaunch (launching true) 0 0 = some (3, 8000000, 8000000) ∧
    dueLaunch (launching false) 0 0 = some (3, 8000000, 8000000) ∧ (planRec (launching true) 0 0).isSome = true := by decide +kernel

theorem wit_FramesAreLaunchedAndStarted_start : let s : State := { held 2 with frames := [frame1 .waiting .idle] }
    pickStart s 0 (startOrder s 0) [] = some (fid, false) := by decide +kernel

theorem wit_FramesAreLaunchedAndStarted_deadline : let s (p : FramePhase) (r : RunPhase) : State := { held 2 with frames := [frame1 p r], time := { edges := 200000 } }
    frameOf (s .running .running) fid = some (frame1 .running .running) ∧ (frame1 .running .running).twin = none ∧
    (frame1 .running .running).deadline ≤ dieTime (s .running .running) 0 ∧ frameOf (s .waiting .idle) fid = some (frame1 .waiting .idle) ∧
    inQueue (frame1 .waiting .idle) = true ∧ fid.tuning = false ∧ (frame1 .waiting .idle).deadline ≤ tbSafe (s .waiting .idle) := by decide +kernel

theorem wit_FramesAreLaunchedAndStarted_slot : let s := modRegion 0 0 (fun x => { x with nextSlot := 1, pReload := true, reload := some 0 }) { held 2 with time := { edges := 1 } }
    ((regionRec s 0 0).bind (·.tuning)).isSome = true ∧ (regionRt s 0 0).nextSlot ≠ 0 ∧
    (regionRt s 0 0).nextSlot ≤ (if diePresent s (mainCopy s 0 0).die then dieTime s (mainCopy s 0 0).die else tbSafe s) ∧ (regionRt s 0 0).pReload = true := by decide +kernel

theorem wit_FramesAreLaunchedAndStarted_reload : let u := modPart 0 (fun p => { p with layout := some { layout1 with regions := [{ region1 with tuning := none }] } }) (held 2)
    let s := modRegion 0 0 (fun x => { x with reload := some 0 }) u
    (regionRt s 0 0).reload.isSome = true ∧ ((regionRec s 0 0).bind (·.tuning)) = none := by decide +kernel

/-- A core that works on a sliver of step 0, the next one, those in all and outstanding. -/
def busy (next total out : Nat) (inBatch : Bool) : State :=
  working .running .running (work1 0 next total out) { frame := some fid, sliver := 1, inBatch := inBatch, dma := if inBatch then List.replicate 7 (⟨true, 0, .store 0, 64⟩, .clean) else [] }

/-- The frame that the core works for, its copy and which copy it is. -/
def acts1 : Option (Frame × Bool × Copy) := some (frame1 .running .running, false, (frame1 .running .running).main)

theorem wit_CoresWorkThroughTheirSlivers : coreActs (busy 1 2 2 false) 0 0 = acts1 ∧ (frame1 .running .running).main.phase = .running ∧
    (coreOf (busy 1 2 2 false) 0 0).inBatch = false ∧ workOf (busy 1 2 2 false) 0 (0 / 32) = some (work1 0 1 2 2) ∧
    0 % 32 ∈ (work1 0 1 2 2).live ∧ (work1 0 1 2 2).again = [] ∧ coreActs (busy 2 2 2 false) 0 0 = acts1 ∧
    workOf (busy 2 2 2 false) 0 0 = some (work1 0 2 2 2) ∧ (work1 0 2 2 2).next = (work1 0 2 2 2).total ∧ 2 ≤ (work1 0 2 2 2).out := by decide +kernel

theorem wit_CoresWorkThroughTheirSlivers_batch :
    (runJobs 0 0 (frame1 .running .running) false (frame1 .running .running).main [] 0 [.pairs (.window 9) 0 0 0] (busy 1 2 2 false)).2 = false ∧
    (runJobs 0 0 (frame1 .running .running) false (frame1 .running .running).main [⟨0, .acc, 0, 1⟩] 0 [.combine [1] [] ⟨.s8, 1, 0, .rne, false, 0, 0, 0, 0, 0⟩ ⟨0, 16⟩]
      (busy 1 2 2 false)).2 = true := by decide +kernel

theorem wit_CoresWorkThroughTheirSlivers_dma : dmaAllowed (busy 1 2 2 false) 0 0 ⟨true, 131008, .store 2097088, 64⟩ = true ∧
    coreActs (busy 1 2 2 true) 0 0 = acts1 ∧ (coreOf (busy 1 2 2 true) 0 0).inBatch = true ∧ (coreOf (busy 1 2 2 true) 0 0).dma.length < 8 ∧
    dmaAllowed (busy 1 2 2 true) 0 0 ⟨true, 0, .store 0, 64⟩ = true ∧ dmaAllowed (busy 1 2 2 false) 0 0 ⟨true, 0, .store 2097152, 64⟩ = false ∧
    dmaAllowed (busy 1 2 2 false) 0 0 ⟨true, 131009, .store 0, 64⟩ = false ∧ 64 ≠ 0 ∧ 64 % 64 = 0 ∧ 65 % 64 ≠ 0 := by decide +kernel

theorem wit_CoresWorkThroughTheirSlivers_boundary : let e (s : State) : State := modCore 0 0 (fun c => { c with inBatch := false }) s
    coreCopy (busy 1 2 2 true) 0 0 = acts1 ∧
    coreCopy (e (dmaDrain 0 0 (frame1 .running .running) false (busy 1 2 2 true))) 0 0 = acts1 ∧
    (coreOf (modCore 3 9 (fun c => { c with inBatch := true }) full) 3 9).inBatch = true ∧ coreCopy (modCore 3 9 (fun c => { c with inBatch := true }) full) 3 9 = none := by
  decide +kernel

/-- The frame's work done, a peg of its region with a count, a sliver run with a signature. -/
def finished (count sig : Nat) : State :=
  modDie 0 (fun x => { x with pegs := [(3, { peg1 1 0 0 false count false with final := 2 })] })
    (working .running .running { work1 1 0 0 0 with ran := [⟨0, 1, 0, sig, 7⟩] } { frame := some fid })

/-- The output that the region declares. -/
def result1 : Tensor := ⟨.s8, [1], 0, 0, [0x0100], [5]⟩

theorem wit_CoresWorkThroughTheirSlivers_outs : outsFit (finished 2 7) 0 (frame1 .running .running).main [result1] = true := by
  have e : ∃ v, regionOuts (finished 2 7) 0 0 = [{ out1 with vary := v }] := ⟨_, rfl⟩
  obtain ⟨v, e⟩ := e
  have k : ∀ v, hdrFits { out1 with vary := v } (readHdr (tensorBytes result1) 0) = true := by decide +kernel
  unfold outsFit
  rw [show (frame1 .running .running).main.region = 0 from rfl, e]
  simp [k v]

theorem wit_CoresWorkThroughTheirSlivers_end : frameOf (finished 2 7) fid = some (frame1 .running .running) ∧
    copyOf (frame1 .running .running) false = some (frame1 .running .running).main ∧ (frame1 .running .running).main.die = (0 : Fin 4).val ∧
    workDone (finished 2 7) fid (frame1 .running .running).main = true ∧
    badSliver (finished 2 7) (frame1 .running .running).main none = none ∧ pegsOff (finished 2 7) 0 0 0 = false ∧ pegsOff (finished 3 7) 0 0 0 = true ∧
    badSliver (finished 3 7) (frame1 .running .running).main none = none ∧ badSliver (finished 2 8) (frame1 .running .running).main none = some 0 ∧
    badSliver (finished 2 7) (frame1 .running .running).main (some (0, 8)) = some 0 := by decide +kernel

/-- The working core with a peg in place 4095, a place of its partition's region or of another. -/
def pegged (p : Peg) : State := modDie 0 (fun x => { x with pegs := [(4095, p)] }) (busy 1 2 2 false)

theorem wit_PegsSynchroniseCores : coreActs (pegged (peg1 0 2 0 false 0 false)) 0 0 = acts1 ∧
    pegOf (pegged (peg1 0 2 0 false 0 false)) 0 0 0 4095 = some (peg1 0 2 0 false 0 false) ∧
    (peg1 0 2 0 false 0 false).arrivals + 1 ≠ (peg1 0 2 0 false 0 false).expected ∧ (peg1 0 2 1 false 0 false).arrivals + 1 = (peg1 0 2 1 false 0 false).expected ∧
    waiters (pegged (peg1 1 0 0 false 65534 false)) 0 4095 = [] ∧ (peg1 1 0 0 false 65534 false).count < 65535 ∧ 1 ≤ (peg1 1 0 0 false 1 false).count ∧
    (peg1 1 0 0 false 0 false).count = 0 ∧ (peg1 2 0 0 false 0 false).flag = false ∧ (peg1 2 0 0 false 0 true).flag = true ∧ (peg1 0 2 2 true 0 false).opened = true ∧
    pegOf (pegged { peg1 1 0 0 false 1 false with region := 1 }) 0 0 0 4095 = none := by decide +kernel

/-- The frame with its copy ended, and an evidence record of it. -/
def ended1 : State := { held 2 with frames := [{ frame1 .ended .ended with main := { clusters := [0], phase := .ended, ev := some {} } }], evd := { queue := [fid] } }

/-- A record of 128 bytes with its check value. -/
def evid1 : List Byte := zeroBytes 124 ++ leBytes 4 (crc32c (zeroBytes 124)).toNat

set_option maxRecDepth 4000 in
theorem wit_ResultsAreJudged : let w : State := { held 2 with frames := [frame1 .ended .ended] }
    frameOf w fid = some (frame1 .ended .ended) ∧ copyOf (frame1 .ended .ended) false = some (frame1 .ended .ended).main ∧
    (frame1 .ended .ended).main.phase = .ended ∧ (frame1 .ended .ended).phase ≠ .queued ∧ (evParse evid1).map (·.attempt) = some (frame1 .ended .ended).attempt ∧
    (frame1 .ended .ended).main.ev = none ∧ evParse [] = none ∧ frameOf (held 2) fid = none ∧ ended1.evd.queue = fid :: [] ∧
    (frameOf ended1 fid).map (fun x => (x.phase, x.twin, x.twinGone, earlyVerdict x)) = some (.ended, none, false, none) := by decide +kernel

theorem wit_ResultsAreJudged_waits : let s (p : FramePhase) : State := { held 2 with frames := [frame1 p .running], time := { edges := 240000 } }
    frameOf (s .running) fid = some (frame1 .running .running) ∧ (frame1 .running .running).deadline + 100000 ≤ tbSafe (s .running) ∧
    (frame1 .running .running).main.ev = none ∧ frameOf (s .fencing) fid = some (frame1 .fencing .running) ∧
    dataLate { ended1 with time := { edges := 240000 } } 0 { clusters := [0], phase := .ended, ev := some {} } = true := by decide +kernel

theorem wit_IgnoredDoorbellsAreCounted : (0xC0000000 : Word).extractLsb' 30 2 = 3 ∧ (0x400 : Word).extractLsb' 10 20 ≠ 0 ∧
    256 ≤ ((0x100 : Word).extractLsb' 0 10).toNat ∧ ((0x1FF : Word).extractLsb' 0 10).toNat ≤ 511 ∧
    (0x40000200 : Word).extractLsb' 30 2 ≠ 0 ∧ (srcOf up 512).isLevel = false ∧
    (srcOf (modSrc 512 (fun x => { x with isLevel := true }) up) 512).isLevel = true := by decide +kernel

theorem wit_AChangeOfTypeClearsLevelAndPending : (512 : Nat) ≤ (512 : Fin 1024).val ∧ (0x10 : Word).getLsbD 4 ≠ (srcOf up 512).isLevel := by decide

theorem wit_AnEmptyBarrierIsOpen : (pegDeclared 0 0 0).map (fun p => (p.kind, p.expected)) = some (0, 0) ∧
    (pegOf (stepBegins 0 0 0 63 0 (pegged { peg1 0 5 0 false 0 false with ofStep := true })) 0 0 0 4095).map (·.ofStep) = some true ∧ 4095 / 64 = 63 ∧
    coreActs (pegged (peg1 0 0 0 true 0 false)) 0 0 = acts1 ∧ pegOf (pegged (peg1 0 0 0 true 0 false)) 0 0 0 4095 = some (peg1 0 0 0 true 0 false) := by decide +kernel

theorem wit_RoundingToNearestEven : 2 * (rneShift 1 1 * 2 ^ 1 - 1) = -(2 ^ 1) ∧ 2 * (rneShift 3 1 * 2 ^ 1 - 3) = 2 ^ 1 ∧
    (140737488355327 : Int) < 140737488355328 ∧ (-140737488355329 : Int) < -140737488355328 := by decide

theorem wit_PacketsGoTheShortWay : (0 : Fin 5) ≠ 1 ∧ pathUp (nodeView full 0) 0 1 true = true ∧
    pathUp (nodeView { full with ring := { up := 30 } } 0) 0 1 true = false ∧ pathUp (nodeView { full with ring := { up := 30 } } 0) 0 1 false = true := by decide +kernel

theorem wit_StampsAreExtended : ((2 : Int) ^ 34 + 5) % 2 ^ 34 = ((0 * 2 ^ 32 + 5 : Nat) : Int) ∧ -(2 ^ 33) < (2 : Int) ^ 34 + 5 - 2 ^ 34 ∧ (2 : Int) ^ 34 + 5 - 2 ^ 34 < 2 ^ 33 := by decide

/-- Safety rights of seat A need its seal. -/
theorem wit_ReleaseOfOkay : let r : State := { full with sio := { restricted := true } }
    serving full .b = true ∧ serving unsealed .a = true ∧ unsealed.sio.fault = true ∧ serving r .a = true ∧ sealRights r = false ∧ r.evd.safe = false ∧
    alarmOn r = false ∧ fencing r = false ∧ inMaintenance r = false ∧ full.sio.release = false ∧
    serving full .s = true ∧ HasSafetyRights (hdr .s) full ∧ ({ full with pair := { mode := 1 } } : State).pair.mode ≠ 0 ∧
    full.evd.safe = false ∧ full.pair.mode = 0 ∧ (∀ d, d ≤ 3 → (die full d).almT = false ∧ (die full d).almF = true) ∧ (∀ d, d ≤ 3 → (die full d).seq.isSome = false) := by
  unfold HasSafetyRights; decide +kernel

end Sys2Proof.Tests
end

section
/-! SUPPORT. Proofs/NumberFormats.lean: rounding to the nearest integer with ties to even, and the counted clamps (R53). -/

namespace Sys2Proof.Machine

/-! ### Rounding to the nearest, ties to even -/

/-- A right shift rounds as the division by the power of two does (R53, R69). -/
theorem rneShift_eq_rneDiv (x : Int) (n : Nat) : rneShift x n = rneDiv x (2 ^ n) := rfl

/-- The quotient that `rneDiv` answers, by where the remainder lies against half of the divisor. -/
theorem rneDiv_cases (a b : Int) :
    (2 * (a % b) < b ∧ rneDiv a b = a / b) ∨ (b < 2 * (a % b) ∧ rneDiv a b = a / b + 1) ∨
      (2 * (a % b) = b ∧ rneDiv a b = a / b + a / b % 2) := by
  simp only [rneDiv]
  split
  case isTrue hbelow => exact .inl ⟨hbelow, rfl⟩
  case isFalse hbelow =>
    split
    case isTrue habove => exact .inr (.inl ⟨habove, rfl⟩)
    case isFalse habove => exact .inr (.inr ⟨by omega, rfl⟩)

/-- Adding its own parity to an integer makes it even. -/
theorem add_parity_even (q : Int) : (q + q % 2) % 2 = 0 := by omega

/-- Twice the distance from the rounded quotient to the exact one, in units of `1 / b`: below, above and at the half. -/
theorem rneDiv_error_cases (a b : Int) :
    (2 * (a % b) < b ∧ 2 * (rneDiv a b * b - a) = -(2 * (a % b))) ∨
      (b < 2 * (a % b) ∧ 2 * (rneDiv a b * b - a) = 2 * b - 2 * (a % b)) ∨
      (rneDiv a b % 2 = 0 ∧ (2 * (rneDiv a b * b - a) = -b ∨ 2 * (rneDiv a b * b - a) = b)) := by
  have hdiv : a / b * b + a % b = a := Int.ediv_mul_add_emod a b
  obtain ⟨hr, hq⟩ | ⟨hr, hq⟩ | ⟨hr, hq⟩ := rneDiv_cases a b
  · refine .inl ⟨hr, ?_⟩
    rw [hq]
    omega
  · refine .inr (.inl ⟨hr, ?_⟩)
    rw [hq, Int.add_mul, Int.one_mul]
    omega
  · refine .inr (.inr ⟨hq ▸ add_parity_even (a / b), ?_⟩)
    rcases Int.emod_two_eq (a / b) with even | odd
    · rw [hq, even, Int.add_zero]
      omega
    · rw [hq, odd, Int.add_mul, Int.one_mul]
      omega

/-- `rneDiv` is nearest, and even at a tie, for every positive divisor. -/
theorem rneDiv_nearest_even (a : Int) {b : Int} (hb : 0 < b) :
    2 * (rneDiv a b * b - a) ≤ b ∧ -b ≤ 2 * (rneDiv a b * b - a) ∧
      (2 * (rneDiv a b * b - a) = b ∨ 2 * (rneDiv a b * b - a) = -b → rneDiv a b % 2 = 0) := by
  have hlow : 0 ≤ a % b := Int.emod_nonneg a (Int.ne_of_gt hb)
  have hhigh : a % b < b := Int.emod_lt_of_pos a hb
  obtain ⟨hr, he⟩ | ⟨hr, he⟩ | ⟨heven, he⟩ := rneDiv_error_cases a b <;> omega

/-! ### Clamps -/

theorem satTo_of_mem {lo hi x : Int} (hlo : lo ≤ x) (hhi : x ≤ hi) (k : Wk) : satTo lo hi x k = (x, k) := by
  rw [satTo, if_neg (Int.not_lt.mpr hlo), if_neg (Int.not_lt.mpr hhi)]

theorem satTo_of_lt {lo x : Int} (h : x < lo) (hi : Int) (k : Wk) : satTo lo hi x k = (lo, k.clamp) := by
  rw [satTo, if_pos h]

theorem satTo_of_gt {lo hi x : Int} (hle : lo ≤ hi) (h : hi < x) (k : Wk) : satTo lo hi x k = (hi, k.clamp) := by
  rw [satTo, if_neg (Int.not_lt.mpr (Int.le_trans hle (Int.le_of_lt h))), if_pos h]

/-- `sat48` clamps to the ends of S48 written out. -/
theorem sat48_eq_satTo (x : Int) (k : Wk) : sat48 x k = satTo (-140737488355328) 140737488355327 x k := rfl

/-- Settles O57: the remainder against half of the divisor decides the error of `rneShift`, and `sat48` has one case for each side
of the S48 range. -/
theorem roundingToNearestEven : Obligations.RoundingToNearestEven := by
  refine ⟨fun t n _ => ?_, fun x k => ⟨fun hlo hhi => ?_, fun h => ?_, fun h => ?_⟩⟩
  · rw [rneShift_eq_rneDiv]
    exact rneDiv_nearest_even t (Int.pow_pos (by decide))
  · rw [sat48_eq_satTo, satTo_of_mem hlo hhi]
  · rw [sat48_eq_satTo, satTo_of_lt h, Wk.clamp]
  · rw [sat48_eq_satTo, satTo_of_gt (by decide) h, Wk.clamp]

end Sys2Proof.Machine
end

section
/-! SUPPORT. Proofs/OpenBarriers.lean: what is found in a peg table after it was written, and barriers that expect no arrival (R117). -/

namespace Sys2Proof.Machine

/-! ### The first entry of a key -/

/-- The first entry of `k` in a table, as `pegOf` finds a peg: unlike `tblGet` it tells an absent entry from every present one. -/
def tblFind {α : Type} (t : Tbl α) (k : Nat) : Option α := (t.find? fun e => e.1 == k).map (·.2)

section
variable {α : Type}

theorem tblFind_cons (j k : Nat) (v : α) (r : Tbl α) : tblFind ((j, v) :: r) k = if j = k then some v else tblFind r k := by
  by_cases h : j = k <;> simp [tblFind, h]

theorem tblFind_put_same (t : Tbl α) (k : Nat) (x : α) : tblFind (tblPut t k x) k = some x := by
  fun_induction tblPut t k x with
  | case1 k x => simp [tblFind_cons]
  | case2 j v r k x hlt => simp [tblFind_cons]
  | case3 v r k x hlt => simp [tblFind_cons]
  | case4 j v r k x hlt hne ih => rw [tblFind_cons, if_neg (Ne.symm hne), ih]

theorem tblFind_put_other (t : Tbl α) (n k : Nat) (x : α) (h : k ≠ n) : tblFind (tblPut t n x) k = tblFind t k := by
  fun_induction tblPut t n x with
  | case1 n x => simp [tblFind_cons, h.symm]
  | case2 j v r n x hlt => rw [tblFind_cons, if_neg h.symm]
  | case3 v r n x hlt => simp [tblFind_cons, h.symm]
  | case4 j v r n x hlt hne ih => rw [tblFind_cons, tblFind_cons, ih h]

theorem mem_of_tblFind {t : Tbl α} {k : Nat} {x : α} (h : tblFind t k = some x) : (k, x) ∈ t := by
  obtain ⟨⟨j, v⟩, hfind, rfl⟩ := Option.map_eq_some_iff.mp h
  have hkey : j = k := by simpa using List.find?_some hfind
  exact hkey ▸ List.mem_of_find?_eq_some hfind

/-- An entry found after a list of writes is one of the writes, or no write was to its key and it stood there before. -/
theorem tblFind_foldl_put (f : α → α) (k : Nat) (x : α) (l t : Tbl α)
    (h : tblFind (l.foldl (fun t e => tblPut t e.1 (f e.2)) t) k = some x) :
    (∃ v, x = f v) ∨ ((∀ v, (k, v) ∉ l) ∧ tblFind t k = some x) := by
  induction l generalizing t with
  | nil => exact .inr ⟨fun v => List.not_mem_nil, h⟩
  | cons e r ih =>
    obtain ⟨j, w⟩ := e
    obtain hwritten | ⟨hr, hput⟩ := ih (tblPut t j (f w)) h
    · exact .inl hwritten
    · by_cases hj : k = j
      · subst hj
        rw [tblFind_put_same] at hput
        exact .inl ⟨w, (Option.some.inj hput).symm⟩
      · rw [tblFind_put_other _ _ _ _ hj] at hput
        exact .inr ⟨fun v => by simp [hj, hr v], hput⟩

end

/-- A peg of a region is what its key finds, where that is the region's. -/
theorem pegOf_eq_some_iff (s : State) (d n g peg : Nat) (p : Peg) :
    pegOf s d n g peg = some p ↔ tblFind (die s d).pegs peg = some p ∧ p.part = n ∧ p.region = g := by
  simp [pegOf, tblFind, Option.filter_eq_some_iff]

/-! ### A step begins -/

/-- A completion barrier at the start of a step of `total` slivers (R114, R117). -/
def stepBarrier (total : Nat) (p : Peg) : Peg := { p with expected := total, arrivals := 0, opened := total == 0 }

/-- The start of a step writes the completion barriers of the cluster into the die's pegs. -/
theorem pegs_stepBegins (d n g c total : Nat) (s : State) :
    (die (stepBegins d n g c total s) d).pegs =
      (stepPegs s d n g c).foldl (fun t e => tblPut t e.1 (stepBarrier total e.2)) (die s d).pegs :=
  (List.foldl_hom (fun s => (die s d).pegs) fun s e => by rw [die_modDie_same, stepBarrier]).symm

theorem mem_stepPegs (s : State) (d n g c peg : Nat) (p : Peg) :
    (peg, p) ∈ stepPegs s d n g c ↔ (peg, p) ∈ (die s d).pegs ∧ peg / 64 = c ∧ p.ofStep = true ∧ p.part = n ∧ p.region = g := by
  simp [stepPegs, and_assoc]

/-- After a step began, every completion barrier of the region on the cluster is at the step's start. -/
theorem stepBarrier_of_stepBegins (d n g c total peg : Nat) (p : Peg) (s : State)
    (hp : pegOf (stepBegins d n g c total s) d n g peg = some p) (hstep : p.ofStep = true) (hc : peg / 64 = c) :
    ∃ q, p = stepBarrier total q := by
  obtain ⟨hfind, hpart, hregion⟩ := (pegOf_eq_some_iff ..).mp hp
  rw [pegs_stepBegins] at hfind
  obtain hwritten | ⟨hnone, hold⟩ := tblFind_foldl_put (stepBarrier total) peg p _ _ hfind
  · exact hwritten
  · exact absurd ((mem_stepPegs ..).mpr ⟨mem_of_tblFind hold, hc, hstep, hpart, hregion⟩) (hnone p)

/-! ### Declared barriers -/

/-- A declared peg is open exactly where it is a BARRIER that expects no arrival. -/
theorem opened_of_pegDeclared (v n g : Nat) (p : Peg) (h : pegDeclared v n g = some p) :
    p.opened = (p.kind == 0 && p.expected == 0) := by
  obtain ⟨-, hp⟩ := Option.ite_none_left_eq_some.mp h
  rw [← Option.some.inj hp]

/-! ### An operation on a peg -/

/-- What an operation that replaces a peg does to the die: its entry, and the cluster's count of operations (R476). -/
theorem die_pegSetTo (d peg : Nat) (p : Peg) (s : State) :
    die (pegSetTo d peg p s) d =
      { die s d with pegs := tblPut (die s d).pegs peg p, live := countUp (die s d).live (0x2000 + 0x20 * (peg / 64) + 0x0C) 1 } := by
  rw [pegSetTo, clusterCount, dieCount, die_modDie_same, die_modDie_same]

theorem pegOf_pegSetTo_same (d peg : Nat) (p : Peg) (s : State) : pegOf (pegSetTo d peg p s) d p.part p.region peg = some p := by
  rw [pegOf_eq_some_iff, die_pegSetTo]
  exact ⟨tblFind_put_same .., rfl, rfl⟩

/-- A WAIT on an open barrier goes on at once (R116). -/
theorem execPegWait_open (d : Fin 4) (core peg : Nat) (f : Frame) (tw : Bool) (c : Copy) (p : Peg) (s : State)
    (hcore : coreActs s d core = some (f, tw, c)) (hp : pegOf s d f.id.part c.region peg = some p) (hkind : p.kind = 0)
    (hopen : p.opened = true) : execPegWait d core peg s = .next (pegSetTo d peg p s) := by
  rw [execPegWait, pegOp_eq _ _ _ _ _ _ _ _ _ hcore hp]
  simp [hkind, hopen]

/-- Settles O56: a declared barrier and a step's completion barrier that expect no arrival stand open from the start, and a WAIT
on such a peg only replaces it by itself. -/
theorem anEmptyBarrierIsOpen : Obligations.AnEmptyBarrierIsOpen := by
  refine ⟨fun n g i code => rfl, ?declared, ?stepBegins, ?wait⟩
  case declared =>
    intro v n g p hp hkind hexp
    simp [opened_of_pegDeclared v n g p hp, hkind, hexp]
  case stepBegins =>
    intro d n g c peg p s hp hstep hc
    obtain ⟨q, rfl⟩ := stepBarrier_of_stepBegins d n g c 0 peg p s hp hstep hc
    exact ⟨rfl, rfl⟩
  case wait =>
    intro d core peg f tw c p s hcore hp hkind hopen
    obtain ⟨-, hpart, hregion⟩ := (pegOf_eq_some_iff ..).mp hp
    refine ⟨pegSetTo d peg p s, execPegWait_open d core peg f tw c p s hcore hp hkind hopen, ?_⟩
    rw [die_pegSetTo, ← hpart, ← hregion]
    exact ⟨rfl, rfl, rfl, rfl, pegOf_pegSetTo_same d peg p s⟩

end Sys2Proof.Machine
end

section
/-! SUPPORT. Proofs/RingDirections.lean: the way that a packet takes round the ring, and the length of each way (R135). -/

namespace Sys2Proof.Machine

/-! ### The number of links on a way -/

/-- The way east has one link for each hop of (destination − source) mod 5. -/
theorem length_pathLinks_east (src dst : Nat) : (pathLinks src dst true).length = (dst + 5 - src) % 5 := by
  rw [pathLinks, if_pos rfl, List.length_map, List.length_range]

/-- The way west has one link for each hop of (source − destination) mod 5. -/
theorem length_pathLinks_west (src dst : Nat) : (pathLinks src dst false).length = (src + 5 - dst) % 5 := by
  rw [pathLinks, if_neg Bool.false_ne_true, List.length_map, List.length_range]

theorem length_pathLinks_le (src dst : Nat) (east : Bool) : (pathLinks src dst east).length ≤ 4 := by
  cases east with
  | true =>
    rw [length_pathLinks_east]
    omega
  | false =>
    rw [length_pathLinks_west]
    omega

/-- The two ways between different nodes go once round the ring together. -/
theorem length_pathLinks_add (src dst : Fin 5) (h : src ≠ dst) :
    (pathLinks src dst true).length + (pathLinks src dst false).length = 5 := by
  rw [length_pathLinks_east, length_pathLinks_west]
  have hne : src.val ≠ dst.val := Fin.val_ne_of_ne h
  omega

/-! ### The choice of a way -/

/-- Whether R135 sends a packet east while no way is known to be broken. -/
def eastIsShort (src dst : Nat) : Bool := decide ((dst + 5 - src) % 5 = 1 ∨ (dst + 5 - src) % 5 = 2)

theorem goesEast_eq (up src dst : Nat) :
    goesEast up src dst =
      if pathUp up src dst (eastIsShort src dst) then eastIsShort src dst
      else if pathUp up src dst (!eastIsShort src dst) then !eastIsShort src dst else eastIsShort src dst := by
  have hshort : eastIsShort src dst = ((dst + 5 - src) % 5 == 1 || (dst + 5 - src) % 5 == 2) := Bool.decide_or ..
  rw [goesEast, hshort]

/-- A packet takes the short way where that is not known to be broken. -/
theorem goesEast_of_short_up {up src dst : Nat} (h : pathUp up src dst (eastIsShort src dst) = true) :
    goesEast up src dst = eastIsShort src dst := by
  rw [goesEast_eq, if_pos h]

/-- A packet takes the other way where only the short one is known to be broken. -/
theorem goesEast_of_short_broken {up src dst : Nat} (hshort : pathUp up src dst (eastIsShort src dst) = false)
    (hother : pathUp up src dst (!eastIsShort src dst) = true) : goesEast up src dst = !eastIsShort src dst := by
  rw [goesEast_eq, if_neg (Bool.eq_false_iff.mp hshort), if_pos hother]

/-! ### A packet that a node injects -/

/-- An injected packet is forwarded with its source, its destination and the way that the node's view of the links gives, after the
packet's SEQ was counted. -/
theorem inject_eq_forwardPacket (node dst vc type addr : Nat) (data : List Byte) (s : State) :
    ∃ (p : Packet) (u : State), inject node dst vc type addr data s = forwardPacket node p none u ∧ p.dst = dst ∧ p.src = node ∧
      p.west = !goesEast (nodeView s node) node dst :=
  ⟨_, _, rfl, rfl, rfl, rfl⟩

/-- Settles O58: the packet that `inject` forwards goes where `goesEast` says, in each case of what the source knows of the short way,
and the lengths of the two ways are remainders modulo 5 that sum to the ring. -/
theorem packetsGoTheShortWay : Obligations.PacketsGoTheShortWay := by
  intro src dst vc type addr data s hne
  obtain ⟨p, u, hforward, hdst, hsrc, hwest⟩ := inject_eq_forwardPacket src dst vc type addr data s
  refine ⟨p, u, hforward, hdst, hsrc, ⟨fun hup => ?shortUp, fun hbroken hother => ?shortBroken⟩,
    length_pathLinks_le .., length_pathLinks_le .., length_pathLinks_add src dst hne⟩
  case shortUp => rw [hwest, goesEast_of_short_up hup, eastIsShort]
  case shortBroken => rw [hwest, goesEast_of_short_broken hbroken hother, Bool.not_not, eastIsShort]

end Sys2Proof.Machine
end

section
/-! SUPPORT. Proofs/InterruptSources.lean: what a settled change of the interrupt sources keeps, a write of ICU_SRC_CFG (R346), and the
doorbells that the controller ignores (R329). -/

namespace Sys2Proof.Machine

/-! ### Fields of a word -/

theorem bitOf_toNat {w : Nat} (v : BitVec w) (i : Nat) : bitOf v.toNat i = v.getLsbD i :=
  Nat.testBit_eq_decide_div_mod_eq.symm

theorem fld_toNat {w : Nat} (v : BitVec w) (hi lo : Nat) : fld v.toNat hi lo = (v.extractLsb' lo (hi + 1 - lo)).toNat := by
  rw [fld, BitVec.extractLsb'_toNat, Nat.shiftRight_eq_div_pow]

/-! ### What a change of the sources keeps

The selection that follows a change moves what is presented, bound and awake; the sources themselves and the stacks of the targets are
the change's own. -/

/-- The sources and the running-priority stacks of both targets. -/
abbrev srcsAndStacks (s : State) : Tbl Src × List (Nat × Nat) × List (Nat × Nat) := (s.icu.srcs, s.icu.stack0, s.icu.stack1)

theorem srcsAndStacks_icuWakeOne (n : Nat) (s : State) : srcsAndStacks (icuWakeOne n s) = srcsAndStacks s := by
  unfold icuWakeOne
  (repeat' split) <;> rfl

theorem srcsAndStacks_icuSelect (checker : Bool) (s : State) : srcsAndStacks (icuSelect checker s) = srcsAndStacks s := by
  unfold icuSelect setPres
  (repeat' split) <;> rfl

theorem icu_releaseDie_of_nap (d : Nat) (s : State) : (if (die s d).st = 7 then releaseDie d s else s).icu = s.icu := by
  split <;> rfl

theorem icu_beginNapExit (h : Option Hdr) (s : State) : (beginNapExit h s).icu = s.icu := by
  simp only [beginNapExit, eachDie, icu_releaseDie_of_nap]

/-- The part of `icuSettle` that follows the selections: a member of the wake set ends NAP, or asks for its end (R465, R468). -/
theorem icu_wakeFromNap (s : State) :
    (if s.pwr.state = 2 && !s.pwr.waking && wakeMember s then beginNapExit none s
      else if s.pwr.napping.isSome && wakeMember s then { s with pwr := { s.pwr with wakePend := true } } else s).icu = s.icu := by
  split
  · exact icu_beginNapExit none s
  · split <;> rfl

theorem srcsAndStacks_icuSettle (s : State) : srcsAndStacks (icuSettle s) = srcsAndStacks s := by
  have wakes (l : List Nat) (t : State) : srcsAndStacks (l.foldl (fun s n => icuWakeOne n s) t) = srcsAndStacks t :=
    foldl_keep srcsAndStacks _ l (fun s n => srcsAndStacks_icuWakeOne n s) t
  unfold icuSettle
  simp only [srcsAndStacks, icu_wakeFromNap]
  simp only [srcsAndStacks_icuSelect, wakes]

theorem srcsAndStacks_icuWithdraw (s : State) (checker : Bool) (s' : State) :
    srcsAndStacks (icuWithdraw s checker s') = srcsAndStacks s' := by
  unfold icuWithdraw setLate
  (repeat' split) <;> rfl

/-- A settled change leaves the sources and the stacks as the change itself does. -/
theorem srcsAndStacks_icuChange (f : State → State) (s : State) : srcsAndStacks (icuChange f s) = srcsAndStacks (f s) := by
  rw [icuChange, srcsAndStacks_icuSettle, srcsAndStacks_icuWithdraw, srcsAndStacks_icuWithdraw]

/-- A settled change of one source applies it to that source and to neither stack. -/
theorem srcOf_icuChange_modSrc (n : Nat) (f : Src → Src) (s : State) :
    srcOf (icuChange (modSrc n f) s) n = f (srcOf s n) ∧ (icuChange (modSrc n f) s).icu.stack0 = s.icu.stack0 ∧
      (icuChange (modSrc n f) s).icu.stack1 = s.icu.stack1 := by
  have hkept := srcsAndStacks_icuChange (modSrc n f) s
  simp only [srcsAndStacks, Prod.mk.injEq] at hkept
  obtain ⟨hsrcs, hstack0, hstack1⟩ := hkept
  refine ⟨?_, hstack0, hstack1⟩
  rw [srcOf, hsrcs]
  exact srcOf_modSrc_same n f s

/-! ### A write of ICU_SRC_CFG -/

/-- TYPE can be written on sources from 512 on. -/
theorem isLevel_srcCfg {n : Nat} (hn : 512 ≤ n) (v : Nat) (x : Src) : (srcCfg n v x).isLevel = bitOf v 4 := if_pos hn

/-- A written TYPE that differs from the old one clears LEVEL and PENDING. -/
theorem srcCfg_clears {n v : Nat} {x : Src} (h : (srcCfg n v x).isLevel ≠ x.isLevel) :
    (srcCfg n v x).level = false ∧ (srcCfg n v x).pend = false := by
  have hsame : ((srcCfg n v x).isLevel == x.isLevel) = false := beq_false_of_ne h
  have hlevel : (srcCfg n v x).level = (x.level && ((srcCfg n v x).isLevel == x.isLevel)) := rfl
  have hpend : (srcCfg n v x).pend = (x.pend && ((srcCfg n v x).isLevel == x.isLevel)) := rfl
  rw [hlevel, hpend, hsame, Bool.and_false, Bool.and_false]
  exact ⟨rfl, rfl⟩

/-- Settles O55: the write is a settled change of its one source, to which `srcCfg` gives the written TYPE. -/
theorem aChangeOfTypeClearsLevelAndPending : Obligations.AChangeOfTypeClearsLevelAndPending := by
  intro n v s hn hchange
  obtain ⟨hsrc, hstack0, hstack1⟩ := srcOf_icuChange_modSrc n (srcCfg n v.toNat) s
  have hlevel : (srcCfg n v.toNat (srcOf s n)).isLevel = v.getLsbD 4 := (isLevel_srcCfg hn ..).trans (bitOf_toNat v 4)
  refine ⟨icuChange (modSrc n (srcCfg n v.toNat)) s, rfl, ?_⟩
  rw [hsrc]
  obtain ⟨hclear, hpend⟩ := srcCfg_clears (hlevel ▸ hchange)
  exact ⟨hlevel, hclear, hpend, hstack0, hstack1⟩

/-! ### Ignored doorbells -/

/-- R329's first list: a doorbell of KIND 0b11, with a nonzero bit in [29:10], or of a source from 256 to 511. -/
abbrev BadDoorbell (v : Word) : Prop :=
  v.extractLsb' 30 2 = 3 ∨ v.extractLsb' 10 20 ≠ 0 ∨ 256 ≤ (v.extractLsb' 0 10).toNat ∧ (v.extractLsb' 0 10).toNat ≤ 511

theorem badDoorbell_iff (v : Word) :
    BadDoorbell v ↔ fld v.toNat 31 30 = 3 ∨ fld v.toNat 29 10 ≠ 0 ∨ 256 ≤ fld v.toNat 9 0 ∧ fld v.toNat 9 0 ≤ 511 := by
  simp only [BadDoorbell, fld_toNat, BitVec.toNat_eq, ne_eq]
  rfl

theorem icuDoorbell_of_bad {v : Word} (h : BadDoorbell v) (s : State) :
    icuDoorbell v s = { s with icu := { s.icu with bad := up8 s.icu.bad } } :=
  if_pos ((badDoorbell_iff v).mp h)

/-- A doorbell outside that list is counted in TYPE_MISMATCH where it is an event to a level source, or an assert or a deassert to an
event source. -/
theorem icuDoorbell_of_typeMismatch {v : Word} {s : State} (hgood : ¬BadDoorbell v)
    (hmismatch : v.extractLsb' 30 2 = 0 ↔ (srcOf s (v.extractLsb' 0 10).toNat).isLevel = true) :
    icuDoorbell v s = { s with icu := { s.icu with typeErr := up8 s.icu.typeErr } } := by
  have hcount : ((fld v.toNat 31 30 == 0) == (srcOf s (fld v.toNat 9 0)).isLevel) = true := by
    rw [beq_iff_eq, Bool.eq_iff_iff, beq_iff_eq, fld_toNat, fld_toNat]
    exact BitVec.toNat_eq.symm.trans hmismatch
  exact (if_neg (mt (badDoorbell_iff v).mpr hgood)).trans (if_pos hcount)

/-- Settles O54: each of R329's two lists takes its own branch of `icuDoorbell`, which counts and does nothing else. -/
theorem ignoredDoorbellsAreCounted : Obligations.IgnoredDoorbellsAreCounted := by
  refine fun v s => ⟨fun hbad => ?bad, fun hkind hreserved hsource hmismatch => ?typeMismatch⟩
  case bad => exact congrArg Host.Outcome.next (icuDoorbell_of_bad hbad s)
  case typeMismatch =>
    have hgood : ¬BadDoorbell v := by
      rintro (h | h | ⟨hlow, hhigh⟩)
      · exact hkind h
      · exact h hreserved
      · omega
    refine congrArg Host.Outcome.next (icuDoorbell_of_typeMismatch hgood ?_)
    obtain ⟨hevent, hlevel⟩ | ⟨hassert, hevent⟩ := hmismatch
    · exact iff_of_true hevent hlevel
    · exact iff_of_false hassert (Bool.eq_false_iff.mp hevent)

end Sys2Proof.Machine
end

section
/-! SUPPORT. Proofs/StampExtension.lean: the extension of a 34-bit stamp is the balanced remainder of its distance from the reference
(R381). -/

namespace Sys2Proof.Machine

/-- R381's "nearest instant to ref" is the library's balanced remainder modulo 2^34. -/
theorem extendStamp_sub_eq_bmod (ref : Int) (ns era : Nat) :
    extendStamp ref ns era - ref = (((era * 2 ^ 32 + ns : Nat) : Int) - ref).bmod (2 ^ 34) := by
  have hmodulus : ((2 ^ 34 : Nat) : Int) = 2 ^ 34 := rfl
  rw [extendStamp, Int.bmod_def, hmodulus]
  split <;> split <;> omega

/-- An extension names the instant of its stamp. -/
theorem extendStamp_congr (ref : Int) (ns era : Nat) :
    (extendStamp ref ns era - ((era * 2 ^ 32 + ns : Nat) : Int)) % 2 ^ 34 = 0 := by
  have hdistance : (extendStamp ref ns era - ref) % 2 ^ 34 = (((era * 2 ^ 32 + ns : Nat) : Int) - ref) % 2 ^ 34 := by
    rw [extendStamp_sub_eq_bmod]
    exact Int.bmod_emod
  omega

theorem neg_le_extendStamp_sub (ref : Int) (ns era : Nat) : -(2 ^ 33) ≤ extendStamp ref ns era - ref := by
  rw [extendStamp_sub_eq_bmod]
  exact Int.le_bmod (by decide)

theorem extendStamp_sub_lt (ref : Int) (ns era : Nat) : extendStamp ref ns era - ref < 2 ^ 33 := by
  rw [extendStamp_sub_eq_bmod]
  exact Int.bmod_lt (by decide)

/-- The stamp of an instant in the half-open range about the reference is extended to that instant. -/
theorem extendStamp_of_near {ref x : Int} {ns era : Nat} (hstamp : x % 2 ^ 34 = ((era * 2 ^ 32 + ns : Nat) : Int))
    (hlow : -(2 ^ 33) ≤ x - ref) (hhigh : x - ref < 2 ^ 33) : extendStamp ref ns era = x := by
  have hdistance : extendStamp ref ns era - ref = x - ref :=
    calc extendStamp ref ns era - ref
        = (x % 2 ^ 34 - ref).bmod (2 ^ 34) := by rw [extendStamp_sub_eq_bmod, hstamp]
      _ = (x - ref).bmod (2 ^ 34) := Int.emod_sub_bmod x (2 ^ 34)
      _ = x - ref := Int.bmod_eq_of_le hlow hhigh
  omega

/-- Settles O59: the balanced remainder is congruent to the distance, lies in the half-open range, and keeps what lies there. -/
theorem stampsAreExtended : Obligations.StampsAreExtended := fun ref ns era _ _ =>
  ⟨extendStamp_congr ref ns era, neg_le_extendStamp_sub ref ns era, extendStamp_sub_lt ref ns era,
    fun _ hstamp hlow hhigh => extendStamp_of_near hstamp (Int.le_of_lt hlow) hhigh⟩

end Sys2Proof.Machine
end

section
/-! SUPPORT. Proofs/OkayRelease.lean: what stands in the way of OKAY_RELEASE, and which of its reasons decides the status (R405, R275, R410). -/

namespace Sys2Proof.Machine

/-! ### What stands in the way of the release (R405) -/

/-- Something on some die of the device, as the model's searches over the dies find it. -/
theorem anyDie_iff (p : Nat → Bool) : [0, 1, 2, 3].any p = true ↔ ∃ d, d ≤ 3 ∧ p d = true := by
  have hdies (d : Nat) : d ∈ [0, 1, 2, 3] ↔ d ≤ 3 := by
    simp only [List.mem_cons, List.not_mem_nil, or_false]
    omega
  simp only [List.any_eq_true, hdies]

theorem alarmCode_iff (x : Die) : alarmCode x = true ↔ ¬(x.almT = false ∧ x.almF = true) := by
  rw [alarmCode, Bool.not_eq_true', ← Bool.not_eq_true, Bool.and_eq_true, Bool.not_eq_true']

theorem alarmHeard_iff (x : Die) : alarmHeard x = true ↔ x.st ≠ 5 ∧ x.st ≠ 6 ∧ x.inReset = false ∧ x.st ≠ 7 := by
  simp only [alarmHeard, Bool.and_eq_true, Bool.not_eq_true', beq_eq_false_iff_ne]
  exact ⟨fun ⟨⟨⟨hreset, habsent⟩, hfailed⟩, hnap⟩ => ⟨hfailed, habsent, hreset, hnap⟩,
    fun ⟨hfailed, habsent, hreset, hnap⟩ => ⟨⟨⟨hreset, habsent⟩, hfailed⟩, hnap⟩⟩

theorem alarmOn_iff (s : State) : alarmOn s = true ↔
    ∃ d, d ≤ 3 ∧ ¬((die s d).almT = false ∧ (die s d).almF = true) ∧ (die s d).st ≠ 5 ∧ (die s d).st ≠ 6 ∧ (die s d).inReset = false ∧
      (die s d).st ≠ 7 := by
  simp only [alarmOn, anyDie_iff, Bool.and_eq_true, alarmCode_iff, alarmHeard_iff, and_comm (b := ¬_)]

theorem fencing_iff (s : State) : fencing s = true ↔ ∃ d, d ≤ 3 ∧ (die s d).seq.isSome = true := anyDie_iff _

theorem inMaintenance_iff (s : State) : inMaintenance s = true ↔ s.pair.mode ≠ 0 := by simp [inMaintenance]

/-- One of R405's four cases stands. -/
def releaseBlocked (s : State) : Bool := s.evd.safe || alarmOn s || fencing s || inMaintenance s

theorem releaseBlocked_iff (s : State) : releaseBlocked s = true ↔ s.evd.safe = true ∨
    (∃ d, d ≤ 3 ∧ ¬((die s d).almT = false ∧ (die s d).almF = true) ∧ (die s d).st ≠ 5 ∧ (die s d).st ≠ 6 ∧ (die s d).inReset = false ∧
      (die s d).st ≠ 7) ∨
    (∃ d, d ≤ 3 ∧ (die s d).seq.isSome = true) ∨ s.pair.mode ≠ 0 := by
  simp only [releaseBlocked, Bool.or_eq_true, or_assoc, alarmOn_iff, fencing_iff, inMaintenance_iff]

/-! ### What OKAY_RELEASE answers -/

/-- The status with which OKAY_RELEASE completes: the lowest of R275's, R410's and R405's that stands (R19). -/
def releaseStatus (h : Hdr) (s : State) : Nat := lowest (safetyRights s h ++ [(releaseBlocked s, eState)])

/-- The lowest code of these four reasons: E_RIGHTS is below E_STATE, and E_STATE below E_SEAL. -/
theorem lowest_releaseReasons (right sealed fault blocked : Bool) :
    lowest [(right, eRights), (sealed, eSeal), (fault, eSeal), (blocked, eState)] =
      if right then eRights else if blocked then eState else if fault || sealed then eSeal else stOk := by
  revert right sealed fault blocked
  decide

/-- Of these reasons, a seat without the right comes first, then R405's cases, then the seal. -/
theorem releaseStatus_eq (h : Hdr) (s : State) : releaseStatus h s =
    if h.seat = .b ∨ h.seat = .n then eRights
    else if releaseBlocked s then eState
    else if s.sio.fault = true ∨ (h.seat = .a ∧ sealRights s = false) then eSeal
    else stOk := by
  simp only [releaseStatus, safetyRights, List.cons_append, List.nil_append, lowest_releaseReasons, Bool.or_eq_true,
    Bool.and_eq_true, beq_iff_eq, Bool.not_eq_true']

theorem releaseStatus_accept (h : Hdr) (s : State) : releaseStatus h (accept h s) = releaseStatus h s := by
  simp [releaseStatus_eq, releaseBlocked, alarmOn, fencing, inMaintenance, sealRights, sealNow]

/-- RELEASE_PENDING is cleared. -/
def releaseCleared (s : State) : State := { s with sio := { s.sio with release := false } }

theorem releaseCleared_of_clear {s : State} (hclear : s.sio.release = false) : releaseCleared s = s := by
  rw [releaseCleared, ← hclear]

theorem exec_okayRelease {h : Hdr} {s : State} (hs : serving s h.seat = true) :
    exec (.okayRelease h) s = .next (finish h (releaseStatus h s) releaseCleared (accept h s)) :=
  calc exec (.okayRelease h) s
      = command h (fun s => finish h (releaseStatus h s) releaseCleared s) s := rfl
    _ = .next (finish h (releaseStatus h s) releaseCleared (accept h s)) := by rw [command_taken h _ s hs, releaseStatus_accept]

theorem okayRelease_refused {h : Hdr} {s : State} {status : Nat} (hs : serving s h.seat = true) (hstatus : releaseStatus h s = status)
    (hrefused : status ≠ stOk) : Answers (.okayRelease h) s (complete h status (accept h s)) := by
  rw [Answers, exec_okayRelease hs, hstatus, finish_refused _ _ _ _ hrefused]

theorem okayRelease_done {h : Hdr} {s : State} (hs : serving s h.seat = true) (hstatus : releaseStatus h s = stOk) :
    Answers (.okayRelease h) s (complete h 0 { accept h s with sio := { s.sio with release := false } }) := by
  rw [Answers, exec_okayRelease hs, hstatus, finish_ok, releaseCleared, accept_sio, stOk]

/-- Safety rights leave R405's cases alone to decide (R275, R410). -/
theorem releaseStatus_of_rights {h : Hdr} {s : State} (hrights : HasSafetyRights h s) :
    releaseStatus h s = if releaseBlocked s then eState else stOk := by
  obtain ⟨hseat, hfault⟩ := hrights
  rw [releaseStatus_eq]
  obtain hs | ⟨ha, hseal⟩ := hseat
  · simp [hs, hfault]
  · simp [ha, hseal, hfault]

/-- Settles O60: each clause names the first reason that stands in the order of `releaseStatus_eq`. -/
theorem releaseOfOkay : Obligations.ReleaseOfOkay := by
  intro h s hs
  refine ⟨fun hseat => ?noRight, fun hseat hseal hsafe halarm hfence hmode => ?sealed, releaseCleared_of_clear,
    fun hrights => ⟨fun hblocked => ?blocked, fun hfree => ?free⟩⟩
  case noRight =>
    exact okayRelease_refused hs (by rw [releaseStatus_eq, if_pos hseat, eRights]) (by decide)
  case sealed =>
    have hright : ¬(h.seat = .b ∨ h.seat = .n) := by rcases hseat with hseat | hseat <;> simp [hseat]
    have hfree : ¬releaseBlocked s = true := by simp [releaseBlocked, hsafe, halarm, hfence, hmode]
    exact okayRelease_refused hs (by rw [releaseStatus_eq, if_neg hright, if_neg hfree, if_pos hseal, eSeal]) (by decide)
  case blocked =>
    exact okayRelease_refused hs (by rw [releaseStatus_of_rights hrights, if_pos ((releaseBlocked_iff s).mpr hblocked), eState])
      (by decide)
  case free =>
    exact okayRelease_done hs (by rw [releaseStatus_of_rights hrights, if_neg (mt (releaseBlocked_iff s).mp hfree)])

end Sys2Proof.Machine
end

section
/-! SUPPORT. Proofs/Steps.lean: which command a step takes, and what every command and every step keeps. -/

namespace Sys2Proof.Machine

/-! ### What one step runs -/

theorem step_of_front {s : State} {c : Instr} {rest : List Instr} (hqueue : s.pending = c :: rest) :
    step s = exec c { s with pending := rest } := by
  rw [step, hqueue]

theorem step_of_empty {s : State} (hqueue : s.pending = []) : step s = .next (idle s) := by
  rw [step, hqueue]

/-- Settles O1: the front command is the one that `step` matches on. -/
theorem stepTakesFrontCommand : Obligations.StepTakesFrontCommand := fun _ _ _ hqueue => step_of_front hqueue

/-! ### What every command and every step carries on -/

theorem carries_of_answers {c : Instr} {s t : State} (h : Answers c s t) : Carries (kept s) (kept t) := by
  have hexec : Carries (kept s) (kept (stateOf (exec c s) s)) := carries_exec c s (.refl _)
  rwa [h] at hexec

/-- A step may take a command from the queue, and carries on everything else of the kept part. -/
theorem carries_of_steps {s t : State} (h : Steps s t) : ∃ rest, Carries (rest, (kept s).2) (kept t) := by
  unfold Steps at h
  cases hqueue : s.pending with
  | nil =>
    rw [step_of_empty hqueue] at h
    cases h
    exact ⟨s.pending, carries_idle s (.refl _)⟩
  | cons c rest =>
    rw [step_of_front hqueue] at h
    exact ⟨rest, carries_of_answers h⟩

/-- Settles O4: the queue is the part of the state that every command carries on unchanged. -/
theorem queueBelongsToTheStep : Obligations.QueueBelongsToTheStep := by
  intro c s t h
  obtain ⟨hqueue, -, -⟩ := carries_of_answers h
  exact hqueue

/-- Settles O5: a set lock is carried on by the command that the step takes, or by the edge that it lets pass. -/
theorem identityStaysLocked : Obligations.IdentityStaysLocked := by
  intro s t hlocked h
  obtain ⟨_, -, hlock, -⟩ := carries_of_steps h
  exact hlock hlocked

/-- Settles O6: so are legal modes and the canonical form of the retention RAM. -/
theorem legalStaysLegal : Obligations.LegalStaysLegal := by
  intro s t hlegal h
  obtain ⟨_, -, -, hmodes⟩ := carries_of_steps h
  exact hmodes hlegal

/-- Settles O7: the reset state is a literal, whose tables are empty. -/
theorem resetIsLegal : Obligations.ResetIsLegal := by
  refine ⟨⟨by decide, by decide, State.reset_ram_wf⟩, rfl, fun _ => rfl, rfl, fun b _ _ => ?bases, rfl, fun _ => rfl, fun _ => rfl⟩
  case bases =>
    unfold baseOf
    (repeat' split) <;> rfl

end Sys2Proof.Machine
end

section
/-! SUPPORT. Proofs/IdleEdge.lean: the parts of the edge that passes on an empty queue, each where it does nothing, and the write gate with
one write (R287, R308, R341, R377, R401). -/

namespace Sys2Proof.Machine

/-! ### The parts of an idle edge that do nothing -/

/-- The edge is not the middle of an OKAY period of toggling outputs (R401). -/
abbrev NoOkayHalf (s : State) : Prop := s.sio.toggling = false ∨ (s.time.edges + 1) % okayPeriod s ≠ okayPeriod s / 2

theorem okayHalf_tick {s : State} (h : NoOkayHalf s) : okayHalf (tick s) = tick s := by
  refine if_neg ?_
  rw [Bool.and_eq_true, beq_iff_eq]
  exact fun ⟨htoggling, hmiddle⟩ => h.elim (fun hoff => Bool.false_ne_true (hoff.symm.trans htoggling)) (· hmiddle)

theorem gatePass_empty (k : Nat) {s : State} (h : s.pair.gate = []) : gatePass k s = s := by
  cases k with
  | zero => rfl
  | succ k => rw [gatePass, h]

theorem gatePass_held (k : Nat) {s : State} {e a : Nat} {v : Word} {r : List (Nat × Nat × Word)} (h : s.pair.gate = (e, a, v) :: r)
    (hlate : s.time.edges < e) : gatePass k s = s := by
  cases k with
  | zero => rfl
  | succ k => simp [gatePass, h, Nat.not_le.mpr hlate]

theorem gatePass_due (k : Nat) {s : State} {e a : Nat} {v : Word} {r : List (Nat × Nat × Word)} (h : s.pair.gate = (e, a, v) :: r)
    (hdue : e ≤ s.time.edges) :
    gatePass (k + 1) s = gatePass k (regWrite .int a v.toNat { s with pair := { s.pair with gate := r } }) := by
  simp [gatePass, h, hdue]

theorem arbiterSteps_idle (k : Nat) {s : State} (hs : s.seats.sWait = none) (hn : s.seats.nWait = []) : arbiterSteps k s = s := by
  cases k with
  | zero => rfl
  | succ k =>
    rw [arbiterSteps, hs, hn]
    split <;> simp_all

theorem arbiterRuns_idle {s : State} (hs : s.seats.sWait = none) (hn : s.seats.nWait = []) : arbiterRuns s = s :=
  arbiterSteps_idle _ hs hn

theorem coreGates_running (checker : Bool) {s : State} (hpower : s.pwr.state ≠ 1) (hsplit : splitNow s = false) :
    coreGates checker s = s := by
  simp [coreGates, hpower, hsplit]

/-! ### A base at an edge -/

theorem baseEdge_frame (up : Bool) (b : Base) : baseEdge up b = { b with count := (baseEdge up b).count, frac := (baseEdge up b).frac } := rfl

theorem baseOf_tick (s : State) (b : Nat) : ∃ up, baseOf (tick s) b = baseEdge up (baseOf s b) := by
  unfold baseOf
  by_cases h1 : b = 1
  · exact ⟨_, by rw [if_pos h1, if_pos h1]; rfl⟩
  · by_cases h2 : b = 2
    · exact ⟨_, by rw [if_neg h1, if_neg h1, if_pos h2, if_pos h2]; rfl⟩
    · exact ⟨_, by rw [if_neg h1, if_neg h1, if_neg h2, if_neg h2]; rfl⟩

/-! ### The edge -/

theorem steps_idle {s t : State} (hqueue : s.pending = []) (h : idle s = t) : Steps s t := by
  rw [Steps, step_of_empty hqueue, h]

/-- Nothing is due: only the clock moves. -/
theorem idle_eq_tick {s : State} (hokay : NoOkayHalf s) (hs : s.seats.sWait = none) (hn : s.seats.nWait = [])
    (hpower : s.pwr.state ≠ 1) (hsplit : splitNow s = false)
    (hgate : s.pair.gate = [] ∨ ∃ e a v r, s.pair.gate = (e, a, v) :: r ∧ s.time.edges + 1 < e) : idle s = tick s := by
  have hpass : gatePass s.pair.gate.length (tick s) = tick s := by
    obtain hempty | ⟨e, a, v, r, hheld, hlate⟩ := hgate
    · exact gatePass_empty _ hempty
    · exact gatePass_held _ hheld hlate
  rw [idle, okayHalf_tick hokay, hpass, arbiterRuns_idle (s := tick s) hs hn, coreGates_running false (s := tick s) hpower hsplit,
    coreGates_running true (s := tick s) hpower hsplit]

theorem tick_frame (s : State) :
    tick s = { s with free := (tick s).free, time := { s.time with
      edges := (tick s).time.edges, na := (tick s).time.na, nb := (tick s).time.nb, app := (tick s).time.app } } := rfl

/-- The only write that waits is due: it is done, and nothing else waits in the gate that it found empty. -/
theorem gatePass_single {s : State} {e a : Nat} {v : Word} (hgate : s.pair.gate = [(e, a, v)]) (hdue : e ≤ s.time.edges + 1) :
    gatePass s.pair.gate.length (tick s) = regWrite .int a v.toNat { tick s with pair := { s.pair with gate := [] } } := by
  have hlength : s.pair.gate.length = 0 + 1 := by rw [hgate]; rfl
  rw [hlength, gatePass_due 0 (s := tick s) hgate hdue]
  rfl

/-- Settles O2: with nothing due the edge is a `tick`, and a single write that is due leaves the gate as it goes through. -/
theorem emptyQueueLetsOneEdgePass : Obligations.EmptyQueueLetsOneEdgePass := by
  intro s hqueue hokay
  refine ⟨fun hs hn hpower hsplit hgate => ?nothingDue, fun e a v hgate hdue => ?writeDue⟩
  case nothingDue =>
    refine ⟨tick s, steps_idle hqueue (idle_eq_tick hokay hs hn hpower hsplit hgate), rfl, rfl, tick_frame s, fun b _ _ => ?_⟩
    obtain ⟨up, hbase⟩ := baseOf_tick s b
    rw [hbase]
    exact baseEdge_frame up (baseOf s b)
  case writeDue =>
    refine steps_idle hqueue ?_
    rw [idle, okayHalf_tick hokay, gatePass_single hgate hdue]

end Sys2Proof.Machine
end

section
/-! SUPPORT. Proofs/Resets.lean: what a reset of the device leaves in the lock, the modes and the retention RAM (R468, R471, R473). -/

namespace Sys2Proof.Machine

/-- What a reset makes of the kept part: the queue stays, the lock is set, the modes are the first ones, and power-on alone clears
the retention RAM. -/
theorem kept_pinsRead (code : Nat) (b : Balls) (s : State) :
    kept (pinsRead code b s) = (s.pending, true, 0, 0, if code = 0 then [] else s.pwr.ram) := by
  have hcut : kept (storeCut (outputsOff s)) = kept s := by simp
  have hreset : kept { afterReset code s with upd := { (afterReset code s).upd with
      locked := true, aesSlot := Config.deviceKey, shakeSlot := Config.attestKey } } =
      (s.pending, true, 0, 0, if code = 0 then [] else s.pwr.ram) := by
    simp only [kept, Prod.mk.injEq] at hcut
    obtain ⟨hqueue, -, -, -, hram⟩ := hcut
    simp only [kept, afterReset, hqueue, hram]
  simp [pinsRead, hreset]

theorem kept_bringUp (code : Nat) (b : Balls) (s : State) :
    kept (bringUp code b s) = (s.pending, true, 0, 0, if code = 0 then [] else s.pwr.ram) := by
  rw [← kept_pinsRead code b s]
  simp [bringUp]

/-- Settles O26: power-on and a long RESET_n bring the device up with their codes of reset. -/
theorem aResetKeepsTheAttic : Obligations.AResetKeepsTheAttic := by
  refine fun balls s => ⟨⟨bringUp 0 balls s, rfl, ?powerOn⟩, fun lowNs hlow => ⟨bringUp 1 balls s, ?long, ?resetN⟩⟩
  case powerOn =>
    have h := kept_bringUp 0 balls s
    simp only [kept, Prod.mk.injEq] at h
    obtain ⟨-, hlocked, -, hstate, hram⟩ := h
    exact ⟨hlocked, hram, hstate⟩
  case long =>
    have hshort : ¬lowNs < 1000 := by omega
    rw [Answers, exec, execResetN, if_neg hshort, if_pos hlow]
  case resetN =>
    have h := kept_bringUp 1 balls s
    simp only [kept, Prod.mk.injEq] at h
    obtain ⟨-, hlocked, -, hstate, hram⟩ := h
    exact ⟨hlocked, hram, hstate⟩

end Sys2Proof.Machine
end

section
/-! SUPPORT. Proofs/CellarWrites.lean: what a WRITE packet stores in a cellar, and what a clean scrub of a block does (R46, R138, R158). -/

namespace Sys2Proof.Machine

/-! ### A WRITE through a window -/

/-- A WRITE has passed one of the die's windows: its bytes are stored, and a window that it filled is closed. -/
def packetStored (d src a : Nat) (data : List Byte) (s : State) : State :=
  modDie d (closeOnce src (a + data.length)) (cellarWrite d a data s)

theorem die_cellarWrite (d a : Nat) (b : List Byte) (s : State) :
    die (cellarWrite d a b s) d =
      { die s d with
        cellar := memWrite (die s d).cellar a b
        wrCarry := ((die s d).wrCarry + b.length) % 4096
        poison := (die s d).poison.filter fun w => decide (8 * w + 8 ≤ a) || decide (a + b.length ≤ 8 * w)
        live := countUp (die s d).live 0x1014 (((die s d).wrCarry + b.length) / 4096) } := by
  rw [cellarWrite, dieCount, die_modDie_same, die_modDie_same]

theorem cellar_packetStored (d src a : Nat) (data : List Byte) (s : State) :
    (die (packetStored d src a data s) d).cellar = memWrite (die s d).cellar a data := by
  rw [packetStored, die_modDie_same, die_cellarWrite]
  rfl

theorem mem_poison_packetStored (d src a : Nat) (data : List Byte) (s : State) (w : Nat) :
    w ∈ (die (packetStored d src a data s) d).poison ↔
      w ∈ (die s d).poison ∧ (8 * w + 8 ≤ a ∨ a + data.length ≤ 8 * w) := by
  have hpoison : (die (packetStored d src a data s) d).poison =
      (die s d).poison.filter fun w => decide (8 * w + 8 ≤ a) || decide (a + data.length ≤ 8 * w) := by
    rw [packetStored, die_modDie_same, die_cellarWrite]
    rfl
  simp [hpoison, List.mem_filter]

theorem die_packetStored_other (d src a : Nat) (data : List Byte) (s : State) {k : Nat} (h : k ≠ d) :
    die (packetStored d src a data s) k = die s k := by
  rw [packetStored, die_modDie_other d k _ _ h, cellarWrite, dieCount, die_modDie_other d k _ _ h, die_modDie_other d k _ _ h]

/-- Settles O49: a WRITE in a window is `packetStored`, whose bytes are those of `memWrite`. -/
theorem cellarsAreWrittenThroughWindows : Obligations.CellarsAreWrittenThroughWindows := by
  intro d src addr data s hreset
  refine ⟨fun hwindow => ⟨packetStored d src (64 * addr) data s, ?stores, fun i hi => ?inside, fun a ha => ?outside,
    fun w => mem_poison_packetStored .., fun k hk => die_packetStored_other d src _ data s hk⟩, fun hwindow => ?alarm, fun block => ?scrub⟩
  case stores =>
    rw [Answers, exec, execWritePacket, if_neg (Bool.eq_false_iff.mp hreset), if_pos hwindow]
    rfl
  case inside => rw [cellar_packetStored, memGet_write_inside _ _ _ _ hi]
  case outside => rw [cellar_packetStored, memGet_write_outside _ _ _ _ ha]
  case alarm =>
    rw [Answers, exec, execWritePacket, if_neg (Bool.eq_false_iff.mp hreset), if_neg (Bool.eq_false_iff.mp hwindow)]
  case scrub =>
    rw [Answers, exec, execCellarScrub, if_neg (Bool.eq_false_iff.mp hreset)]
    rfl

end Sys2Proof.Machine
end

section
/-! SUPPORT. Proofs/CommandStatus.lean: a command that nothing refuses, and which checks pass for a seat that owns what it names (R19, R292). -/

namespace Sys2Proof.Machine

/-! ### The lowest status that stands -/

@[simp] theorem lowest_nil : lowest [] = stOk := rfl

@[simp] theorem lowest_cons_false (code : Nat) (r : List (Bool × Nat)) : lowest ((false, code) :: r) = lowest r := rfl

@[simp] theorem lowest_cons_ok (b : Bool) (r : List (Bool × Nat)) : lowest ((b, stOk) :: r) = lowest r := by
  cases b <;> rfl

/-- Reasons that do not stand decide nothing. -/
theorem lowest_append_of_pass {l : List (Bool × Nat)} (h : ∀ e ∈ l, e.1 = false) (r : List (Bool × Nat)) :
    lowest (l ++ r) = lowest r := by
  induction l with
  | nil => rfl
  | cons e l ih =>
    obtain ⟨b, code⟩ := e
    obtain rfl : b = false := h (b, code) List.mem_cons_self
    rw [List.cons_append, lowest_cons_false]
    exact ih fun e he => h e (List.mem_cons_of_mem _ he)

/-- No reason stands: the status is OK. -/
theorem lowest_eq_ok {l : List (Bool × Nat)} (h : ∀ e ∈ l, e.1 = false) : lowest l = stOk := by
  rw [← List.append_nil l, lowest_append_of_pass h, lowest_nil]

/-! ### A command that is served -/

/-- A command of a seat that the device serves answers what it makes of the state that has accepted it. -/
theorem answers_command {c : Instr} {h : Hdr} {f : State → State} {s t : State} (hexec : exec c s = command h f s)
    (hs : serving s h.seat = true) (ht : f (accept h s) = t) : Answers c s t := by
  rw [Answers, hexec, command_taken h f s hs, ht]

/-- The same for a command that the boot ROM serves too. -/
theorem answers_romCommand {c : Instr} {h : Hdr} {f : State → State} {s t : State} (hexec : exec c s = romCommand h f s)
    (hs : serving s h.seat = true) (ht : f (accept h s) = t) : Answers c s t := by
  rw [Answers, hexec, rom_taken h f s hs, ht]

/-- A command that is refused or has its effect and completes, when nothing refuses it. -/
theorem answers_finish {c : Instr} {h : Hdr} {status : State → Nat} {f : State → State → State} {s t : State}
    (hexec : exec c s = command h (fun s => finish h (status s) (f s) s) s) (hs : serving s h.seat = true)
    (hstatus : status (accept h s) = stOk) (ht : complete h stOk (f (accept h s) (accept h s)) = t) : Answers c s t := by
  refine answers_command hexec hs ?_
  rw [hstatus, finish_ok, ht]

/-! ### Seats A and B and the partitions they own -/

/-- The seat is one of the two with a PCIe port. -/
abbrev OnPort (h : Hdr) : Prop := h.seat = .a ∨ h.seat = .b

theorem notN_of_onPort {h : Hdr} (hport : OnPort h) : notN h = (false, eRights) := by
  rcases hport with hseat | hseat <;> simp [notN, hseat]

theorem notSeatN_of_onPort {h : Hdr} (hport : OnPort h) : (h.seat == .n) = false :=
  congrArg Prod.fst (notN_of_onPort hport)

theorem onlyAB_of_onPort {h : Hdr} (hport : OnPort h) : onlyAB h = (false, eRights) := by
  rcases hport with hseat | hseat <;> simp [onlyAB, hseat]

theorem owns_accept {h : Hdr} {s : State} (howns : Owns h s) : Owns h (accept h s) := by
  simpa [Owns] using howns

theorem onPort_of_owns {h : Hdr} {s : State} (howns : Owns h s) : OnPort h := howns.2.1

/-- Seats A and B have numbers of their own, which the owner number 3 of an EMPTY partition is not. -/
theorem seatNo_ne_three {h : Hdr} (hport : OnPort h) : seatNo h.seat ≠ 3 := by
  rcases hport with hseat | hseat <;> simp [seatNo, hseat]

theorem ownerNo_of_owns {h : Hdr} {s : State} (howns : Owns h s) : ownerNo s h.part = seatNo h.seat := by
  obtain ⟨-, -, hused, hseat⟩ := howns
  rw [ownerNo, if_neg hused, hseat]

/-- A seat may name a partition that it owns, outside LOADING (R292, R295). -/
theorem partChecks_pass_of_owns {h : Hdr} {s : State} (howns : Owns h s) (hloading : (part s h.part).st ≠ 5) (empty : Bool) :
    ∀ e ∈ partChecks s h empty, e.1 = false := by
  have howner := ownerNo_of_owns howns
  obtain ⟨hpart, -, hused, -⟩ := howns
  simp [partChecks, howner, hused, hloading, hpart]

theorem othersPart_of_owns {h : Hdr} {s : State} (howns : Owns h s) : othersPart s h h.part = false := by
  simp [othersPart, ownerNo_of_owns howns]

/-- A port's seat may name an EMPTY partition where the command allows one. -/
theorem partChecks_pass_of_empty {h : Hdr} {s : State} (hpart : h.part ≤ 15) (hempty : (part s h.part).st = 0) :
    ∀ e ∈ partChecks s h true, e.1 = false := by
  simp [partChecks, hempty, hpart]

end Sys2Proof.Machine
end

section
/-! SUPPORT. Proofs/Queries.lean: what IDENTIFY and GET_STATUS answer (R293, R294, R303). -/

namespace Sys2Proof.Machine

theorem partChecks_accept (h : Hdr) (s : State) (empty : Bool) : partChecks (accept h s) h empty = partChecks s h empty := by
  simp [partChecks]

theorem ctxForeign_accept (h : Hdr) (s : State) (index : Nat) : ctxForeign (accept h s) h index = ctxForeign s h index := by
  simp [ctxForeign]

theorem dieLost_accept (h : Hdr) (s : State) (d : Nat) : dieLost (accept h s) d = dieLost s d := by
  simp [dieLost]

theorem othersPart_accept (h : Hdr) (s : State) (n : Nat) : othersPart (accept h s) h n = othersPart s h n := by
  simp [othersPart]

theorem evidenceAt_accept (h : Hdr) (s : State) (index : Nat) : evidenceAt (accept h s) index = evidenceAt s index := by
  simp [evidenceAt]

/-- GET_STATUS of a partition that the seat owns. -/
theorem getStatusPartition_answers {h : Hdr} {s : State} (hs : serving s h.seat = true) (howns : Owns h s)
    (hloading : (part s h.part).st ≠ 5) :
    Answers (.getStatusPartition h) s (answers h (partStatus (accept h s) h.part) (accept h s)) := by
  refine answers_command rfl hs (if_pos (lowest_eq_ok ?_))
  rw [partChecks_accept, List.forall_mem_cons]
  exact ⟨notSeatN_of_onPort (onPort_of_owns howns), partChecks_pass_of_owns howns hloading false⟩

/-- GET_STATUS of a context of such a partition, on a die that is there. -/
theorem getStatusContext_answers {h : Hdr} {s : State} {index : Nat} {x : Ctx} (hs : serving s h.seat = true) (howns : Owns h s)
    (hindex : index < 65536) (hforeign : ctxForeign s h index = false) (hx : ctx s (index / 16384) (index % 16384) = x)
    (hkind : x.kind ≠ 0) (hpart : x.part = h.part) (hdie : dieLost s (index / 16384) = false) :
    Answers (.getStatusContext h index) s (answers h (ctxBody x ++ leBytes 4 x.dcrc.toNat) (accept h s)) := by
  have hrange : ¬3 < index / 16384 := by omega
  have hothers : othersPart s h x.part = false := hpart ▸ othersPart_of_owns howns
  refine answers_command rfl hs ?_
  simp only [ctx_accept, hx]
  refine if_pos (lowest_eq_ok ?_)
  simp [notN_of_onPort (onPort_of_owns howns), ctxForeign_accept, hforeign, othersPart_accept, hothers, dieLost_accept, hdie, hrange, hkind]

/-- GET_STATUS of a stored record of the seat's own. -/
theorem getStatusEvidence_answers {h : Hdr} {s : State} {index : Nat} {r : EvStored} (hs : serving s h.seat = true) (hport : OnPort h)
    (hr : evidenceAt s index = some r) (howner : r.owner = seatNo h.seat) :
    Answers (.getStatusEvidence h index) s (answers h r.bytes (accept h s)) := by
  have hstatus : lowest [notN h, ((h.seat == .a || h.seat == .b) && !(r.owner == 3) && !(r.owner == seatNo h.seat), eRights),
      (false || ((h.seat == .a || h.seat == .b) && r.owner == 3), eAbsent)] = stOk :=
    lowest_eq_ok (by simp [notN_of_onPort hport, howner, seatNo_ne_three hport])
  refine answers_command rfl hs ?_
  simp only [evidenceAt_accept, hr, Option.map_some, Option.getD_some, Option.isNone_some, hstatus, stOk]

/-- Settles O8: each query passes its checks, and answers what it reads. -/
theorem queriesAnswerTheSeat : Obligations.QueriesAnswerTheSeat := fun _ _ hs =>
  ⟨answers_romCommand rfl hs rfl, answers_command rfl hs rfl, getStatusPartition_answers hs,
    fun _ howns hindex hforeign hkind hpart hdie => getStatusContext_answers hs howns hindex hforeign rfl hkind hpart hdie,
    fun _ _ hport hr howner => getStatusEvidence_answers hs hport hr howner⟩

end Sys2Proof.Machine
end

section
/-! SUPPORT. Proofs/Completions.lean: how a completion reaches the queue of a PCIe seat (R283, R284, R286, R288), and that a completion
changes nothing of the seats but their ports. -/

namespace Sys2Proof.Machine

/-! ### Bytes -/

@[simp] theorem length_leBytes (k n : Nat) : (leBytes k n).length = k := by
  induction k generalizing n with
  | zero => rfl
  | succ k ih => rw [leBytes, List.length_cons, ih]

@[simp] theorem length_cqEntry (id b2 kind head status prt info0 info1 info2 : Nat) (s : State) :
    (cqEntry id b2 kind head status prt info0 info1 info2 s).length = 32 := by
  simp [cqEntry, zeroBytes]

theorem identity_ne_nil (s : State) : identity s ≠ [] := by
  have hlength : (identity s).length = 256 := by
    have hwords : (identity s).length = ((List.range 64).map fun _ => 4).sum := by simp [identity, List.length_flatten, Function.comp_def]
    exact hwords.trans (by decide)
  exact List.ne_nil_of_length_pos (by omega)

/-! ### The completion queue -/

/-- The 32 bytes that go to the CQ: the entry with the queue's phase in its last byte (R284, R286). -/
def phased (q : Queue) (entry : List Byte) : List Byte := entry.take 31 ++ [BitVec.ofNat 8 (bit q.phase)]

theorem length_phased (q : Queue) {entry : List Byte} (h : entry.length = 32) : (phased q entry).length = 32 := by
  simp [phased, h]

theorem phased_last (q : Queue) {entry : List Byte} (h : entry.length = 32) :
    (phased q entry).getD 31 0 = BitVec.ofNat 8 (bit q.phase) := by
  simp [phased, h]

/-- An entry has been written at the tail: the tail moves on, and the phase turns where it wraps (R286). -/
def cqMoved (q : Queue) : Queue :=
  { q with
    cqTail := if q.cqTail + 1 = q.cqSize then 0 else q.cqTail + 1
    phase := if q.cqTail + 1 = q.cqSize then !q.phase else q.phase }

/-- One command of the queue has ended. -/
def queEnded (q : Queue) : Queue :=
  { q with busy := q.busy - 1, discard := q.discard - 1, enabled := q.enabled && (q.enable || !(q.busy - 1 == 0)) }

theorem hostPut_taken {x : Seat} (addr : Nat) (b : List Byte) (f : State → State) {s : State} (h : (seatOf s x).rejects = false) :
    hostPut x addr b f s = f (emit (.hostWrite x addr b) s) :=
  if_neg (Bool.eq_false_iff.mp h)

theorem seatOf_modQueue_rejects (x y : Seat) (q : Nat) (f : Queue → Queue) (s : State) :
    (seatOf (modQueue x q f s) y).rejects = (seatOf s y).rejects := by
  cases x <;> cases y <;> rfl

theorem seatOf_emit (o : Out) (s : State) (x : Seat) : seatOf (emit o s) x = seatOf s x := by cases x <;> rfl

theorem queueOf_emit (o : Out) (s : State) (x : Seat) (q : Nat) : queueOf (emit o s) x q = queueOf s x q := by cases x <;> rfl

/-- Without INT_EN an entry is written and the queue moves on; no message follows. -/
theorem cqPost_quiet {x : Seat} {n : Nat} {q : Queue} (entry : List Byte) {s : State} (hq : queueOf s x n = q)
    (hrejects : (seatOf s x).rejects = false) (hint : q.intEn = false) :
    cqPost x n entry s = modQueue x n cqMoved (emit (.hostWrite x (q.cqBase + 32 * q.cqTail) (phased q entry)) s) := by
  have hmoves (u : State) (hu : queueOf u x n = q) :
      modQueue x n (fun v => { v with
        cqTail := if q.cqTail + 1 == q.cqSize then 0 else v.cqTail + 1
        phase := if q.cqTail + 1 == q.cqSize then !v.phase else v.phase }) u = modQueue x n cqMoved u := by
    refine modQueue_congr x n _ _ u ?_
    simp [hu, cqMoved]
  subst hq
  simp only [cqPost]
  rw [hostPut_taken _ _ _ hrejects]
  simp only [hint, Bool.false_eq_true, if_false]
  exact hmoves _ (queueOf_emit ..)

/-- The completion of a command on a port: nothing where the port is in reset or the queue expects none, and else the output and then the
entry where the queue still takes completions. -/
theorem completeWith_onPort {h : Hdr} (hport : OnPort h) (status info0 info1 info2 : Nat) (data : List Byte) (s : State) :
    completeWith h status info0 info1 info2 data s =
      if (seatOf s h.seat).inReset || (queueOf s h.seat h.sq).busy == 0 then s
      else
        let u := modQueue h.seat h.sq queEnded s
        let posts (v : State) : State := cqPost h.seat h.sq (completionOf h status info0 info1 info2 v) v
        if (queueOf s h.seat h.sq).enable && (queueOf s h.seat h.sq).discard == 0 then
          (if (data.take h.len).isEmpty then posts u else hostPut h.seat h.addr (data.take h.len) posts u)
        else u := by
  have hended : modQueue h.seat h.sq (fun q => { q with
      busy := (queueOf s h.seat h.sq).busy - 1, discard := q.discard - 1,
      enabled := q.enabled && (q.enable || !((queueOf s h.seat h.sq).busy - 1 == 0)) }) s = modQueue h.seat h.sq queEnded s :=
    modQueue_congr _ _ _ _ _ rfl
  rw [← hended]
  obtain ⟨seat, sq, cid, part_, addr, len⟩ := h
  rcases hport with rfl | rfl <;> rfl

/-- A completion with output on an enabled queue without INT_EN, while the host takes the port's writes. -/
theorem completeWith_posts {h : Hdr} {s : State} {q : Queue} (hport : OnPort h) (status info0 info1 info2 : Nat) (data : List Byte)
    (hq : queueOf s h.seat h.sq = q) (hreset : (seatOf s h.seat).inReset = false) (hbusy : q.busy ≠ 0) (henable : q.enable = true)
    (hdiscard : q.discard = 0) (hint : q.intEn = false) (hrejects : (seatOf s h.seat).rejects = false) (hdata : data.take h.len ≠ []) :
    ∃ e, e.length = 32 ∧ e.getD 31 0 = BitVec.ofNat 8 (bit q.phase) ∧
      completeWith h status info0 info1 info2 data s =
        modQueue h.seat h.sq cqMoved (emit (.hostWrite h.seat (q.cqBase + 32 * q.cqTail) e)
          (emit (.hostWrite h.seat h.addr (data.take h.len)) (modQueue h.seat h.sq queEnded s))) := by
  have hrejects' : (seatOf (modQueue h.seat h.sq queEnded s) h.seat).rejects = false := by rw [seatOf_modQueue_rejects, hrejects]
  have hended : queueOf (modQueue h.seat h.sq queEnded s) h.seat h.sq = queEnded q := by
    rw [queueOf_modQueue_same _ _ _ _ hport, hq]
  refine ⟨phased (queEnded q) (completionOf h status info0 info1 info2
    (emit (.hostWrite h.seat h.addr (data.take h.len)) (modQueue h.seat h.sq queEnded s))),
    length_phased _ (length_cqEntry ..), phased_last _ (length_cqEntry ..), ?_⟩
  rw [completeWith_onPort hport]
  simp only [hq, hreset, hbusy, henable, hdiscard, Bool.false_or, beq_iff_eq, if_false, beq_self_eq_true, Bool.and_true, if_true,
    List.isEmpty_iff, hdata]
  rw [hostPut_taken _ _ _ hrejects', cqPost_quiet (q := queEnded q) _ (by rw [queueOf_emit, hended]) (by rw [seatOf_emit, hrejects'])
    hint]
  rfl

theorem inReset_of_serving {s : State} {x : Seat} (hs : serving s x = true) : (seatOf s x).inReset = false := by
  simp only [serving, Bool.and_eq_true, Bool.not_eq_true'] at hs
  exact hs.2

theorem seatOf_accept (h : Hdr) (s : State) (x : Seat) : (seatOf (accept h s) x).inReset = (seatOf s x).inReset ∧
    (seatOf (accept h s) x).rejects = (seatOf s x).rejects := by
  unfold accept
  cases h.seat <;> cases x <;> exact ⟨rfl, rfl⟩

/-- Acceptance on a port counts one more outstanding command of its queue (R287). -/
theorem queueOf_accept {h : Hdr} (hport : OnPort h) (s : State) :
    queueOf (accept h s) h.seat h.sq = { queueOf s h.seat h.sq with busy := (queueOf s h.seat h.sq).busy + 1 } := by
  obtain ⟨seat, sq, cid, part_, addr, len⟩ := h
  rcases hport with rfl | rfl <;> exact queueOf_modQueue_same _ _ _ _ (by simp)

/-- Settles O9: IDENTIFY completes on the accepted state, where its queue expects one completion more than before. -/
theorem completionReachesTheQueue : Obligations.CompletionReachesTheQueue := by
  intro h s q hs hport hq henable hdiscard hint hrejects hlen
  subst hq
  obtain ⟨hreset, hrejects'⟩ := seatOf_accept h s h.seat
  have houtput : (identity (accept h s)).take h.len ≠ [] := by
    simp [List.take_eq_nil_iff, identity_ne_nil, Nat.ne_of_gt hlen]
  obtain ⟨e, hlength, hphase, hcomplete⟩ := completeWith_posts hport stOk 0 (identity (accept h s)).length 0 (identity (accept h s))
    (queueOf_accept hport s) (hreset.trans (inReset_of_serving hs)) (Nat.succ_ne_zero _) henable hdiscard hint (hrejects'.trans hrejects)
    houtput
  refine ⟨_, e, answers_romCommand rfl hs hcomplete, hlength, hphase, ?out, ?queue⟩
  case out => simp [emit]
  case queue =>
    rw [queueOf_modQueue_same _ _ _ _ hport, queueOf_emit, queueOf_emit, queueOf_modQueue_same _ _ _ _ hport, queueOf_accept hport]
    simp [cqMoved, queEnded, henable, hdiscard]

end Sys2Proof.Machine
end

section
/-! SUPPORT. Proofs/Attestation.lean: ATTEST, the end of a signing, the certificate (R437 to R439). -/

namespace Sys2Proof.Machine

/-- A list is cut or filled to its length. -/
theorem length_padTo (n : Nat) (l : List Byte) : (padTo n l).length = n := by
  simp only [padTo, List.length_append, List.length_take, List.length_replicate]
  omega

theorem length_certificate : certificate.length = 29920 := by
  simp only [certificate, List.length_append, length_padTo, List.length_map, List.length_range]
  rfl

/-- Settles O10: with no signing under way ATTEST is not busy, and a signing under way ends with its report. -/
theorem attestationIsSigned : Obligations.AttestationIsSigned := by
  refine ⟨fun h nonce s hs hfree => ?report, fun h nonce s hsigning hruns => ?signed,
    fun h s hs hfree => ⟨?certificate, length_certificate⟩⟩
  case report =>
    refine answers_command rfl hs ?_
    simp [hfree]
  case signed => simp [Answers, exec, execAttestSigned, hsigning, hruns]
  case certificate =>
    refine answers_command rfl hs ?_
    simp [hfree]

end Sys2Proof.Machine
end

section
/-! SUPPORT. Proofs/Loading.lean: LOAD and UNLOAD that nothing refuses, and their ends (R226 to R236). -/

namespace Sys2Proof.Machine

/-! ### LOAD -/

theorem filterMap_of_pass {l : List (Bool × Nat)} (h : ∀ e ∈ l, e.1 = false) (idx : Nat) :
    (l.filterMap fun x => if x.1 then some (x.2, idx) else none) = [] := by
  rw [List.filterMap_eq_nil_iff]
  intro e he
  simp [h e he]

/-- A clean stream for an EMPTY partition, from a port's seat with no load of its own in progress. -/
theorem load_begins {h : Hdr} {stream : List Byte} {s : State} (hs : serving s h.seat = true) (hport : OnPort h) (hpart : h.part ≤ 15)
    (hempty : (part s h.part).st = 0) (hloading : seatLoading (accept h s) (seatNo h.seat) = false)
    (hclean : (loadErrs (accept h s) h.seat (seatNo h.seat) h.part stream).2.2 = []) :
    Answers (.load h stream) s (beginLoad h.part (seatNo h.seat) (loadErrs (accept h s) h.seat (seatNo h.seat) h.part stream).1
      (loadErrs (accept h s) h.seat (seatNo h.seat) h.part stream).2.1 stream (some h) (accept h s)) := by
  have hchecks : ((partChecks (accept h s) h true ++ [onlyAB h]).filterMap fun x => if x.1 then some (x.2, noRec) else none) = [] := by
    refine filterMap_of_pass ?_ noRec
    rw [partChecks_accept, List.forall_mem_append]
    exact ⟨partChecks_pass_of_empty hpart hempty, by simp [onlyAB_of_onPort hport]⟩
  have hstatus : errStatus (((partChecks (accept h s) h true ++ [onlyAB h]).filterMap fun x => if x.1 then some (x.2, noRec) else none) ++
      err (decide (h.part ≤ 15) && !((part (accept h s) h.part).st == 0)) eState noRec ++
      err (seatLoading (accept h s) (seatNo h.seat)) eBusy noRec ++
      (loadErrs (accept h s) h.seat (seatNo h.seat) h.part stream).2.2) = (stOk, noRec) := by
    rw [hchecks, hloading, hclean, part_accept, hempty]
    simp [err, errStatus, stOk]
  refine answers_command rfl hs ?_
  dsimp only
  rw [hstatus]
  rfl

/-- The end of a load that nothing stands in the way of. -/
theorem loadFinish_ends {n : Nat} {g : Loading} {s v : State} (hg : (part s n).loading = some g) (hprogs : badProgs g.layout = [])
    (hdies : ((loadDies s n g.layout).any fun d => !diePresent s d) = false)
    (hstands : ([0, 1, 2, 3].all fun d => loadStands s n d g.layout) = true)
    (hfits : resettleAll n g.layout.regions.length (modPart n (fun p => { p with layout := some g.layout }) s) = some v) :
    loadFinish n none s = loadEnds n g.layout g v := by
  simp only [loadFinish, hg, hprogs, hdies, hstands, hfits]
  rfl

/-! ### UNLOAD -/

/-- UNLOAD of a partition that holds a layout and does not run, from the seat that owns it. -/
theorem unload_noted {h : Hdr} {s : State} (hs : serving s h.seat = true) (howns : Owns h s)
    (hidle : (part s h.part).st = 1 ∨ (part s h.part).st = 3 ∨ (part s h.part).st = 4)
    (hloading : seatLoading (accept h s) (seatNo h.seat) = false) :
    Answers (.unload h) s (quietPart h.part (modPart h.part (fun p => { p with unloading := some h }) (accept h s))) := by
  obtain ⟨hpart, hport, hused, hseat⟩ := howns
  have hrun : (part s h.part).st ≠ 2 ∧ (part s h.part).st ≠ 5 := by omega
  refine answers_command rfl hs (if_pos (lowest_eq_ok ?_))
  simp [hpart, hseat, hused, hrun, hloading, onlyAB_of_onPort hport]

/-- The last frame of a partition that is unloaded has gone. -/
theorem unloadComplete_empties {n : Fin 16} {h : Hdr} {l : Layout} {s : State} (hu : (part s n).unloading = some h)
    (hl : (part s n).layout = some l) (hruns : firmwareRuns s = true) (hframes : (s.frames.any fun f => f.id.part == n.val) = false) :
    Answers (.unloadComplete n) s (completeWith h 0 noRec 0 0 [] (layLast n 0 noRec (awaitUnloaded n (modPart n emptied (unreserve n
      (freePorts l (setPartState n 0 s))))))) := by
  simp only [Answers, exec, execUnloadComplete, hu, hl, hruns, hframes]
  rfl

/-- Settles O11: a LOAD that passes its checks begins, its end and an UNLOAD's follow where nothing holds them up. -/
theorem loadAndUnload : Obligations.LoadAndUnload := by
  refine ⟨fun h stream s hs hport hpart hempty hloading hclean => load_begins hs hport hpart hempty hloading hclean, ?loadComplete,
    fun h s hs howns hidle hloading => unload_noted hs howns hidle hloading,
    fun n h l s hu hl hruns hframes => unloadComplete_empties hu hl hruns hframes⟩
  case loadComplete =>
    intro n g h s v hg hhdr hruns hprogs hdies hstands hfits
    simp only [Answers, exec, execLoadComplete, hg, hruns, hhdr, loadFinish_ends hg hprogs hdies hstands hfits]
    rfl

end Sys2Proof.Machine
end

section
/-! SUPPORT. Proofs/Starting.lean: START and STOP that nothing refuses, and their ends (R181, R188, R222, R236). -/

namespace Sys2Proof.Machine

/-- START of a partition that the seat owns and does not unload passes its checks where it runs already, or has a result ring and bases
that qualify. -/
theorem start_status {h : Hdr} {s : State} (howns : Owns h s) (hunloading : (part s h.part).unloading = none)
    (hstate : (part s h.part).st = 2 ∨ ((part s h.part).st = 1 ∨ (part s h.part).st = 3) ∧ (part s h.part).ring.isSome = true ∧
      basesReady s h.part = true) :
    lowest (partChecks s h false ++ [onlyAB h, ((part s h.part).st == 4 || (part s h.part).unloading.isSome, eState),
      (((part s h.part).st == 1 || (part s h.part).st == 3) && ((part s h.part).ring.isNone || !basesReady s h.part), eState)]) = stOk := by
  have hloading : (part s h.part).st ≠ 5 := by omega
  refine lowest_eq_ok (List.forall_mem_append.mpr ⟨partChecks_pass_of_owns howns hloading false, ?_⟩)
  obtain hruns | ⟨hidle, hring, hbases⟩ := hstate
  · simp [onlyAB_of_onPort (onPort_of_owns howns), hruns, hunloading]
  · have hfenced : (part s h.part).st ≠ 4 := by omega
    simp [onlyAB_of_onPort (onPort_of_owns howns), hfenced, hunloading, hbases, hring]

theorem start_starts {h : Hdr} {s : State} (hs : serving s h.seat = true) (howns : Owns h s)
    (hunloading : (part s h.part).unloading = none) (hidle : (part s h.part).st = 1 ∨ (part s h.part).st = 3)
    (hring : (part s h.part).ring.isSome = true) (hbases : basesReady (accept h s) h.part = true) :
    Answers (.start h) s (completeWith h 0 0 0 (startInfo (startPart h.part (accept h s)) h.part) [] (startPart h.part (accept h s))) := by
  have hrun : (part s h.part).st ≠ 2 := by omega
  have hstatus := start_status (owns_accept howns) (by simpa using hunloading) (.inr ⟨by simpa using hidle, by simpa using hring, hbases⟩)
  refine answers_command rfl hs ((if_pos hstatus).trans ?_)
  simp only [part_accept, if_neg hrun]
  rfl

theorem start_reports {h : Hdr} {s : State} (hs : serving s h.seat = true) (howns : Owns h s)
    (hunloading : (part s h.part).unloading = none) (hruns : (part s h.part).st = 2) :
    Answers (.start h) s (completeWith h 0 0 0 (startInfo (accept h s) h.part) [] (accept h s)) := by
  have hstatus := start_status (owns_accept howns) (by simpa using hunloading) (.inl (by simpa using hruns))
  refine answers_command rfl hs ((if_pos hstatus).trans ?_)
  simp only [part_accept, if_pos hruns]
  rfl

/-- STOP of a partition that the seat owns stops it; it completes when no frame is left. -/
theorem stop_stops {h : Hdr} {s : State} (hs : serving s h.seat = true) (howns : Owns h s) (hloading : (part s h.part).st ≠ 5) :
    Answers (.stop h) s
      (if framesLeft (stopPart h.part (accept h s)) h.part then
        modPart h.part (fun p => { p with stopping := p.stopping ++ [h] }) (stopPart h.part (accept h s))
      else complete h stOk (stopPart h.part (accept h s))) := by
  refine answers_command rfl hs (if_pos (lowest_eq_ok (List.forall_mem_append.mpr ⟨?_, ?_⟩)))
  · exact partChecks_pass_of_owns (owns_accept howns) (by simpa using hloading) false
  · simp [notSeatN_of_onPort (onPort_of_owns howns)]

/-- Settles O12: START and STOP pass their checks, and their ends wait for frames and for bases. -/
theorem startAndStop : Obligations.StartAndStop := by
  refine ⟨fun h s hs howns hunloading => ⟨fun hidle hring hbases => start_starts hs howns hunloading hidle hring hbases,
    fun hruns => start_reports hs howns hunloading hruns⟩, fun h s v hs howns hloading hv => ⟨fun hframes => ?stopped, fun hframes => ?stopping⟩,
    fun n s hframes => ?stopComplete, fun n s hwait hloaded hup hbases => ?autostart⟩
  case stopped =>
    have hstop := stop_stops hs howns hloading
    rwa [← hv, hframes, if_neg Bool.false_ne_true] at hstop
  case stopping =>
    have hstop := stop_stops hs howns hloading
    rwa [← hv, hframes, if_pos rfl] at hstop
  case stopComplete => simp [Answers, exec, execStopComplete, hframes, stOk]
  case autostart => simp [Answers, exec, execAutostart, hwait, hloaded, hup, hbases]

end Sys2Proof.Machine
end

section
/-! SUPPORT. Proofs/StoredLayouts.lean: STORE_LAYOUT and ERASE_LAYOUT that nothing refuses, and what the flash then holds (R295, R298). -/

namespace Sys2Proof.Machine

theorem storing_accept (h : Hdr) (s : State) : (accept h s).seats.storing = s.seats.storing := by
  unfold accept
  cases h.seat <;> rfl

theorem not_any_of_all_not {α : Type} {l : List α} {p : α → Bool} (h : (l.all fun e => !p e) = true) : l.any p = false := by
  simpa using h

/-- A store or erase of a number takes effect where nothing of that number waits behind it. -/
theorem flashDone_last {n : Nat} {e : Hdr × Option Stored} {s : State} (k : Nat) (l : List (Hdr × Option Stored))
    (hstoring : s.seats.storing = l ++ [e]) (he : e.1.part = n) (hl : (l.any fun e => e.1.part == n) = false) :
    flashDone (k + 1) n s = complete e.1 stOk { s with seats := { s.seats with
      storing := l, stored := (s.seats.stored.filter fun y => !(y.part == n)) ++ e.2.toList } } := by
  have hnone : ∀ x ∈ l, ¬(x.1.part == n) = true := by simpa using hl
  have hfirst : ((l ++ [e]).find? fun e => e.1.part == n) = some e := by
    rw [List.find?_append, List.find?_eq_none.mpr hnone]
    simp [he]
  have hrest : ((l ++ [e]).eraseP fun e => e.1.part == n) = l := by
    rw [List.eraseP_append_right _ hnone]
    simp [he]
  simp only [flashDone, hstoring, hfirst, hrest, List.find?_eq_none.mpr hnone]
  rfl

/-- A well-formed stream that names its own seat and fits, from a seat with no store in progress. -/
theorem storeLayout_noted {h : Hdr} {stream : List Byte} {s : State} (hs : serving s h.seat = true) (hport : OnPort h) (hpart : h.part ≤ 15)
    (hempty : (part s h.part).st = 0) (hforeign : storedForeign (accept h s) h = false) (hstream : stream ≠ [])
    (hseat : (readLayout (splitRecs (stream.length / 16 + 1) 0 stream).1).seat = seatNo h.seat)
    (hfits : storedElse (accept h s) h.part + stream.length ≤ 0x1000000)
    (hfree : (s.seats.storing.all fun e => !(e.1.seat == h.seat)) = true) (hclean : storeErrs stream = []) :
    Answers (.storeLayout h stream) s { accept h s with seats := { (accept h s).seats with
      storing := s.seats.storing ++ [(h, some ⟨h.part, seatNo h.seat, stream⟩)] } } := by
  have hbusy : (s.seats.storing.any fun e => e.1.seat == h.seat) = false := not_any_of_all_not hfree
  have hroom : ¬0x1000000 < storedElse (accept h s) h.part + stream.length := Nat.not_lt.mpr hfits
  have hfilled : stream.isEmpty = false := by simpa using hstream
  have hform : (errStatus (storeErrs stream)).1 = stOk := by
    rw [hclean]
    rfl
  refine answers_command rfl hs ((if_pos ?_).trans ?_)
  · rw [partChecks_accept, List.append_assoc, lowest_append_of_pass (partChecks_pass_of_empty hpart hempty)]
    simp [onlyAB_of_onPort hport, hforeign, hseat, hfilled, hroom, storing_accept, hbusy, hform]
  · rw [storing_accept]

/-- ERASE_LAYOUT of a number that holds a layout of the seat's own passes its checks. -/
theorem eraseLayout_accepted {h : Hdr} {s : State} (hs : serving s h.seat = true) (hport : OnPort h) (hpart : h.part ≤ 15)
    (hempty : (part s h.part).st = 0) (hforeign : storedForeign (accept h s) h = false)
    (hstands : (storedAhead (accept h s) h.part).isSome = true) :
    Answers (.eraseLayout h) s
      (if s.seats.storing.any fun e => e.1.part == h.part then
        { accept h s with seats := { (accept h s).seats with storing := s.seats.storing ++ [(h, none)] } }
      else flashDone 1 h.part { accept h s with seats := { (accept h s).seats with storing := s.seats.storing ++ [(h, none)] } }) := by
  refine answers_command rfl hs ((if_pos (lowest_eq_ok (List.forall_mem_append.mpr ⟨?_, ?_⟩))).trans ?_)
  · rw [partChecks_accept]
    exact partChecks_pass_of_empty hpart hempty
  · simp [notSeatN_of_onPort hport, hforeign, hstands]
  · rw [storing_accept]

/-- Settles O13: a store is noted behind those in progress, and `flashDone_last` puts it, or an erase, into the flash. -/
theorem storedLayouts : Obligations.StoredLayouts := by
  refine ⟨fun h stream s hs hport hpart hempty hforeign hstream hseat hfits hfree hclean =>
      storeLayout_noted hs hport hpart hempty hforeign hstream hseat hfits hfree hclean,
    fun n h x s hstoring hpart hruns => ?complete, fun h s hs hport hpart hempty hforeign hstands => ⟨fun hfree => ?erased, fun hbehind => ?waits⟩⟩
  case complete =>
    have hlength : s.seats.storing.length = 0 + 1 := by rw [hstoring]; rfl
    rw [Answers, exec, execStoreLayoutComplete, if_pos hruns, hlength, flashDone_last (e := (h, x)) 0 [] hstoring hpart rfl]
    rfl
  case erased =>
    have hnone := not_any_of_all_not hfree
    have herase := eraseLayout_accepted hs hport hpart hempty hforeign hstands
    rw [hnone, if_neg Bool.false_ne_true, flashDone_last (e := (h, none)) 0 s.seats.storing rfl rfl hnone] at herase
    rw [← storing_accept h s, Option.toList_none, List.append_nil] at herase
    exact herase
  case waits =>
    have herase := eraseLayout_accepted hs hport hpart hempty hforeign hstands
    rwa [hbehind, if_pos rfl] at herase

end Sys2Proof.Machine
end

section
/-! SUPPORT. Proofs/Uploads.lean: UPLOAD_CONST, RELEASE_CONST and SET_RESULT_RING that nothing refuses (R216, R289, R295). -/

namespace Sys2Proof.Machine

/-- A well-formed constant that the seat does not hold yet and that fits on present dies. -/
theorem uploadConst_awaits {h : Hdr} {mask : Nat} {body : List Byte} {s : State} (hs : serving s h.seat = true) (hport : OnPort h)
    (hpart : h.part ≤ 15) (hempty : (part s h.part).st = 0) (hbody : body ≠ []) (hmask : 1 ≤ mask ∧ mask ≤ 15)
    (hform : tensorBad body 0 = false) (hlength : body.length = hdrLength (readHdr body 0))
    (hpresent : ((maskDies mask).any fun d => !diePresent (accept h s) d) = false)
    (hnew : uploadOf (accept h s) h.seat h.part (shake256 32 body) = none)
    (hcount : ((accept h s).seats.uploads.filter fun u => u.seat == h.seat).length < 64)
    (hroom : ∀ d ∈ maskDies mask, roundUp (constImage body).length 64 ≤ uploadRoom (accept h s) d ∧
      (uploadPlace (accept h s) d (roundUp (constImage body).length 64)).isSome = true)
    {x : Upload × List Nat} (hx : uploadNew (accept h s) h.seat h.part mask (shake256 32 body) body = x) :
    Answers (.uploadConst h mask body) s (awaits h (ofLe ((shake256 32 body).take 8))
      (if uploadEnd (constCells body) = 0 then [] else x.2.map fun d => (d, x.1.at_.getD d 0 + uploadEnd (constCells body)))
      (some (x.1, none)) (uploadEffect x.1 x.2 (accept h s))) := by
  have hfilled : body.isEmpty = false := by simpa using hbody
  have hmask' : mask ≠ 0 ∧ ¬15 < mask := by omega
  have hplaces : ∀ d ∈ maskDies mask, bitOf 0 d = false → roundUp (constImage body).length 64 ≤ uploadRoom (accept h s) d ∧
      ¬uploadPlace (accept h s) d (roundUp (constImage body).length 64) = none := by
    intro d hd _
    obtain ⟨hfits, hplace⟩ := hroom d hd
    exact ⟨hfits, Option.isSome_iff_ne_none.mp hplace⟩
  refine answers_command rfl hs ?_
  obtain ⟨new, more⟩ := x
  dsimp only
  rw [hnew, hx]
  refine if_pos (lowest_eq_ok (List.forall_mem_append.mpr ⟨?_, ?_⟩))
  · rw [partChecks_accept]
    exact partChecks_pass_of_empty hpart hempty
  · simpa [onlyAB_of_onPort hport, hfilled, hmask', hform, hlength, hpresent, Nat.not_le.mpr hcount] using hplaces

/-- RELEASE_CONST of an upload of the seat's own that its layout does not refer to. -/
theorem releaseConst_drops {h : Hdr} {digest : List Byte} {s : State} (hs : serving s h.seat = true) (hport : OnPort h) (hpart : h.part ≤ 15)
    (hempty : (part s h.part).st = 0) (hheld : (uploadOf (accept h s) h.seat h.part digest).isSome = true)
    (hfree : constReferred (accept h s) h.seat h.part digest = false) :
    Answers (.releaseConst h digest) s (complete h 0 { accept h s with seats := { (accept h s).seats with
      uploads := (accept h s).seats.uploads.filter fun u => !(u.seat == h.seat && u.part == h.part && u.digest == digest) } }) := by
  refine answers_finish (f := fun _ => _) rfl hs (lowest_eq_ok (List.forall_mem_append.mpr ⟨?_, ?_⟩)) rfl
  · rw [partChecks_accept]
    exact partChecks_pass_of_empty hpart hempty
  · simp [onlyAB_of_onPort hport, hheld, hfree]

theorem ringSizeOk_pos {n : Nat} (h : ringSizeOk n = true) : n ≠ 0 := by
  rintro rfl
  exact absurd h (by decide)

/-- SET_RESULT_RING of a partition that the seat owns and that does not run, on an enabled queue. -/
theorem setResultRing_sets {h : Hdr} {cq : Nat} {s : State} (hs : serving s h.seat = true) (howns : Owns h s)
    (hidle : (part s h.part).st = 1 ∨ (part s h.part).st = 3) (hsize : ringSizeOk h.len = true) (halign : h.addr % 4096 = 0)
    (hend : h.addr + h.len ≤ 2 ^ 64) (hcq : cq ≤ 63) (hqueue : (queueOf (accept h s) h.seat cq).enabled = true) :
    Answers (.setResultRing h cq) s (complete h 0 (modPart h.part (fun p => { p with ring := some ⟨h.addr, h.len, cq, 0, 0, 0⟩ })
      (accept h s))) := by
  have hstate : (part s h.part).st ≠ 2 ∧ (part s h.part).st ≠ 4 ∧ (part s h.part).st ≠ 5 := by omega
  obtain ⟨hrun, hfenced, hloading⟩ := hstate
  refine answers_finish (f := fun _ => _) rfl hs (lowest_eq_ok (List.forall_mem_append.mpr ⟨?_, ?_⟩)) rfl
  · exact partChecks_pass_of_owns (owns_accept howns) (by simpa using hloading) false
  · simpa [onlyAB_of_onPort (onPort_of_owns howns), fencedBad, hrun, hfenced, ringSizeOk_pos hsize, hsize, halign, hqueue, hcq] using hend

/-- Settles O14: the three commands pass their checks. -/
theorem uploadsAndRings : Obligations.UploadsAndRings :=
  ⟨fun _ _ _ _ hs hport hpart hempty hbody hlow hhigh hform hlength hpresent hnew hcount hroom _ hx =>
    uploadConst_awaits hs hport hpart hempty hbody ⟨hlow, hhigh⟩ hform hlength hpresent hnew hcount hroom hx.symm,
    fun _ _ _ hs hport hpart hempty hheld hfree => releaseConst_drops hs hport hpart hempty hheld hfree,
    fun _ _ _ hs howns hidle hsize halign hend hcq hqueue => setResultRing_sets hs howns hidle hsize halign hend hcq hqueue⟩

end Sys2Proof.Machine
end

section
/-! SUPPORT. Proofs/Feeding.lean: FEED_SAMPLES, FEED_MESSAGE, CHECKIN and FENCE_CORE that nothing refuses (R129, R177, R178, R288, R295). -/

namespace Sys2Proof.Machine

/-! ### What an accepted command reads of streams as before -/

@[simp] theorem diePresent_accept (h : Hdr) (s : State) (d : Nat) : diePresent (accept h s) d = diePresent s d := by simp [diePresent]

@[simp] theorem ctxStream_accept (h : Hdr) (s : State) (n i : Nat) : ctxStream (accept h s) n i = ctxStream s n i := by simp [ctxStream]

@[simp] theorem streamRec_accept (h : Hdr) (s : State) (n i : Nat) : streamRec (accept h s) n i = streamRec s n i := by simp [streamRec]

@[simp] theorem streamSlots_accept (h : Hdr) (s : State) (n i : Nat) : streamSlots (accept h s) n i = streamSlots s n i := by
  simp [streamSlots]

@[simp] theorem feedOf_accept (h : Hdr) (s : State) (n i : Nat) : feedOf (accept h s) n i = feedOf s n i := by simp [feedOf]

@[simp] theorem feedForm_accept (h : Hdr) (s : State) (n i : Nat) : feedForm (accept h s) n i = feedForm s n i := by simp [feedForm]

@[simp] theorem feedAhead_accept (h : Hdr) (s : State) (n i seq : Nat) : feedAhead (accept h s) n i seq = feedAhead s n i seq := by
  simp [feedAhead]

@[simp] theorem feedEnd_accept (h : Hdr) (s : State) (n i upTo : Nat) : feedEnd (accept h s) n i upTo = feedEnd s n i upTo := by
  simp [feedEnd]

@[simp] theorem blockPlace_accept (h : Hdr) (s : State) (n i seq : Nat) : blockPlace (accept h s) n i seq = blockPlace s n i seq := by
  simp [blockPlace]

@[simp] theorem feedHeld_accept (h : Hdr) (s : State) (n i : Nat) : feedHeld (accept h s) n i = feedHeld s n i := by
  simp [feedHeld]

@[simp] theorem messageEnd_accept (h : Hdr) (s : State) (n i : Nat) (rows : List (List Int)) :
    messageEnd (accept h s) n i rows = messageEnd s n i rows := by
  simp [messageEnd]

@[simp] theorem ownerAt_accept (h : Hdr) (s : State) (d c : Nat) : ownerAt (accept h s) d c = ownerAt s d c := by
  simp [ownerAt]

/-! ### Feeds -/

theorem feedStream_eq {s : State} {h : Hdr} {i j : Nat} {r : StreamRec} (hj : ctxStream s h.part i = some j)
    (hr : streamRec s h.part j = some r) : feedStream s h i = some (j, r) := by
  simp [feedStream, hj, hr]

/-- The checks that a feed's partition and context decide pass for the stream `r` of the context, which is of the right kind and not
faulty, on a die that is present. -/
theorem feedChecks_pass {s : State} {h : Hdr} {i j : Nat} {r : StreamRec} {wrong : StreamRec → Bool} (howns : Owns h s)
    (hloading : (part s h.part).st ≠ 5) (hfenced : (part s h.part).st ≠ 4) (hj : ctxStream s h.part i = some j)
    (hr : streamRec s h.part j = some r) (hkind : wrong r = false) (hforeign : ctxForeign s h i = false)
    (hdie : diePresent s (i / 16384) = true) (hctx : ctxBad (ctx s (i / 16384) (i % 16384)) = false) :
    ∀ e ∈ partChecks s h false ++ [onlyAB h] ++ feedChecks s h i wrong, e.1 = false := by
  refine List.forall_mem_append.mpr ⟨List.forall_mem_append.mpr ⟨partChecks_pass_of_owns howns hloading false, ?_⟩, ?_⟩
  · simp [onlyAB_of_onPort (onPort_of_owns howns)]
  · simp [feedChecks, fencedBad, hfenced, hj, hr, hkind, hforeign, hdie, hctx]

/-- A well-formed block that is not behind the next one. -/
theorem feedSamples_awaits {h : Hdr} {i seq stamp era j : Nat} {r : StreamRec} {data : List Byte} {s : State}
    (hs : serving s h.seat = true) (howns : Owns h s) (hloading : (part s h.part).st ≠ 5) (hfenced : (part s h.part).st ≠ 4)
    (hj : ctxStream s h.part i = some j) (hr : streamRec s h.part j = some r) (hkind : r.kind = 1) (hfed : bitOf r.sflags 1 = true)
    (hforeign : ctxForeign s h i = false) (hdie : diePresent s (i / 16384) = true)
    (hctx : ctxBad (ctx s (i / 16384) (i % 16384)) = false) (hi : i ≤ 65535) (hseq : seq ≤ 65535) (hera : era ≤ 3) (hdata : data ≠ [])
    (hlength : data.length = rowsLen r.fmt r.channels r.blockSamples) (hahead : feedAhead s h.part j seq ≤ 32767) :
    Answers (.feedSamples h i seq stamp era data) s (awaits h 0 (feedEnd s h.part j ((blockPlace s h.part j seq).2 + 16)) none
      (feedBlock h.part j seq (stamp % 2 ^ 32 + era * 2 ^ 32) (readRows data r.fmt r.channels r.blockSamples) (accept h s))) := by
  have hchecks := feedChecks_pass (s := accept h s) (wrong := fun r => !(r.kind == 1 && bitOf r.sflags 1)) (owns_accept howns)
    (by simpa using hloading) (by simpa using hfenced) (by simpa using hj) (by simpa using hr) (by simp [hkind, hfed])
    (by rwa [ctxForeign_accept]) (by simpa using hdie) (by simpa using hctx)
  have hx : feedStream (accept h s) h i = some (j, r) := feedStream_eq (by simpa using hj) (by simpa using hr)
  have hranges : (decide (65535 < i) || decide (65535 < seq) || decide (3 < era)) = false := by
    simp [hi, hseq, hera]
  have hfilled : data.isEmpty = false := by simpa using hdata
  have hstatus : lowest (partChecks (accept h s) h false ++ [onlyAB h] ++
      feedChecks (accept h s) h i (fun r => !(r.kind == 1 && bitOf r.sflags 1)) ++
      [(decide (65535 < i) || decide (65535 < seq) || decide (3 < era), eFormat)] ++ [(data.isEmpty, eZero),
      ((some (j, r)).any fun e => !data.isEmpty && !(data.length == rowsLen e.2.fmt e.2.channels e.2.blockSamples), eFormat),
      ((some (j, r)).any fun e => decide (32767 < feedAhead (accept h s) h.part e.1 seq), eFormat)]) = stOk := by
    rw [List.append_assoc, lowest_append_of_pass hchecks]
    simp [hranges, hfilled, hlength, Nat.not_lt.mpr hahead]
  refine answers_command rfl hs ?_
  simp only [hx, hstatus, feedEnds, if_true, feedEnd_accept, blockPlace_accept]

/-- MESSAGE rows that the ring has room for. -/
theorem feedMessage_awaits {h : Hdr} {i rows j : Nat} {r : StreamRec} {data : List Byte} {s : State}
    (hs : serving s h.seat = true) (howns : Owns h s) (hloading : (part s h.part).st ≠ 5) (hfenced : (part s h.part).st ≠ 4)
    (hj : ctxStream s h.part i = some j) (hr : streamRec s h.part j = some r) (hkind : r.kind = 2) (hfed : 8 ≤ r.evtBind)
    (hforeign : ctxForeign s h i = false) (hdie : diePresent s (i / 16384) = true)
    (hctx : ctxBad (ctx s (i / 16384) (i % 16384)) = false) (hi : i ≤ 65535) (hrows : 0 < rows)
    (hlength : data.length = rowsLen r.fmt r.channels rows) (hroom : feedHeld s h.part j + rows ≤ r.ringLength) :
    Answers (.feedMessage h i rows data) s (awaits h 0 (feedEnd s h.part j (messageEnd s h.part j (readRows data r.fmt r.channels rows))) none
      (feedMessage h.part j (tbSafe s) (readRows data r.fmt r.channels rows) (accept h s))) := by
  have hchecks := feedChecks_pass (s := accept h s) (wrong := fun r => !(r.kind == 2) || decide (r.evtBind ≤ 7)) (owns_accept howns)
    (by simpa using hloading) (by simpa using hfenced) (by simpa using hj) (by simpa using hr) (by simp [hkind]; omega)
    (by rwa [ctxForeign_accept]) (by simpa using hdie) (by simpa using hctx)
  have hx : feedStream (accept h s) h i = some (j, r) := feedStream_eq (by simpa using hj) (by simpa using hr)
  have hstatus : lowest (partChecks (accept h s) h false ++ [onlyAB h] ++
      feedChecks (accept h s) h i (fun r => !(r.kind == 2) || decide (r.evtBind ≤ 7)) ++ [(decide (65535 < i), eFormat)] ++
      [((some (j, r)).any fun e => !(data.length == rowsLen e.2.fmt e.2.channels rows), eFormat),
      ((some (j, r)).any fun e => decide (e.2.ringLength < feedHeld (accept h s) h.part e.1 + rows), eOvercommit)]) = stOk := by
    rw [List.append_assoc, lowest_append_of_pass hchecks]
    simp [hlength, Nat.not_lt.mpr hi, Nat.not_lt.mpr hroom]
  refine answers_command rfl hs ?_
  simp only [hx, hstatus, feedEnds, if_true, if_neg (Nat.ne_of_gt hrows), feedEnd_accept, messageEnd_accept, tbSafe_accept]

/-! ### CHECKIN and FENCE_CORE -/

/-- CHECKIN of a task with a monitor slot, of a running partition. -/
theorem checkin_counts {h : Hdr} {task n : Nat} {k : TasksRec} {l : Layout} {x : TaskRec} {s : State} (hs : serving s h.seat = true)
    (howns : Owns h s) (hruns : (part s h.part).st = 2) (hl : (part s h.part).layout = some l) (hk : l.tasks = some k)
    (hx : k.tasks[task]? = some x) (hsource : x.source = 0) (hslot : taskSlot s h.part task = some n) :
    Answers (.checkin h task) s (complete h 0 (taskCheckin n (accept h s))) := by
  have hslot' : taskSlot (accept h s) h.part task = some n := by
    rw [← hslot]
    simp [taskSlot, wdgUnit]
  refine answers_finish (f := fun _ s => (taskSlot s h.part task).elim s fun n => taskCheckin n s) rfl hs
    (lowest_eq_ok (List.forall_mem_append.mpr ⟨?_, ?_⟩)) ?_
  · exact partChecks_pass_of_owns (owns_accept howns) (by simp [hruns]) false
  · simp [onlyAB_of_onPort (onPort_of_owns howns), hruns, hl, hk, hx, hsource]
  · rw [hslot']
    rfl

/-- FENCE_CORE from the seat that owns the cluster, or from seat S. -/
theorem fenceCore_sent {h : Hdr} {d cluster core : Nat} {s : State} (hs : serving s h.seat = true) (hd : d ≤ 3) (hcluster : cluster ≤ 63)
    (hcore : core ≤ 31 ∨ core = 0xFF) (hright : h.seat = .s ∨ OnPort h ∧ ownerNo s (ownerAt s d cluster) = seatNo h.seat)
    (hdie : diePresent s d = true) :
    Answers (.fenceCore h d cluster core) s (sendCmd d cmdFence [cluster, core] (modDie d (fun x => { x with
      fenceCmds := x.fenceCmds ++ [(h, cluster, core, false)] }) (accept h s))) := by
  have hunit : (decide (3 < d) || decide (63 < cluster) || (decide (31 < core) && !(core == 0xFF))) = false := by
    simp [Nat.not_lt.mpr hd, Nat.not_lt.mpr hcluster]
    omega
  have hnotN : (h.seat == .n) = false := by
    obtain hseat | ⟨hport, -⟩ := hright
    · simp [hseat]
    · exact notSeatN_of_onPort hport
  have howner : OnPort h → ownerNo s (ownerAt s d cluster) = seatNo h.seat := by
    obtain hseat | ⟨-, hown⟩ := hright
    · exact fun hport => absurd hport (by simp [hseat])
    · exact fun _ => hown
  refine answers_command rfl hs (if_pos (lowest_eq_ok ?_))
  simpa [hunit, hnotN, hdie] using howner

/-- Settles O15: each of the four passes its checks. -/
theorem feedsCheckinsAndFencing : Obligations.FeedsCheckinsAndFencing :=
  ⟨fun _ _ _ _ _ _ _ _ _ hs howns hloading hfenced hj hr hkind hfed hforeign hdie hctx hi hseq hera hdata hlength hahead =>
    feedSamples_awaits hs howns hloading hfenced hj hr hkind hfed hforeign hdie hctx hi hseq hera hdata hlength hahead,
    fun _ _ _ _ _ _ _ hs howns hloading hfenced hj hr hkind hfed hforeign hdie hctx hi hrows hlength hroom =>
    feedMessage_awaits hs howns hloading hfenced hj hr hkind hfed hforeign hdie hctx hi hrows hlength hroom,
    fun _ _ _ _ _ _ _ hs howns hruns hl hk hx hsource hslot => checkin_counts hs howns hruns hl hk hx hsource hslot,
    fun _ _ _ _ _ hs hd hcluster hcore hright hdie => fenceCore_sent hs hd hcluster hcore hright hdie⟩

end Sys2Proof.Machine
end

section
/-! SUPPORT. Proofs/TimeActions.lean: the time actions, and the source of TB_APP (R275, R389, R390, R391, R410, R411). -/

namespace Sys2Proof.Machine

/-! ### Safety rights -/

theorem hasSafetyRights_accept {h : Hdr} {s : State} (hrights : HasSafetyRights h s) : HasSafetyRights h (accept h s) := by
  simpa [HasSafetyRights, sealRights, sealNow] using hrights

theorem safetyRights_pass {h : Hdr} {s : State} (hrights : HasSafetyRights h s) : ∀ e ∈ safetyRights s h, e.1 = false := by
  obtain ⟨hseat | ⟨hseat, hseal⟩, hfault⟩ := hrights
  · simp [safetyRights, hseat, hfault]
  · simp [safetyRights, hseat, hseal, hfault]

theorem safetyRights_accept_pass {h : Hdr} {s : State} (hrights : HasSafetyRights h s) :
    ∀ e ∈ safetyRights (accept h s) h, e.1 = false := safetyRights_pass (hasSafetyRights_accept hrights)

/-- A seal fault alone decides the status of a seat that could have safety rights, where nothing else refuses the item (R410). -/
theorem lowest_safetyRights_sealed {h : Hdr} {s : State} (hseat : h.seat = .a ∨ h.seat = .s) (hfault : s.sio.fault = true)
    {l : List (Bool × Nat)} (hl : lowest l = stOk) : lowest (safetyRights s h ++ l) = eSeal := by
  have hfirst (right : Bool) : lowest ([(false, eRights), (right, eSeal), (true, eSeal)] ++ l) = eSeal := by
    cases right <;> simp [lowest, hl, eSeal, stOk]
  have hrights : safetyRights s h = [(false, eRights), (h.seat == .a && !sealRights s, eSeal), (true, eSeal)] := by
    rcases hseat with hseat | hseat <;> simp [safetyRights, hseat, hfault]
  rw [hrights, hfirst]

section
variable {c : Instr} {h : Hdr} {checks : State → List (Bool × Nat)} {f : State → State} {s : State}

/-- A SAFETY_SET item that nothing refuses has its effect (R275). -/
theorem safetySet_done (hexec : exec c s = command h (fun s => finish h (lowest (safetyRights s h ++ checks s)) f s) s)
    (hs : serving s h.seat = true) (hrights : HasSafetyRights h s) (hchecks : lowest (checks (accept h s)) = stOk) :
    Answers c s (complete h 0 (f (accept h s))) := by
  refine answers_command hexec hs ?_
  rw [lowest_append_of_pass (safetyRights_accept_pass hrights), hchecks, finish_ok, stOk]

/-- Under a seal fault it has none, and completes with E_SEAL (R410). -/
theorem safetySet_sealed (hexec : exec c s = command h (fun s => finish h (lowest (safetyRights s h ++ checks s)) f s) s)
    (hs : serving s h.seat = true) (hseat : h.seat = .a ∨ h.seat = .s) (hfault : s.sio.fault = true)
    (hchecks : lowest (checks (accept h s)) = stOk) : Answers c s (complete h 0x0C (accept h s)) := by
  refine answers_command hexec hs ?_
  rw [lowest_safetyRights_sealed hseat (by rwa [accept_sio]) hchecks, finish_refused _ _ _ _ (by decide), eSeal]

end

/-! ### Time actions -/

@[simp] theorem baseOf_accept (h : Hdr) (s : State) (b : Nat) : baseOf (accept h s) b = baseOf s b := by simp [baseOf]

theorem timeActStatus_accept (a : TimeAct) (b : Nat) (h : Hdr) (s : State) : timeActStatus a b (accept h s) = timeActStatus a b s := by
  simp [timeActStatus]

/-- What an action needs of its base, beside that it is SET (R389). -/
def ActReady (a : TimeAct) (x : Base) : Prop :=
  match a with
  | .step n => n ≠ 0
  | .adopt => x.shift = true
  | .dismiss => True
  | .pathAck => x.pathChg = true

theorem timeActStatus_ok {a : TimeAct} {b : Nat} {s : State} (hlow : 1 ≤ b) (hhigh : b ≤ 3) (hset : (baseOf s b).set = true)
    (hready : ActReady a (baseOf s b)) : timeActStatus a b s = stOk := by
  have hb : b ≠ 0 ∧ ¬3 < b := by omega
  refine lowest_eq_ok ?_
  cases a with
  | step n => simpa [hb, hset, ActReady] using hready
  | adopt => simpa [hb, hset, ActReady] using fun _ => hready
  | dismiss => simp [hb, hset]
  | pathAck => simpa [hb, hset, ActReady] using fun _ => hready

/-- A register write of a ready action has its effect. -/
theorem timeAct_reg {a : TimeAct} {b : Nat} {s : State} (hok : timeActStatus a b s = stOk) :
    timeAct .reg a b s = .next (timeActEffect a b s) := by
  rw [timeAct, hok]
  rfl

/-- The one check of an action beside those of the rights. -/
theorem timeAct_checks {a : TimeAct} {b : Nat} {h : Hdr} {s : State} (hok : timeActStatus a b s = stOk) :
    lowest [(true, timeActStatus a b (accept h s))] = stOk := by
  rw [timeActStatus_accept, hok]
  rfl

/-- A command of a ready action from a seat with safety rights has its effect and completes. -/
theorem timeAct_cmd {a : TimeAct} {b : Nat} {h : Hdr} {s : State} {c : Instr} (hexec : exec c s = timeAct (.cmd h) a b s)
    (hs : serving s h.seat = true) (hrights : HasSafetyRights h s) (hok : timeActStatus a b s = stOk) :
    Answers c s (complete h 0 (timeActEffect a b (accept h s))) :=
  safetySet_done (checks := fun s => [(true, timeActStatus a b s)]) hexec hs hrights (timeAct_checks hok)

theorem stepAccepted_accept (b : Nat) (amount : Int) (h : Hdr) (s : State) :
    stepAccepted b amount (accept h s) =
      modBase b (fun x => { x with pending := x.pending ++ [(tbSafe s + 50000, amount)], stepAmt := amount }) (accept h s) := by
  rw [stepAccepted, tbSafe_accept]

/-- Settles O16: each action is ready on its base, so it has its effect by a register write and by a command. -/
theorem timeActions : Obligations.TimeActions := by
  intro b s hlow hhigh hset
  have ready {a : TimeAct} (hready : ActReady a (baseOf s b)) : timeActStatus a b s = stOk := timeActStatus_ok hlow hhigh hset hready
  refine ⟨fun n hn => timeAct_reg (ready (a := .step n) hn), fun hshift => timeAct_reg (ready (a := .adopt) hshift),
    timeAct_reg (ready (a := .dismiss) trivial), fun hpath => timeAct_reg (ready (a := .pathAck) hpath), fun h hs hrights => ?commands⟩
  case commands =>
    refine ⟨fun n hn => ?step, fun hshift => ?adopt, timeAct_cmd (a := .dismiss) rfl hs hrights (ready trivial),
      fun hpath => timeAct_cmd (a := .pathAck) rfl hs hrights (ready hpath)⟩
    case step =>
      rw [← stepAccepted_accept]
      exact timeAct_cmd (a := .step n) rfl hs hrights (ready hn)
    case adopt =>
      rw [← stepAccepted_accept, ← baseOf_accept h s b]
      exact timeAct_cmd (a := .adopt) rfl hs hrights (ready hshift)

/-! ### The source of TB_APP -/

theorem sourceBound_accept (h : Hdr) (s : State) (src : Nat) : sourceBound (accept h s) src = sourceBound s src := by
  simp [sourceBound]

/-- The status of TIME_CFG of TB_APP from a seat with safety rights. -/
theorem timeCfg_app_status {h : Hdr} {s : State} (hrights : HasSafetyRights h s) (src : Nat) :
    lowest (safetyRights (accept h s) h ++ [((3 : Nat) == 0 || decide (3 < 3), eFormat), ((3 : Nat) == 3 && sourceBound (accept h s) src, eState)]) =
      if sourceBound s src then eState else stOk := by
  rw [lowest_append_of_pass (safetyRights_accept_pass hrights), sourceBound_accept]
  cases sourceBound s src <;> rfl

/-- What a written SOURCE does to TB_APP: another one clears its run and flags (R391). -/
theorem timeCfgEffect_app (ctrl gain limit hold : Nat) (s : State) :
    (timeCfgEffect 3 ctrl gain limit hold s).time.app = { limitWrite limit (ctrlWrite 3 ctrl s.time.app) with
      kp := fld gain 15 0, ki := fld gain 31 16,
      pathHold := if hold % 256 = 0 then (limitWrite limit (ctrlWrite 3 ctrl s.time.app)).pathHold else hold % 256 } := rfl

theorem ctrlWrite_app_other {v : Nat} {x : Base} (h : fld v 2 1 ≠ x.source) :
    ctrlWrite 3 v x = { x with
      feed := bitOf v 0, hold := bitOf v 3, source := fld v 2 1, run := 0, jump := false, shift := false } := by
  rw [ctrlWrite, if_pos rfl, if_neg h]

/-- Settles O17: a source that is bound elsewhere is refused, another one is written, and source 3 gives no sample. -/
theorem sourceOfTheApplicationBase : Obligations.SourceOfTheApplicationBase := by
  refine ⟨fun h ctrl gain limit hold s hs hrights hbound => ?refused, fun h ctrl gain limit hold s hs hrights hfree hother => ?written,
    fun s hsource => ?none⟩
  case refused =>
    refine answers_command rfl hs ?_
    rw [timeCfg_app_status hrights, if_pos hbound, finish_refused _ _ _ _ (by decide)]
    rfl
  case written =>
    refine ⟨_, answers_finish (f := fun _ s => storeSetting 9 3 (.timeCfg h 3 ctrl gain limit hold)
      (timeCfgEffect 3 ctrl.toNat gain.toNat limit.toNat hold s)) rfl hs ?_ rfl, ?_⟩
    · rw [timeCfg_app_status hrights, hfree]
      rfl
    · simp [storeSetting, timeCfgEffect_app, limitWrite, ctrlWrite_app_other hother]
  case none => simp [Answers, exec, execAppSample, hsource]

end Sys2Proof.Machine
end

section
/-! SUPPORT. Proofs/TimeSamples.lean: samples of the bases, and a step that takes effect (R384, R385, R390 to R395, R399). -/

namespace Sys2Proof.Machine

/-- A base that is a disciplined one reads as it was changed. -/
theorem baseOf_modBase_same {b : Nat} (hlow : 1 ≤ b) (hhigh : b ≤ 3) (f : Base → Base) (s : State) :
    baseOf (modBase b f s) b = f (baseOf s b) := by
  obtain rfl | rfl | rfl : b = 1 ∨ b = 2 ∨ b = 3 := by omega
  all_goals rfl

theorem baseOf_icuEvent (n : Nat) (s : State) (b : Nat) : baseOf (icuEvent n s) b = baseOf s b := by
  simp [baseOf]

/-- A step of a base moves its count and nothing else of it (R380). -/
theorem baseOf_applyStep {b : Nat} (hlow : 1 ≤ b) (hhigh : b ≤ 3) (amount : Int) (s : State) :
    baseOf (applyStep b amount s) b = { baseOf s b with count := unsgn 64 ((baseOf s b).count + amount) } := by
  unfold applyStep
  dsimp only
  split
  · exact baseOf_modBase_same hlow hhigh _ s
  · rw [baseOf_icuEvent]
    exact baseOf_modBase_same hlow hhigh _ s

/-- The first sample sets an UNSET base, and moves it by the offset (R385). -/
theorem baseOf_onOffset_unset {b : Nat} (hlow : 1 ≤ b) (hhigh : b ≤ 3) {theta : Int} {s : State} (hunset : (baseOf s b).set = false) :
    baseOf (onOffset b theta s) b = { baseOf s b with set := true, count := unsgn 64 ((baseOf s b).count + -theta) } := by
  have hsets : onOffset b theta s = modBase b (fun x => { x with set := true }) (applyStep b (-theta) s) := by
    simp [onOffset, hunset]
  rw [hsets, baseOf_modBase_same hlow hhigh, baseOf_applyStep hlow hhigh]

/-- The oldest sample that the engine of a base's port has computed leaves its list. -/
def sampleLeaves (b : Nat) (s : State) : State := modNet (b - 1) (fun x => { x with samples := x.samples.drop 1 }) s

theorem baseOf_sampleLeaves (b k : Nat) (s : State) : baseOf (sampleLeaves b s) k = baseOf s k := by
  simp [baseOf, sampleLeaves]

/-- A sample that the port's engine has computed is taken (R384). -/
theorem offsetSample_taken {b : Nat} {theta : Int} {s : State} (hb : b = 1 ∨ b = 2) (hfeed : (baseOf s b).feed = true)
    (hsample : (netPort s (b - 1)).samples.head? = some theta) :
    Answers (.offsetSample b none theta) s (onOffset b theta (sampleLeaves b s)) := by
  simp [Answers, exec, execOffsetSample, sampleLeaves, hb, hfeed, hsample]

/-- Settles O18: each sample is taken under its conditions, the first one by `baseOf_onOffset_unset`. -/
theorem samplesOfTheBases : Obligations.SamplesOfTheBases := by
  refine ⟨fun b w theta s hb => ⟨fun hfeed hhalted => ?written, offsetSample_taken hb, fun hfeed hhalted => ?path,
    fun hfeed hsample hunset => ?first⟩, fun s hms hsource hset => ?app, fun s hms hen hna hnb => ?xd, fun b s hlow hwrap => ?wrap⟩
  case written =>
    have hwrite : offsetWrite b w.toNat s = onOffset b (sgn 64 (w.toNat * 2 ^ 32 + (baseOf s b).offLo.toNat))
        (modBase b (fun x => { x with offLo := 0 }) s) := if_pos ⟨hb, hfeed⟩
    rw [← hwrite]
    simp [Answers, exec, execOffsetSample, hb, hhalted]
  case path => simp [Answers, exec, execPathSample, hfeed, hhalted]
  case first =>
    have hrange : 1 ≤ b ∧ b ≤ 3 := by omega
    obtain ⟨hlow, hhigh⟩ := hrange
    refine ⟨_, offsetSample_taken hb hfeed hsample, ?_⟩
    rw [baseOf_onOffset_unset hlow hhigh (by rwa [baseOf_sampleLeaves]), baseOf_sampleLeaves, Int.sub_eq_add_neg]
    exact ⟨rfl, rfl⟩
  case app => simp [Answers, exec, execAppSample, hms, hsource, hset]
  case xd => simp [Answers, exec, execXdSample, hms, hen, hna, hnb]
  case wrap => rw [Answers, exec, execTimebaseWrap, if_pos ⟨hlow, .inl hwrap⟩]

/-- Settles O19: a due step is taken, in the parts that the statement names. -/
theorem stepIsApplied : Obligations.StepIsApplied := by
  intro b at_ n s hdue
  simp only [Answers, exec, execStepApply, hdue]

end Sys2Proof.Machine
end

section
/-! SUPPORT. Proofs/SafetySettings.lean: the items of SAFETY_SET and the watchdog commands, with and without a seal fault (R275, R348, R405,
R410 to R412). -/

namespace Sys2Proof.Machine

/-! ### Values in range -/

theorem timeCfg_checks {b src : Nat} {h : Hdr} {s : State} (hlow : 1 ≤ b) (hhigh : b ≤ 3) (hfree : b = 3 → sourceBound s src = false) :
    lowest [(b == 0 || decide (3 < b), eFormat), (b == 3 && sourceBound (accept h s) src, eState)] = stOk := by
  have hb : b ≠ 0 := by omega
  refine lowest_eq_ok ?_
  simpa [hb, Nat.not_lt.mpr hhigh, sourceBound_accept] using hfree

theorem netCfg_checks {port : Nat} (hport : port ≤ 1) : lowest [(decide (1 < port), eFormat)] = stOk := by
  simp [Nat.not_lt.mpr hport]

/-- Cycles that R411 allows for the telegram. -/
abbrev CyclesInRange (cfg : TgCfg) : Prop :=
  10 ≤ cfg.txCycle ∧ cfg.txCycle ≤ 1000 ∧ (cfg.rxCycle = 0 ∨ 10 ≤ cfg.rxCycle ∧ cfg.rxCycle ≤ 1000)

theorem telegram_checks {cfg : TgCfg} (h : CyclesInRange cfg) :
    lowest [(!cycleOk cfg.txCycle || !(cfg.rxCycle == 0 || cycleOk cfg.rxCycle), eFormat)] = stOk := by
  obtain ⟨hlow, hhigh, hrx⟩ := h
  refine lowest_eq_ok ?_
  obtain hoff | ⟨hrlow, hrhigh⟩ := hrx
  · simp [cycleOk, hlow, hhigh, hoff]
  · simp [cycleOk, hlow, hhigh, hrlow, hrhigh]

/-- Fields that R411 allows for a value slot. -/
abbrev SlotInRange (cfg : SlotCfg) : Prop :=
  cfg.slot ≤ 7 ∧ cfg.part ≤ 15 ∧ cfg.output ≤ 15 ∧ cfg.region ≤ 255 ∧ cfg.element ≤ 65535

theorem slot_checks {cfg : SlotCfg} {h : Hdr} {s : State} (hrange : SlotInRange cfg) (howner : h.seat = .a → ownerNo s cfg.part = 0) :
    lowest [(h.seat == .a && !(ownerNo (accept h s) cfg.part == 0), eRights),
      (decide (7 < cfg.slot) || decide (15 < cfg.part) || decide (15 < cfg.output) || decide (255 < cfg.region) ||
        decide (65535 < cfg.element), eFormat)] = stOk := by
  obtain ⟨hslot, hpart, houtput, hregion, helement⟩ := hrange
  refine lowest_eq_ok ?_
  simpa [hslot, hpart, houtput, hregion, helement] using howner

theorem modeOk_of_range {mode width : Nat} (hmode : mode ≤ 1) (hlow : 1 ≤ width) (hhigh : width ≤ 100) : modeOk mode width = true := by
  simp [modeOk, hmode, hlow, hhigh]

theorem wdgMode_checks {unit mode width : Nat} (hunit : unit ≤ 7) (hmode : modeOk mode width = true) :
    lowest [(decide (7 < unit) || !modeOk mode width, eFormat)] = stOk := by
  simp [Nat.not_lt.mpr hunit, hmode]

/-- Settles O20: each item has values in range, so it takes effect. -/
theorem settingsTakeEffectAndAreStored : Obligations.SettingsTakeEffectAndAreStored := by
  refine fun h s hs hrights => ⟨?timeCfg, ?xd, ?netCfg, ?telegram, ?slot, ?wdgMode⟩
  case timeCfg =>
    exact fun b ctrl gain limit hold hlow hhigh hfree => safetySet_done
      (checks := fun s => [(b == 0 || decide (3 < b), eFormat), (b == 3 && sourceBound s (fld ctrl.toNat 2 1), eState)])
      (f := fun s => storeSetting 9 b (.timeCfg h b ctrl gain limit hold) (timeCfgEffect b ctrl.toNat gain.toNat limit.toNat hold s))
      rfl hs hrights (timeCfg_checks hlow hhigh hfree)
  case xd =>
    intro cfg
    have hwrite : { accept h s with time := { s.time with xdBound := cfg.toNat % 65536, xdEn := bitOf cfg.toNat 16 } } =
        xdWrite cfg.toNat (accept h s) := by
      simp [xdWrite, fld]
    rw [hwrite]
    exact safetySet_done (checks := fun _ => []) (f := fun s => storeSetting 10 0 (.xd h cfg) (xdWrite cfg.toNat s)) rfl hs hrights rfl
  case netCfg =>
    exact fun port addr mask gw tscfg hport => safetySet_done (checks := fun _ => [(decide (1 < port), eFormat)])
      (f := fun s => storeSetting 11 port (.netCfg h port addr mask gw tscfg) (netCfgEffect port addr mask gw tscfg s))
      rfl hs hrights (netCfg_checks hport)
  case telegram =>
    exact fun cfg hlow hhigh hrx => safetySet_done
      (checks := fun _ => [(!cycleOk cfg.txCycle || !(cfg.rxCycle == 0 || cycleOk cfg.rxCycle), eFormat)])
      (f := fun s => storeSetting 16 0 (.telegram h cfg) (telegramEffect cfg s)) rfl hs hrights (telegram_checks ⟨hlow, hhigh, hrx⟩)
  case slot =>
    exact fun cfg hslot hpart houtput hregion helement howner => safetySet_done
      (checks := fun s => [(h.seat == .a && !(ownerNo s cfg.part == 0), eRights),
        (decide (7 < cfg.slot) || decide (15 < cfg.part) || decide (15 < cfg.output) || decide (255 < cfg.region) ||
          decide (65535 < cfg.element), eFormat)])
      (f := fun s => storeSetting 17 cfg.slot (.slot h cfg) (slotEffect cfg s)) rfl hs hrights
      (slot_checks ⟨hslot, hpart, houtput, hregion, helement⟩ howner)
  case wdgMode =>
    exact fun unit mode width hunit hmode hlow hhigh => safetySet_done
      (checks := fun _ => [(decide (7 < unit) || !modeOk mode width, eFormat)])
      (f := fun s => storeSetting 3 unit (.wdgMode h unit mode width) (wdgModeEffect unit mode width s)) rfl hs hrights
      (wdgMode_checks hunit (modeOk_of_range hmode hlow hhigh))

/-! ### Watchdog units -/

@[simp] theorem wdgUnit_accept (h : Hdr) (s : State) (unit : Nat) : wdgUnit (accept h s) unit = wdgUnit s unit := by simp [wdgUnit]

/-- The seat holds the unit, or is seat S and another seat holds it (R348). -/
abbrev MayRelease (h : Hdr) (u : WdgUnit) : Prop :=
  u.holder = 2 ∧ h.seat = .a ∨ u.holder = 3 ∧ h.seat = .b ∨ (u.holder = 2 ∨ u.holder = 3) ∧ h.seat = .s

/-- Of the reasons against WDG_RELEASE only a seal fault can stand for such a seat. -/
theorem wdgRelease_status {h : Hdr} {unit : Nat} {s : State} (hlow : 1 ≤ unit) (hhigh : unit ≤ 7) (hmay : MayRelease h (wdgUnit s unit)) :
    lowest [(h.seat == .n, eRights), ((decide (1 ≤ unit) && decide (unit ≤ 7)) && ((wdgUnit s unit).holder == 2 || (wdgUnit s unit).holder == 3) &&
      !(h.seat == .s || (wdgUnit s unit).holder == seatHolder h.seat), eRights), (s.sio.fault, eSeal),
      (!(decide (1 ≤ unit) && decide (unit ≤ 7)), eFormat),
      ((decide (1 ≤ unit) && decide (unit ≤ 7)) && !((wdgUnit s unit).holder == 2 || (wdgUnit s unit).holder == 3), eState)] =
      if s.sio.fault then eSeal else stOk := by
  have hsealed (fault : Bool) : lowest [(false, eRights), (false, eRights), (fault, eSeal), (false, eFormat), (false, eState)] =
      if fault then eSeal else stOk := by
    cases fault <;> rfl
  have hnamed : (decide (1 ≤ unit) && decide (unit ≤ 7)) = true := by simp [hlow, hhigh]
  have hright : (h.seat == .n) = false ∧ ((wdgUnit s unit).holder == 2 || (wdgUnit s unit).holder == 3) = true ∧
      (h.seat == .s || (wdgUnit s unit).holder == seatHolder h.seat) = true := by
    obtain ⟨hholder, hseat⟩ | ⟨hholder, hseat⟩ | ⟨hholder | hholder, hseat⟩ := hmay <;> simp [hholder, hseat, seatHolder]
  obtain ⟨hnotN, hheld, hmine⟩ := hright
  rw [hnamed, hnotN, hheld, hmine]
  exact hsealed s.sio.fault

/-- Values that R348 allows for a free unit that is taken. -/
structure TakeInRange (s : State) (unit mode width opn close : Nat) : Prop where
  unitLow : 1 ≤ unit
  unitHigh : unit ≤ 7
  mode : modeOk mode width = true
  limits : limitsOk opn close = true
  free : (wdgUnit s unit).holder = 0

/-- Of the reasons against WDG_TAKE of a free unit only a seal fault can stand for seats A and B. -/
theorem wdgTake_status {h : Hdr} {unit mode width opn close : Nat} {s : State} (hport : OnPort h) (hrange : TakeInRange s unit mode width opn close) :
    lowest [onlyAB h, (s.sio.fault, eSeal), (unit == 0 || decide (7 < unit) || !modeOk mode width || !limitsOk opn close, eFormat),
      (decide (1 ≤ unit) && decide (unit ≤ 7) && !((wdgUnit s unit).holder == 0), eState)] = if s.sio.fault then eSeal else stOk := by
  have hsealed (fault : Bool) : lowest [(false, eRights), (fault, eSeal), (false, eFormat), (false, eState)] =
      if fault then eSeal else stOk := by
    cases fault <;> rfl
  have hunit : unit ≠ 0 := Nat.ne_of_gt hrange.unitLow
  have hform : (unit == 0 || decide (7 < unit) || !modeOk mode width || !limitsOk opn close) = false := by
    simp [hunit, hrange.unitHigh, hrange.mode, hrange.limits]
  have hfree : (decide (1 ≤ unit) && decide (unit ≤ 7) && !((wdgUnit s unit).holder == 0)) = false := by simp [hrange.free]
  rw [onlyAB_of_onPort hport, hform, hfree]
  exact hsealed s.sio.fault

theorem limitsOk_of_range {opn close : Nat} (hlow : 100 ≤ close) (hhigh : close ≤ 60000000) (hopn : opn < close) :
    limitsOk opn close = true := by
  simp [limitsOk, hlow, hhigh, hopn]

theorem wdgRelease_answers {h : Hdr} {unit : Nat} {s : State} (hs : serving s h.seat = true) (hlow : 1 ≤ unit) (hhigh : unit ≤ 7)
    (hmay : MayRelease h (wdgUnit s unit)) :
    Answers (.wdgRelease h unit) s (finish h (if s.sio.fault then eSeal else stOk) (wdgFree unit) (accept h s)) := by
  refine answers_command rfl hs ?_
  dsimp only
  rw [wdgRelease_status hlow hhigh (by rwa [wdgUnit_accept]), accept_sio]

theorem wdgTake_answers {h : Hdr} {unit mode width opn close : Nat} {s : State} (hs : serving s h.seat = true) (hport : OnPort h)
    (hrange : TakeInRange s unit mode width opn close) :
    Answers (.wdgTake h unit mode width opn close) s
      (finish h (if s.sio.fault then eSeal else stOk) (takeUnit (seatHolder h.seat) unit mode width opn close) (accept h s)) := by
  refine answers_command rfl hs ?_
  dsimp only
  rw [wdgTake_status hport ⟨hrange.unitLow, hrange.unitHigh, hrange.mode, hrange.limits, by rw [wdgUnit_accept, hrange.free]⟩, accept_sio]

/-- Settles O21: with values in range the seal fault is the one reason that stands. -/
theorem sealFaultRefusesSafetyCommands : Obligations.SealFaultRefusesSafetyCommands := by
  intro h s hs hfault
  have act {a : TimeAct} {b : Nat} {c : Instr} (hexec : exec c s = timeAct (.cmd h) a b s) (hseat : h.seat = .a ∨ h.seat = .s)
      (hlow : 1 ≤ b) (hhigh : b ≤ 3) (hset : (baseOf s b).set = true) (hready : ActReady a (baseOf s b)) :
      Answers c s (complete h 0x0C (accept h s)) :=
    safetySet_sealed (checks := fun s => [(true, timeActStatus a b s)]) hexec hs hseat hfault
      (timeAct_checks (timeActStatus_ok hlow hhigh hset hready))
  refine ⟨fun hseat => ?items, fun unit hlow hhigh hmay => ?release,
    fun hport unit mode width opn close hlow hhigh hmode hwidth hwidth' hclose hclose' hopn hfree => ?take⟩
  case items =>
    refine ⟨fun hsafe halarm hfence hmode => ?okayRelease, fun cfg => safetySet_sealed (checks := fun _ => []) rfl hs hseat hfault rfl,
      fun port addr mask gw tscfg hport => safetySet_sealed (checks := fun _ => [_]) rfl hs hseat hfault (netCfg_checks hport),
      fun cfg hlow hhigh hrx => safetySet_sealed (checks := fun _ => [_]) rfl hs hseat hfault (telegram_checks ⟨hlow, hhigh, hrx⟩),
      fun cfg hslot hpart houtput hregion helement howner => ?slot,
      fun unit mode width hunit hmode hlow hhigh =>
        safetySet_sealed (checks := fun _ => [_]) rfl hs hseat hfault (wdgMode_checks hunit (modeOk_of_range hmode hlow hhigh)),
      fun b n hlow hhigh hset hn => act (a := .step n) rfl hseat hlow hhigh hset hn, fun b ctrl gain limit hold hlow hhigh hfree => ?timeCfg,
      fun b hlow hhigh hset => ⟨fun hshift => act (a := .adopt) rfl hseat hlow hhigh hset hshift,
        act (a := .dismiss) rfl hseat hlow hhigh hset trivial, fun hpath => act (a := .pathAck) rfl hseat hlow hhigh hset hpath⟩⟩
    case okayRelease =>
      obtain ⟨-, hsealed, -⟩ := releaseOfOkay h s hs
      exact hsealed hseat (.inl hfault) hsafe halarm hfence hmode
    case slot =>
      exact safetySet_sealed (checks := fun s => [(h.seat == .a && !(ownerNo s cfg.part == 0), eRights), _]) rfl hs hseat hfault
        (slot_checks ⟨hslot, hpart, houtput, hregion, helement⟩ howner)
    case timeCfg =>
      exact safetySet_sealed (checks := fun s => [_, (b == 3 && sourceBound s (fld ctrl.toNat 2 1), eState)]) rfl hs hseat hfault
        (timeCfg_checks hlow hhigh hfree)
  case release =>
    have hanswers := wdgRelease_answers hs hlow hhigh hmay
    rwa [if_pos hfault, finish_refused _ _ _ _ (by decide)] at hanswers
  case take =>
    have hanswers := wdgTake_answers hs hport
      ⟨hlow, hhigh, modeOk_of_range hmode hwidth hwidth', limitsOk_of_range hclose hclose' hopn, hfree⟩
    rwa [if_pos hfault, finish_refused _ _ _ _ (by decide)] at hanswers

/-- Settles O22: without a seal fault no reason stands. -/
theorem watchdogUnitsChangeHands : Obligations.WatchdogUnitsChangeHands := by
  intro h s hs hfault
  have hclear : ¬s.sio.fault = true := Bool.eq_false_iff.mp hfault
  refine ⟨fun unit mode width opn close hport hlow hhigh hmode hwidth hwidth' hclose hclose' hopn hfree => ?take,
    fun unit hlow hhigh hmay => ?release, fun hrights hsafe halarm hfence hmode => ?okayRelease⟩
  case take =>
    have hanswers := wdgTake_answers hs hport
      ⟨hlow, hhigh, modeOk_of_range hmode hwidth hwidth', limitsOk_of_range hclose hclose' hopn, hfree⟩
    rwa [if_neg hclear, finish_ok] at hanswers
  case release =>
    have hanswers := wdgRelease_answers hs hlow hhigh hmay
    rwa [if_neg hclear, finish_ok] at hanswers
  case okayRelease =>
    have hfree : ¬releaseBlocked s = true := by simp [releaseBlocked, hsafe, halarm, hfence, hmode]
    exact okayRelease_done hs (by rw [releaseStatus_of_rights hrights, if_neg hfree])

end Sys2Proof.Machine
end

section
/-! SUPPORT. Proofs/PowerStates.lean: SLEEP that nothing refuses, the duty tick, the end of an entry to NAP, waking and the resets (R457,
R458, R462 to R468, R499). -/

namespace Sys2Proof.Machine

/-! ### SLEEP -/

/-- A SLEEP that nothing refuses enters a state other than the present one, where no wake source keeps the device from it. -/
theorem sleep_enters {h : Hdr} {target : Nat} {enter : State → State} {s : State} (hs : serving s h.seat = true)
    (hstatus : sleepStatus (accept h s) h target = 0) (hstate : target ≠ s.pwr.state)
    (hwake : target = 0 ∨ wakePresent (accept h s) (target == 3) = false) :
    sleep h target enter s = .next (enter (sleepNote target 0 (accept h s))) := by
  have hawake : ¬(target ≠ 0 ∧ wakePresent (accept h s) (target == 3) = true) := fun ⟨hnonzero, hpresent⟩ =>
    hwake.elim hnonzero fun hnone => Bool.false_ne_true (hnone.symm.trans hpresent)
  rw [sleep, command_taken h _ s hs]
  simp only [hstatus, accept_pwr, if_neg hstate, if_neg hawake, stOk, ne_eq, not_true_eq_false, if_false]

theorem sleepNote_accept (target outcome : Nat) (h : Hdr) (s : State) :
    sleepNote target outcome (accept h s) = { accept h s with pwr := { s.pwr with req := target, outcome := outcome } } := by
  rw [sleepNote, accept_pwr]

/-- Settles O23: each SLEEP is entered by `sleep_enters`; the others meet the conditions of their events. -/
theorem sleepEntersAndLeaves : Obligations.SleepEntersAndLeaves := by
  refine ⟨fun h s hs hseat => ⟨fun hstatus hdoze => ?run, fun hstatus hstate hwake => ?doze, fun hstatus hstate hwake => ?nap,
    fun timer hstatus hstate hwake => ?attic⟩, fun s hdoze hduty => ?dozeTick, fun h s u v hnapping hframes hdies hu hwake hpend hv => ?napEnds⟩
  case run =>
    rw [Answers, exec, execSleepRun, sleep_enters hs hstatus (by omega) (.inl rfl), sleepNote_accept]
    have hnotNap : ¬ (1 : Nat) = 2 := by decide
    simp only [hdoze, accept_pair, hnotNap, if_false, stOk]
  case doze =>
    rw [Answers, exec, execSleepDoze, sleep_enters hs hstatus (Ne.symm hstate) (.inr hwake), sleepNote_accept]
    simp only [splitNow, accept_pair, stOk]
  case nap => rw [Answers, exec, execSleepNap, sleep_enters hs hstatus (Ne.symm hstate) (.inr hwake)]
  case attic =>
    rw [Answers, exec, execSleepAttic, sleep_enters hs hstatus (Ne.symm hstate) (.inr hwake), sleepNote_accept]
    rfl
  case dozeTick => rw [Answers, exec, execDozeTick, if_pos ⟨hdoze, hduty⟩]
  case napEnds =>
    have hidle : (!s.frames.isEmpty || [0, 1, 2, 3].any fun d => (die s d).dReset.isSome) = false := by
      simp [hframes, hdies]
    rw [Answers, exec, execNapSelfRefresh, hnapping]
    simp only [hidle, ← hu, hpend, hwake, Bool.false_eq_true, if_false, Bool.or_false, Bool.false_and, ← hv, stOk]

/-! ### Waking -/

/-- Settles O24: each wake source meets the conditions of its exit. -/
theorem wakingStartsTheExit : Obligations.WakingStartsTheExit := by
  refine fun balls s => ⟨fun lowNs hlow hboot hnapping hnap hwaking => ?nap, fun lowNs hlow hoff => ?attic, fun n hoff hn hn' hset => ?pin,
    fun hoff hlow hset => ?safeReq, fun hoff htimer htime => ?timer⟩
  case nap =>
    have hlong : ¬lowNs < 1000 := Nat.not_lt.mpr hlow
    have htaken : wakeTaken lowNs balls (wakeSeen lowNs s) = beginNapExit none (wakeSeen lowNs s) := by
      simp [wakeTaken, wakeSeen, hboot, hlong, hnapping, hnap, hwaking]
    rw [Answers, exec, execWakeN, htaken]
  case attic =>
    have htaken : wakeTaken lowNs balls (wakeSeen lowNs s) = atticWake 1 0 balls (wakeSeen lowNs s) := by
      rw [wakeTaken, wakeSeen, if_pos hoff, if_pos hlow]
    rw [Answers, exec, execWakeN, htaken]
  case pin =>
    have hevent : n ≠ 121 := by omega
    simp [Answers, exec, execAtticPinWake, atticPin, hoff, hn, hn', hset, hevent]
  case safeReq => simp [Answers, exec, execAtticPinWake, atticPin, hoff, hlow, hset]
  case timer => rw [Answers, exec, execAtticTimerWake, if_pos ⟨hoff, htimer, htime⟩]

/-! ### Resets -/

/-- Settles O25: each reset meets the conditions of its event, and SYSTEM_RESET and DIE_RESET pass their checks. -/
theorem resetsBringTheDeviceUp : Obligations.ResetsBringTheDeviceUp := by
  refine ⟨fun balls s => ⟨rfl, fun lowNs hlow => ?long, fun lowNs hlow => ?short, fun supply lowNs hlow hboot => ?brownout⟩,
    fun h s hs hseat => ?systemReset, fun h d s hs hseat hd hpresent hfree hnap => ?dieReset⟩
  case long =>
    have hlong : ¬lowNs < 1000 := by omega
    rw [Answers, exec, execResetN, if_neg hlong, if_pos hlow]
  case short => rw [Answers, exec, execResetN, if_pos hlow]
  case brownout =>
    have htripped : ¬(lowNs < 500 ∨ (s.boot = .off ∧ supply ≠ .vddAtt)) := by
      rintro (hshort | ⟨hoff, -⟩)
      · omega
      · exact hboot hoff
    rw [Answers, exec, execSupplyBrownout, if_neg htripped, if_pos hlow]
  case systemReset =>
    have hright : onlyAS h = (false, eRights) := by rcases hseat with hseat | hseat <;> simp [onlyAS, hseat]
    refine answers_command rfl hs ((if_pos (lowest_eq_ok (by simp [hright]))).trans ?_)
    rw [resetY, ballsNow, stOk]
  case dieReset =>
    refine answers_command rfl (by rwa [hseat]) (if_pos (lowest_eq_ok ?_))
    simpa [onlyS, hseat, Nat.not_lt.mpr hd, hpresent, hfree, inNap] using hnap

end Sys2Proof.Machine
end

section
/-! SUPPORT. Proofs/Updates.lean: the update commands that nothing refuses, and the ends of what they begin (R432, R441 to R451). -/

namespace Sys2Proof.Machine

/-! ### A command that has been accepted leaves the update unit alone -/

@[simp] theorem kindOf_accept (h : Hdr) (s : State) (k : Nat) : kindOf (accept h s) k = kindOf s k := by
  simp [kindOf]

@[simp] theorem inTrial_accept (h : Hdr) (s : State) (k : Nat) : inTrial (accept h s) k = inTrial s k := by
  simp [inTrial]

/-- One of the three kinds passes R432's checks while firmware serves. -/
theorem kindChecks_pass {k : Nat} {s : State} (hlow : 1 ≤ k) (hhigh : k ≤ 3) (hrom : s.upd.seatSOnly = false) :
    ∀ e ∈ kindChecks s k, e.1 = false := by
  have hk : k ≠ 0 := by omega
  simp [kindChecks, hk, Nat.not_lt.mpr hhigh, hrom]

theorem notB_of_ne {h : Hdr} (hseat : h.seat ≠ .b) : notB h = (false, eRights) := by
  simp [notB, hseat]

theorem onlyAS_of_as {h : Hdr} (hseat : h.seat = .a ∨ h.seat = .s) : onlyAS h = (false, eRights) := by
  rcases hseat with hseat | hseat <;> simp [onlyAS, hseat]

/-- The status of an update command of seat A or S: its own checks `r` alone decide. -/
theorem updStatus_ok {h : Hdr} {k : Nat} {s : State} {r : List (Bool × Nat)} (hseat : h.seat = .a ∨ h.seat = .s) (hlow : 1 ≤ k) (hhigh : k ≤ 3)
    (hrom : s.upd.seatSOnly = false) (hr : ∀ e ∈ r, e.1 = false) : lowest (onlyAS h :: kindChecks s k ++ r) = stOk := by
  rw [onlyAS_of_as hseat, List.cons_append, lowest_cons_false, lowest_append_of_pass (kindChecks_pass hlow hhigh hrom)]
  exact lowest_eq_ok hr

/-- Chunk 0 at offset 0 of a kind in which nothing is under way. -/
theorem downloadStatus_first {h : Hdr} {k len : Nat} {s : State} (hseat : h.seat ≠ .b) (hlow : 1 ≤ k) (hhigh : k ≤ 3)
    (hrom : s.upd.seatSOnly = false) (hcurrent : s.upd.current = 0 ∨ s.upd.current = k) (htrial : inTrial s k = false)
    (hcommit : (kindOf s k).committing = none) (hpartial : (kindOf s k).partial_ = []) (hlen : len ≤ 29920) :
    downloadStatus s h k 0 0 len = stOk := by
  have hother : (!(s.upd.current == 0) && !(s.upd.current == k)) = false := by
    rcases hcurrent with hc | hc <;> simp [hc]
  rw [downloadStatus, notB_of_ne hseat, List.cons_append, lowest_cons_false, lowest_append_of_pass (kindChecks_pass hlow hhigh hrom)]
  refine lowest_eq_ok ?_
  simp [hother, htrial, hcommit, hpartial, Nat.not_lt.mpr hlen]

theorem updRuns_of_firmware {s : State} (hhalted : s.pair.halted = false) (hrestart : s.upd.restart = false) : updRuns s = true := by
  simp [updRuns, hhalted, hrestart]

theorem modKind_congr {k : Nat} {f g : Kind → Kind} {s : State} (h : f (kindOf s k) = g (kindOf s k)) : modKind k f s = modKind k g s := by
  unfold kindOf at h
  simp only [modKind, tblMod, h]

theorem verifyEnds_of_stage {k : Nat} (h : Hdr) {s : State} (hstage : (kindOf s k).stage = 3) :
    verifyEnds k h s = updEnds h k (slotStatus s.upd.aesSlot k (kindOf s k) true) 0 0 (icuEvent 136 (modKind k (fun x => { x with
      verifying := none, stage := if slotStatus s.upd.aesSlot k x true = 0 then 4 else 2 }) s)) := by
  rw [verifyEnds, if_pos hstage]
  refine congrArg (fun u => updEnds h k _ 0 0 (icuEvent 136 u)) (modKind_congr ?_)
  rw [if_pos hstage, stOk]

@[simp] theorem logError_releaseX (kind unit prt d0 d1 : Nat) (s : State) : (logError kind unit prt d0 d1 s).releaseX = s.releaseX := by
  unfold logError
  extract_lets sec p n
  split <;> rfl

@[simp] theorem bootKind_releaseX (k : Nat) (s : State) : (bootKind k s).releaseX = s.releaseX := by
  unfold bootKind
  extract_lets x failed u
  split
  · rfl
  · split
    · exact logError_releaseX ..
    · rfl

/-- Settles O27: no check of R432 stands, so the command begins its work; a chunk's and a verification's end find it noted. -/
theorem updatesAreDownloadedAndVerified : Obligations.UpdatesAreDownloadedAndVerified := by
  refine ⟨?first, ?poll, ?commit, ?verify, ?verified⟩
  case first =>
    intro h k crc data s hs hseat hlow hhigh hrom hcurrent htrial hcommit hpartial hdata hlen
    have hstatus : downloadStatus (accept h s) h k 0 0 data.length = stOk :=
      downloadStatus_first hseat hlow hhigh (by simpa using hrom) (by simpa using hcurrent) (by simpa using htrial) (by simpa using hcommit)
        (by simpa using hpartial) hlen
    refine answers_romCommand rfl hs ?_
    simp [hdata, hstatus]
  case poll =>
    intro h k chunk offset crc s hs hseat hlow hhigh hrom
    have hstatus : lowest (notB h :: kindChecks (accept h s) k) = stOk := by
      rw [notB_of_ne hseat, lowest_cons_false]
      exact lowest_eq_ok (kindChecks_pass hlow hhigh (by simpa using hrom))
    refine answers_romCommand rfl hs ?_
    simp [hstatus, stOk]
  case commit =>
    intro h k s hkind hhalted hrestart
    simp [Answers, exec, execChunkCommit, hkind, updRuns_of_firmware hhalted hrestart]
  case verify =>
    intro h k s hs hseat hlow hhigh hrom hstage hidle
    refine answers_romCommand rfl hs (if_pos (updStatus_ok hseat hlow hhigh (by simpa using hrom) ?_))
    simp [hstage, hidle]
  case verified =>
    intro h k s hkind hstage hhalted hrestart
    simp [Answers, exec, execVerifyDone, hkind, updRuns_of_firmware hhalted hrestart, verifyEnds_of_stage h hstage]

/-- Settles O28: the trial begins, is confirmed or reverted, and the restart ends, each under the conditions that its command tests. -/
theorem trialsBeginAndEnd : Obligations.TrialsBeginAndEnd := by
  refine ⟨?activate, ?restart, ?confirm, ?window1, ?window2, ?window3⟩
  case activate =>
    intro h k window s hs hseat hlow hhigh hrom hwindow hstage hparts
    have hrange : (!(window == 0) && (decide (window < 60) || decide (3600 < window))) = false := by
      rcases hwindow with rfl | ⟨hmin, hmax⟩
      · rfl
      · simp [Nat.not_lt.mpr hmin, Nat.not_lt.mpr hmax]
    have hempty : (k == 2 && (accept h s).parts.any (fun e => !(e.2.st == 0))) = false := by
      simpa using hparts
    refine answers_romCommand rfl hs (if_neg (not_not_intro (updStatus_ok hseat hlow hhigh (by simpa using hrom) ?_)))
    simp only [List.mem_cons, List.not_mem_nil, or_false, forall_eq_or_imp, forall_eq]
    exact ⟨hrange, by simp [hstage], hempty⟩
  case restart =>
    intro s hrestart hrom hrelease
    simp [Answers, exec, execActivationRestartDone, restartEnds, hrestart, hrom, bootKind_releaseX, Option.isSome_iff_ne_none.mp hrelease]
  case confirm =>
    intro h k s hs hseat hlow hhigh hrom htrial
    refine answers_romCommand rfl hs ?_
    dsimp only
    rw [if_neg (not_not_intro (updStatus_ok hseat hlow hhigh (by simpa using hrom) (by simp [htrial])))]
    simp [stageEvent, stOk]
  case window1 =>
    intro s h1
    simp [Answers, exec, execTrialWindowExpiry, h1]
  case window2 =>
    intro s h1 h2
    simp [Answers, exec, execTrialWindowExpiry, h1, h2]
  case window3 =>
    intro s h1 h2 h3
    simp [Answers, exec, execTrialWindowExpiry, h1, h2, h3]

end Sys2Proof.Machine
end

section
/-! SUPPORT. Proofs/PairAndDebugger.lean: lockstep split and rejoined, what the debugger does, and what the faults of the pair latch
(R306 to R324). -/

namespace Sys2Proof.Machine

/-! ### The rejoin (R323) -/

/-- The end of the checker's target moves interrupt sources only. -/
theorem checkerTargetEnds_pair (s : State) : (checkerTargetEnds s).pair = s.pair :=
  List.foldlRecOn (motive := fun t : State => t.pair = s.pair) _ (fun t n => modSrc n (fun x => { x with pend := true }) t) rfl
    (fun _ ht _ _ => ht)

theorem tapTest_good (s : State) :
    tapTest ⟨true, true⟩ s = { s with pair := { s.pair with tapBit := (s.pair.tapBit + 1) % 128, tap := ⟨true, true⟩ } } := rfl

/-- Steps 1 to 4 of the rejoin, with a good tap test. -/
def rejoined (s : State) : State :=
  let s := resync (checkerTargetEnds s)
  tapTest ⟨true, true⟩ { s with pair := { s.pair with mode := 0, journal := [], overflow := false, asleepC := false },
                                sio := { s.sio with release := true } }

theorem rejoined_pair (s : State) : (rejoined s).pair = { s.pair with
    mode := 0, journal := [], overflow := false, asleepC := false, tapBit := (s.pair.tapBit + 1) % 128, tap := ⟨true, true⟩
    checker := coreCopied s.pair.main, main := cachesAre .empty s.pair.main } := by
  simp only [rejoined, tapTest_good, resync, checkerTargetEnds_pair]

theorem rejoined_release (s : State) : (rejoined s).sio.release = true := rfl

theorem rejoined_stack1 (s : State) : (rejoined s).icu.stack1 = [] := rfl

theorem onlyS_of_s {h : Hdr} (hseat : h.seat = .s) : onlyS h = (false, eRights) := by
  simp [onlyS, hseat]

/-- Settles O29: a SPLIT in lockstep outside BOOT and a REJOIN outside lockstep pass every check; the rest is what R323 lists. -/
theorem lockstepSplitsAndRejoins : Obligations.LockstepSplitsAndRejoins := by
  intro h s hs hseat
  refine ⟨?split, ?rejoin⟩
  case split =>
    intro hmode hboot
    have hstatus : lowest [onlyS h, (!((accept h s).pair.mode == 0) || deviceState (accept h s) == 1, eState)] = stOk := by
      simp [onlyS_of_s hseat, hmode, beq_eq_false_iff_ne.mpr hboot]
    refine answers_command rfl (hseat ▸ hs) ?_
    dsimp only
    rw [hstatus, if_pos rfl, accept_pair]
    rfl
  case rejoin =>
    intro hmode
    have hstatus : lowest [onlyS h, ((accept h s).pair.mode == 0, eState)] = stOk := by
      simp [onlyS_of_s hseat, beq_eq_false_iff_ne.mpr hmode]
    refine ⟨rejoined (accept h s), answers_command rfl (hseat ▸ hs) ?_, ?_⟩
    · dsimp only
      rw [hstatus, if_pos rfl]
      rfl
    · simp [rejoined_pair, rejoined_release, rejoined_stack1, cachesAre]

/-! ### The debugger (R320, R321) -/

/-- Settles O30: by whether the input group agrees, whether the cores are halted, and the room left in the journal. -/
theorem theDebuggerRunsTheCores : Obligations.TheDebuggerRunsTheCores := by
  refine ⟨?waits, ?halts, ?runs, ?accesses⟩
  case waits =>
    intro s hdiffers
    simp [Answers, exec, execDebugHalt, execDebugResume, execDebugStep, debugRequest, hdiffers]
  case halts =>
    intro s hagrees hrunning
    simp [Answers, exec, execDebugHalt, debugRequest, debugDelivered, debugHalts, hagrees, hrunning]
  case runs =>
    intro s hagrees hhalted
    simp [Answers, exec, execDebugResume, execDebugStep, debugRequest, debugDelivered, debugResumes, debugSteps, hagrees, hhalted]
  case accesses =>
    intro s hhalted
    refine ⟨?room, ?full, ?read⟩
    case room =>
      intro r v hreaches hroom
      simp [Answers, exec, execAbstractWrite, hhalted, hreaches, hroom]
    case full =>
      intro r v hreaches hfull hmode
      simp [Answers, exec, execAbstractWrite, hhalted, hreaches, Nat.not_lt.mpr hfull, hmode]
    case read =>
      intro r v hreaches hvalue
      simp [Answers, exec, execAbstractRead, hhalted, hreaches, hvalue, emit, drawn]

/-! ### Mismatches and comparator faults (R307 to R314) -/

theorem tapTest_half (s : State) :
    tapTest ⟨true, false⟩ s = latchSafe 5 0 0 (pairDiag 4 (bitGroup s.pair.tapBit) 0 s.pair.tapBit { s with pair := { s.pair with
      tapBit := (s.pair.tapBit + 1) % 128, tap := ⟨true, false⟩, pathF := up8 s.pair.pathF } }) := rfl

/-- Settles O31: each fault meets an active pair; both kinds of mismatch go through `coreMismatch`. -/
theorem pairFaultsLatchSafe : Obligations.PairFaultsLatchSafe := by
  intro s hactive
  refine ⟨?bus, ?tap, ?test, ?parity⟩
  case bus =>
    refine fun b => ⟨_, ?_, rfl⟩
    rw [Answers, exec, execCoreMismatch, if_pos hactive, coreMismatch]
  case tap =>
    refine fun main checker htime hcrc => ⟨_, ?_, rfl⟩
    have hdiffers : (pairActive s && s.time.edges % 400000 == 0 && !(crc32c ((main.map fun w => leBytes 4 w.toNat).flatten) ==
        crc32c ((checker.map fun w => leBytes 4 w.toNat).flatten))) = true := by
      simpa [hactive, htime] using hcrc
    rw [Answers, exec, execStateTap, if_pos hdiffers, coreMismatch]
  case test =>
    intro htime
    simp [Answers, exec, execTapTest, hactive, htime, tapTest_good, tapTest_half]
  case parity =>
    intro half
    simp [Answers, exec, execComparePathFault, hactive, pathFault]

end Sys2Proof.Machine
end

section
/-! SUPPORT. Proofs/CompanionInputs.lean: input groups, companion memories, clocks, and what user tasks do (R316 to R318, R325, R358). -/

namespace Sys2Proof.Machine

/-! ### Input groups (R316) -/

theorem and_two_pow_eq (m i : Nat) : m &&& 2 ^ i = (m.testBit i).toNat * 2 ^ i := by
  refine Nat.eq_of_testBit_eq fun j => ?_
  by_cases hj : i = j
  · subst hj
    cases hbit : m.testBit i <;> simp [hbit]
  · cases hbit : m.testBit i <;> simp [Nat.testBit_two_pow_of_ne hj]

/-- Taking a bit out of a mask by what the mask and the bit share clears it. -/
theorem testBit_sub_and_two_pow (m i : Nat) : (m - (m &&& 2 ^ i)).testBit i = false := by
  rw [and_two_pow_eq]
  cases hbit : m.testBit i with
  | false => simpa using hbit
  | true =>
    obtain ⟨x, rfl⟩ := Nat.exists_eq_add_of_le (Nat.ge_two_pow_of_testBit hbit)
    simpa [Nat.testBit_two_pow_add_eq] using hbit

theorem inputAgreement_answers {g : Fin 3} {v : Word} {s : State} (hidle : s.pair.dbgReq = none) :
    Answers (.inputAgreement g v) s { s with pair := { s.pair with
      agreed := tblSet 0 s.pair.agreed g v, stuck := s.pair.stuck - (s.pair.stuck &&& 2 ^ g.val), differ := tblErase s.pair.differ g } } := by
  rw [Answers, exec, execInputAgreement, hidle]

/-! ### Cache parity (R318) -/

/-- What both cores do on a cache parity error: the caches alone change. -/
def cacheLineFetched (s : State) (c : CpuRegs) : CpuRegs :=
  if chooses s then { c with icache := refetched s.free c.icache } else { c with dcache := refetched s.free c.dcache }

theorem cacheParity_answers (s : State) : Answers .cacheParity s (drawn { s with pair := { s.pair with
    cacheP := up8 s.pair.cacheP, main := cacheLineFetched s s.pair.main, checker := cacheLineFetched s s.pair.checker } }) := rfl

theorem cacheLineFetched_regs (s : State) (c : CpuRegs) :
    (cacheLineFetched s c).x = c.x ∧ (cacheLineFetched s c).csr = c.csr ∧ (cacheLineFetched s c).pc = c.pc := by
  unfold cacheLineFetched
  split <;> exact ⟨rfl, rfl, rfl⟩

/-- Settles O32: each event under the condition that its execution tests. -/
theorem companionInputsAndMemories : Obligations.CompanionInputsAndMemories := by
  refine fun s => ⟨?disagree, ?stuck, ?agree, ?parity, ?memory, ?scrub, ?clocks, ?dieClocks⟩
  case disagree =>
    intro g hagrees
    simp [Answers, exec, execInputDisagree, hagrees]
  case stuck =>
    intro g hdiffers hlong
    exact congrArg Host.Outcome.next (if_pos ⟨hdiffers, hlong⟩)
  case agree =>
    intro g v hidle
    refine ⟨_, inputAgreement_answers hidle, tblGet_set_same .., testBit_sub_and_two_pow ..,
      tblGet_erase_same .., fun k hk => tblGet_set_other _ _ _ _ _ hk⟩
  case parity =>
    obtain ⟨hx, hcsr, hpc⟩ := cacheLineFetched_regs s s.pair.main
    exact ⟨_, cacheParity_answers s, rfl, fun hsame => congrArg (cacheLineFetched s) hsame, hx, hcsr, hpc, rfl⟩
  case memory =>
    intro a
    refine ⟨rfl, fun hnone => ?_, fun n code harea => ?_⟩
    · simp [Answers, exec, execMemoryUncorrectable, memUncorrectable, hnone]
    · simp [Answers, exec, execMemoryUncorrectable, memUncorrectable, harea]
  case scrub => exact fun m a => ⟨rfl, rfl, rfl⟩
  case clocks =>
    intro hon
    refine ⟨fun hlate => ?_, ?_, fun v => ?_⟩
    · simp [Answers, exec, execRefclkFault, hon, Nat.not_lt.mpr hlate]
    · simp [Answers, exec, execPllLockLoss, hon]
    · simp [Answers, exec, execTempUpdate, hon]
  case dieClocks =>
    intro n hreleased
    simp [Answers, exec, execPllLockLoss, Fin.succ_ne_zero, hreleased]

/-! ### User tasks (R325) -/

theorem userFault_ready {n c : Nat} {s : State} (hready : (userTask s n).state = 1) :
    userFault n c s = modUser n (fun t => { t with state := 2, cause := c % 256 }) s := by
  rw [userFault, if_pos hready]

theorem checkinService_listed {k : Nat} {s : State} (hvalid : (taskOf s k).valid = true) (hsource : (taskOf s k).source = 3) :
    checkinService k s = taskCheckin k s := by
  simp [checkinService, hvalid, hsource]

/-- Settles O33: a READY task faults, uses up its budget, or asks for a service that it has declared or not. -/
theorem userTasksAndCheckins : Obligations.UserTasksAndCheckins := by
  intro n s
  refine ⟨fun hready => ⟨?fault, fun hruns => ⟨?budget, ?undeclared, ?declared⟩⟩, ?renewal, ?service⟩
  case fault =>
    intro c
    rw [Answers, exec, execTaskFault, userFault_ready hready]
  case budget =>
    intro hused
    exact congrArg Host.Outcome.next (if_pos ⟨hready, hruns, hused⟩)
  case undeclared =>
    intro q svc hrunning hnot
    refine ⟨userFault n 8 s, ?_, ?_⟩
    · simp [Answers, exec, execTaskEcall, hready, hruns, hrunning, hnot]
    · simp [userFault_ready hready, userTask_modUser_same]
  case declared =>
    intro q k hrunning hdeclared hvalid hsource
    simp [Answers, exec, execTaskEcall, serviceEffect, hready, hruns, hrunning, hdeclared, checkinService_listed hvalid hsource]
  case renewal =>
    intro htime
    simp [Answers, exec, execTaskBudgetRenewal, htime]
  case service =>
    intro k hrunning hvalid hsource
    simp [Answers, exec, execCheckinService, hrunning, checkinService_listed hvalid hsource]

end Sys2Proof.Machine
end

section
/-! SUPPORT. Proofs/QueuesAndSeats.lean: doorbells, queue pairs, and the ways by which a command comes from its seat (R277 to R287). -/

namespace Sys2Proof.Machine

/-! ### Doorbells and queue pairs (R281, R285) -/

theorem ownerNo_of_used {s : State} {n o : Nat} (hused : (part s n).st ≠ 0) (hseat : (part s n).seat = o) : ownerNo s n = o := by
  rw [ownerNo, if_neg hused, hseat]

theorem headRing_owned {x : Seat} {n v : Nat} {r : ResRing} {s : State} (hserves : hostServes s x = true) (howner : ownerNo s n = seatNo x)
    (hring : (part s n).ring = some r) :
    headRing x n v s = if v < r.size ∧ v % 16 = 0 then modPart n (fun p => { p with ring := some (headMoved v r) }) s
      else modQueue x r.cq (fun u => { u with dbErr := true }) s := by
  simp [headRing, hserves, howner, hring]

/-- Registers of a queue pair that R281 finds well formed. -/
theorem queStatus_ok {u : Queue} (hsq : 2 ≤ u.sqSize) (hsqMax : u.sqSize ≤ 4096) (hcq : 2 ≤ u.cqSize) (hcqMax : u.cqSize ≤ 4096)
    (hsqBase : u.sqBase % 4096 = 0) (hcqBase : u.cqBase % 4096 = 0) : queStatus u = stOk := by
  refine lowest_eq_ok ?_
  simp [hsqBase, hcqBase, hsqMax, hcqMax]
  omega

/-- Settles O34: each doorbell meets an enabled queue pair, or a ring of the seat's own; enabling meets good registers. -/
theorem doorbellsMoveTheQueues : Obligations.DoorbellsMoveTheQueues := by
  intro x q s hserves
  refine ⟨fun henable henabled => ⟨?tail, ?tailOut, ?head, ?headOut⟩, fun n r v hused hseat hring => ?result, ?enabling, ?disabling⟩
  case tail =>
    intro v hv
    simp only [Answers, exec, execSqDoorbell, sqRing, hserves, henable, henabled, Bool.and_self, if_true, if_pos hv, sqEvent]
    refine congrArg (fun t => Host.Outcome.next (icuEvent (80 + seatNo x) t)) (modQueue_congr _ _ _ _ _ ?_)
    simp [sqBell, henable, henabled, hv]
  case tailOut =>
    intro v hv
    simp only [Answers, exec, execSqDoorbell, sqRing, hserves, henable, henabled, Bool.and_self, if_true, if_neg (Nat.not_lt.mpr hv)]
    refine congrArg Host.Outcome.next (modQueue_congr _ _ _ _ _ ?_)
    simp [sqBell, henable, henabled, Nat.not_lt.mpr hv]
  case head =>
    intro v hv
    simp only [Answers, exec, execCqDoorbell, cqRing, hserves, if_true]
    refine congrArg Host.Outcome.next (modQueue_congr _ _ _ _ _ ?_)
    simp [cqBell, cqHeadOk, henable, henabled, hv]
  case headOut =>
    intro v hv
    simp only [Answers, exec, execCqDoorbell, cqRing, hserves, if_true]
    refine congrArg Host.Outcome.next (modQueue_congr _ _ _ _ _ ?_)
    simp [cqBell, cqHeadOk, henable, henabled, Nat.not_lt.mpr hv]
  case result =>
    have hrings := headRing_owned (v := v.toNat) hserves (ownerNo_of_used hused hseat) hring
    refine ⟨fun hin hunit => ⟨?_, rfl⟩, fun hbad => ?_⟩
    · rw [Answers, exec, execResultHeadDoorbell, hrings, if_pos ⟨hin, hunit⟩]
    · rw [Answers, exec, execResultHeadDoorbell, hrings, if_neg (by omega)]
  case enabling =>
    intro henable hsq hsqMax hcq hcqMax hsqBase hcqBase
    have hstatus := queStatus_ok hsq hsqMax hcq hcqMax hsqBase hcqBase
    rw [Answers, exec, execQueueEnable, if_pos hserves]
    refine congrArg Host.Outcome.next (modQueue_congr _ _ _ _ _ ?_)
    simp [queOn, henable, hstatus, stOk]
  case disabling =>
    intro henable hbusy
    rw [Answers, exec, execQueueDisable, if_pos hserves]
    refine congrArg (fun t => Host.Outcome.next (arbiterRuns t)) (modQueue_congr _ _ _ _ _ ?_)
    simp [queOff, henable, hbusy]

/-! ### Commands from their seats (R277 to R280, R283, R287) -/

theorem padTo_of_length {n : Nat} {l : List Byte} (h : l.length = n) : padTo n l = l := by
  rw [padTo, h, Nat.sub_self, List.take_of_length_le (Nat.le_of_eq h)]
  exact List.append_nil l

theorem commandFetch_answers {e : List Byte} {x : Seat} {q : Nat} {s : State} (hnext : nextFetch s = some (x, q)) (hlen : e.length = 64) :
    Answers (.commandFetch e) s (
      let h := entryHdr x q none e
      let u := entryTaken x q s
      let good := ((readEntry h e [] u).map (·.2)).getD false
      arbiterRuns (if good && opReads (entryOp e) && !(h.len == 0) then fetchBegins h e u else runEntry h e [] u)) := by
  simp only [Answers, exec, execCommandFetch, hnext, padTo_of_length hlen]

theorem seatSServed_of_serving {s : State} (hs : serving s .s = true) : seatSServed s = true := by
  simp [seatSServed, hs]

/-- The arbiter takes what waits from seat S when it is that seat's turn and no datagram waits. -/
theorem arbiterRuns_seatS {w : Hdr × List Byte × List Byte} {s : State} (hn : s.seats.nWait = []) (hw : s.seats.sWait = some w)
    (hturn : nextTurn s = some .s) : arbiterRuns s = takeS w s := by
  simp [arbiterRuns, arbiterSteps, hn, hw, hturn]

/-- Settles O35: each transport brings a whole entry, which then runs, waits for its data or for its turn, or fails. -/
theorem commandsComeFromTheirSeats : Obligations.CommandsComeFromTheirSeats := by
  refine ⟨?fetch, ?data, ?usb, ?datagram, fun w s hn hw hturn => arbiterRuns_seatS hn hw hturn⟩
  case fetch =>
    intro e x q s hnext hlen
    refine ⟨fun hop => ?_, fun i hread hop hdata => ?_⟩
    · simpa [hop] using commandFetch_answers hnext hlen
    · have hlen0 : ((entryHdr x q none e).len == 0) = false := beq_eq_false_iff_ne.mpr (Nat.pos_iff_ne_zero.mp hdata)
      simpa [hread, hop, hlen0] using commandFetch_answers hnext hlen
  case data =>
    intro x q s
    refine ⟨fun no => ?_, fun f hf hs => ⟨fun d hd => ?_, ?_, fun hlate => ?_⟩⟩
    · rw [Answers, exec, execHostDmaReadDone]
    · simp [Answers, exec, execHostDmaReadDone, hf, hs, hd]
    · simp [Answers, exec, execHostDmaReadDone, hf, hs]
    · simp [Answers, exec, execHostDmaTimeout, hf, hs, hlate]
  case usb =>
    intro e d s u hlen hs hu
    have htaken : ¬ (e.length ≠ 64 ∨ seatSServed s = false) := by simp [hlen, seatSServed_of_serving hs]
    simp only [Answers, exec, execUsbSubmission, if_neg htaken, ← hu]
    refine ⟨fun hwaits => ?_, fun hfree hnone htakes => ⟨fun hop hd => ?_, fun hop => ?_⟩⟩
    · rw [if_pos (by simpa using hwaits)]
    · simp [hfree, hnone, htakes, hop, hd]
    · simp [hfree, hnone, htakes, hop]
  case datagram =>
    intro p ip prt e d h s u v hlen hd hh hup haddr hu hs hrate hv
    have hwhole : ¬ ((e ++ d).length < 64 ∨ 1088 < (e ++ d).length ∨ serving u .n = false) := by
      simp [hlen, hs]
      omega
    have hport : (!(netPort s p).up || (netPort s p).addr == 0) = false := by
      rw [hup, beq_eq_false_iff_ne.mpr haddr]; rfl
    have hhdr : entryHdr .n p (some (ip.toNat + prt % 65536 * 2 ^ 32)) e = h := hh.symm
    rw [Answers, exec, execSeatNDatagram]
    simp only [hport, ← hu, if_neg hwhole, hrate, ← hv, List.take_left' hlen, List.drop_left' hlen, hhdr]
    rfl

end Sys2Proof.Machine
end

section
/-! SUPPORT. Proofs/SeatResets.lean: a seat is reset and returns, and a vector's mask is lifted (R291, R299 to R302). -/

namespace Sys2Proof.Machine

/-! ### A cleared seat (R300) -/

theorem seatOf_seatCleared_same {x : Seat} (hport : x = .a ∨ x = .b) (perst : Bool) (s : State) :
    seatOf (seatCleared x perst s) x = { seatOf s x with
      inReset := true, perst := (seatOf s x).perst || perst, cfgReady := (seatOf s x).cfgReady && !perst
      unmasked := [], pendingMsg := [], queues := [], lastQ := 63, fn := { aer := (seatOf s x).fn.aer } } := by
  rcases hport with rfl | rfl <;> rfl

theorem seatOf_seatCleared_other {x y : Seat} (hport : x = .a ∨ x = .b) (perst : Bool) (s : State) (hy : y ≠ x) :
    seatOf (seatCleared x perst s) y = seatOf s y := by
  rcases hport with rfl | rfl
  · cases y with
    | a => exact absurd rfl hy
    | _ => rfl
  · cases y with
    | b => exact absurd rfl hy
    | _ => rfl

/-! ### A vector unmasked (R291) -/

/-- The state in which the vector's mask is lifted. -/
def unmaskedBy (x : Seat) (v : Nat) (s : State) : State := modSeat x (fun t => { t with unmasked := withElem v t.unmasked }) s

theorem seatOf_unmaskedBy {x : Seat} (hport : x = .a ∨ x = .b) (v : Nat) (s : State) :
    seatOf (unmaskedBy x v s) x = { seatOf s x with unmasked := withElem v (seatOf s x).unmasked } :=
  seatOf_modSeat_same _ _ _ hport

theorem mem_withElem (v : Nat) (l : List Nat) : v ∈ withElem v l := by
  unfold withElem
  split
  · assumption
  · exact List.mem_cons_self

/-- Settles O36: by the cause of the reset and what the seat has pending. -/
theorem seatsResetAndReturn : Obligations.SeatsResetAndReturn := by
  refine ⟨?reset, ?cleared, fun x s hport => ⟨rfl, rfl⟩, ?unmask⟩
  case reset =>
    intro x cause s hport hon
    have hresets : ¬ ((!(x == .a || x == .b) || s.boot == .off) = true) := by
      rcases hport with rfl | rfl <;> simpa using hon
    refine ⟨fun hserved => ?_, fun hperst hnot => ?_⟩
    · have hfull : ¬ ((cause == .perst && !s.seats.served) = true) := by
        rcases hserved with hc | hs
        · simp [hc]
        · simp [hs]
      rw [Answers, exec, execSeatReset, if_neg hresets, if_neg hfull, seatReset]
    · have honly : (cause == .perst && !s.seats.served) = true := by simp [hperst, hnot]
      rw [Answers, exec, execSeatReset, if_neg hresets, if_pos honly]
  case cleared =>
    rintro x perst s t hport rfl
    rw [seatOf_seatCleared_same hport]
    refine ⟨rfl, rfl, rfl, rfl, ?_, ?_, fun y hy => seatOf_seatCleared_other hport perst s hy⟩ <;> rcases hport with rfl | rfl <;> rfl
  case unmask =>
    rintro x v s u hport hout rfl
    have hreaches : ¬ (((seatOf s x).inReset || (x == .n || x == .s)) = true) := by
      rcases hport with rfl | rfl <;> simp [hout]
    have hexec : exec (.msixVectorUnmask x v) s = .next (msixSend x v (unmaskedBy x v s)) := by
      rw [exec, execMsixVectorUnmask, if_neg hreaches, vectorMask, unmaskedBy]
      rfl
    have hseat := seatOf_unmaskedBy hport v.val s
    refine ⟨fun hpending hon hmask => ?_, fun hquiet => ?_⟩
    · rw [Answers, hexec, msixSend, if_pos]
      · rfl
      · simp [hseat, msixEnabled, hpending, hon, hout, hmask, mem_withElem]
    · rw [Answers, hexec, msixSend, if_neg]
      · rfl
      · rcases hquiet with hnot | hoff | hmask <;> simp [msixEnabled, *]

end Sys2Proof.Machine
end

section
/-! SUPPORT. Proofs/RegisterAccesses.lean: reads and writes of registers by a view, and the debugger's system bus (R6 to R9, R276, R308, R320,
R326, R473, R516). -/

namespace Sys2Proof.Machine

/-! ### Which part of the map an access reaches -/

theorem not_bar2 {a : Nat} (ha : a < 0x2000000) : ¬ bar2At ≤ a := Nat.not_le.mpr ha

theorem registerWrite_block {v : View} {a : Nat} {w : Word} {s : State} (hacts : viewActs s v = true) (hv : v ≠ .chk) (ha : a < 0x2000000) :
    Answers (.registerWrite v a 4 w) s (if v == .int && gated a then gateHold a w s else regWrite v a w.toNat s) := by
  rw [Answers, exec, execRegisterWrite, hacts, if_neg (by simp), if_neg hv, if_neg (not_bar2 ha)]

theorem lowerWordRead_block {v : View} {a : Nat} {s : State} (hacts : viewActs s v = true) (hv : v ≠ .chk) (ha : a < 0x2000000) :
    Answers (.lowerWordRead v ⟨a, 4⟩) s (emit (.readValue (w32 (busRead v a s).1)) (busRead v a s).2) := by
  have hblock : ¬ (bar2At ≤ a ∧ (v = .a ∨ v = .b)) := fun h => not_bar2 ha h.1
  rw [Answers, exec, execLowerWordRead, if_neg hblock, if_pos rfl, viewRead, if_pos hacts, if_neg hv, answerRead]

/-- The companion's view of a register that it reaches: what its read answers. -/
theorem answerRead_int {a : Nat} {s : State} (hacts : viewActs s .int = true) :
    answerRead (viewRead .int a s) s = .next (emit (.readValue (w32 (busRead .int a s).1)) (busRead .int a s).2) := by
  rw [viewRead, if_pos hacts, if_neg (by decide), answerRead]

theorem viewReads_int (s : State) (block : Nat) : viewReads s .int block = true := rfl

/-- A read of the companion's view at an aligned offset that holds no lower word. -/
theorem busRead_lower {v : View} {a : Nat} {s : State} (halign : a % 4 = 0) (hreads : viewReads s v (a / 65536) = true) (hlower : isLower a = true) :
    busRead v a s = lowerRead v a s := by
  rw [busRead, if_neg (by simp [halign, hreads]), if_pos hlower]

/-! ### Reads with an effect (R7, R516) -/

theorem busRead_icuErrors (s : State) : busRead .int 0x60010 s = errorsRead .int s := by
  rw [busRead, if_neg (by simp [viewReads_int]), if_neg (by decide), if_pos rfl]

theorem busRead_wdgGlobal (s : State) : busRead .int 0x70200 s = globalRead .int s := rfl

theorem busRead_ppsInHi (s : State) : busRead .int 0x10015C s = ppsHiRead .int s := rfl

theorem busRead_txtsHi (p : Fin 2) (s : State) : busRead .int (0xA0808 + 0x40 * p) s = txtsHiRead .int p s :=
  match p with
  | 0 | 1 => rfl

theorem busRead_evtHi (i : Fin 8) (s : State) : busRead .int (0x100114 + 8 * i) s = evtHiRead .int i s :=
  match i with
  | 0 | 1 | 2 | 3 | 4 | 5 | 6 | 7 => rfl

/-- An upper word that was latched is answered and the latch emptied. -/
theorem upperRead_latched {v : View} {a : Nat} {w : Word} {s : State} (hw : latchOf s v a = some w) :
    upperRead v a s = (w.toNat, setLatch v a none s) := by
  rw [upperRead, hw]

/-- Settles O37: by the view, the offset, the width, and whether the register has an effect when it is read. -/
theorem registersAreReadAndWritten : Obligations.RegistersAreReadAndWritten := by
  refine ⟨?writes, fun v a s hacts hv ha => lowerWordRead_block hacts hv ha, ?lower, ?port, ?halted, ?effects⟩
  case writes =>
    intro v a w s hacts hv ha
    have hwrite := registerWrite_block (w := w) hacts hv ha
    refine ⟨fun hdirect => ?_, fun hint hgated => ?_, fun width hwidth => ⟨?_, ?_⟩⟩
    · have hopen : ¬ ((v == .int && gated a) = true) := by
        obtain hhost | hfree := hdirect
        · simp [hhost]
        · simp [hfree]
      rwa [if_neg hopen] at hwrite
    · rwa [if_pos (by simp [hint, hgated])] at hwrite
    · simp [Answers, exec, execRegisterWrite, hwidth]
    · have hblock : ¬ (bar2At ≤ a ∧ (v = .a ∨ v = .b)) := fun h => not_bar2 ha h.1
      rw [Answers, exec, execLowerWordRead, if_neg hblock, if_neg hwidth, if_pos hacts]
      rfl
  case lower =>
    intro v a s hacts hv ha halign hlower hreads
    have hread := lowerWordRead_block hacts hv ha
    rwa [busRead_lower halign hreads hlower] at hread
  case port =>
    intro x v a w s hview ha
    have hbar : bar2At ≤ a := ha
    refine ⟨?_, fun hanswers => ?_⟩
    · rcases hview with ⟨rfl, rfl⟩ | ⟨rfl, rfl⟩ <;> simp [Answers, exec, execRegisterWrite, viewActs, viewOwn, hbar]
    · rcases hview with ⟨rfl, rfl⟩ | ⟨rfl, rfl⟩ <;> simp [Answers, exec, execLowerWordRead, viewOwn, hbar, hanswers, answerRead]
  case halted =>
    intro a w s hhalted
    have hstill : viewActs s .int = false := by simp [viewActs, hhalted]
    refine ⟨?_, ?_, ?_⟩
    · simp [Answers, exec, execRegisterWrite, hstill]
    · simp [Answers, exec, execLowerWordRead, viewRead, hstill, answerRead]
    · simp [Answers, exec, execIcuErrorsRead, viewRead, hstill, answerRead]
  case effects =>
    intro s hacts
    refine ⟨?errors, ?global, ?pps, ?stamps, ?edges⟩
    case errors => rw [Answers, exec, execIcuErrorsRead, answerRead_int hacts, busRead_icuErrors, errorsRead, if_pos rfl]
    case global => rw [Answers, exec, execWdgGlobalRead, answerRead_int hacts, busRead_wdgGlobal, globalRead, if_pos rfl]
    case pps =>
      intro w hw
      rw [Answers, exec, execCapPpsInHiRead, answerRead_int hacts, busRead_ppsInHi, ppsHiRead, upperRead_latched hw]
      rfl
    case stamps =>
      intro p w hw htaken
      rw [Answers, exec, execNetTxtsHiRead, answerRead_int hacts, busRead_txtsHi]
      simp [txtsHiRead, upperRead_latched hw, hw, htaken]
    case edges =>
      intro i w hw htaken
      refine ⟨_, rfl, ?_⟩
      rw [Answers, exec, execCapEvtHiRead, answerRead_int hacts, busRead_evtHi]
      simp [evtHiRead, upperRead_latched hw, hw, htaken]

/-! ### The debugger's system bus (R320, R326) -/

theorem systemBus_aligned {write : Bool} {a : Nat} {v : Word} {s : State} (hon : s.boot ≠ .off) (halign : a % 4 = 0) :
    Answers (.systemBusAccess write a v) s (if write then debugWrite a v s else debugRead a s) := by
  rw [Answers, exec, execSystemBusAccess, if_neg hon, if_pos halign]

@[simp] theorem busNoted_pwr (s : State) : (busNoted s).pwr = s.pwr := by
  unfold busNoted
  split <;> rfl

@[simp] theorem busNoted_main (s : State) : (busNoted s).pair.main = s.pair.main := by
  unfold busNoted
  split <;> rfl

theorem leBytes_getD (k n i : Nat) (hi : i < k) : (leBytes k n).getD i 0 = BitVec.ofNat 8 (n / 256 ^ i) := by
  induction k generalizing n i with
  | zero => omega
  | succ k ih =>
    cases i with
    | zero => simp [leBytes]
    | succ i => simpa [leBytes, Nat.div_div_eq_div_mul, Nat.pow_succ'] using ih (n / 256) i (by omega)

/-- What the debugger writes where the map has the retention RAM. -/
theorem debugWrite_retention {o : Nat} (v : Word) (s : State) (ho : o < 0x400) :
    debugWrite (0x8000000 + o) v s = busNoted (retentionPut o v s) := by
  rw [debugWrite, if_pos (by omega), Nat.add_sub_cancel_left]

theorem debugWrite_attic {o : Nat} (v : Word) (s : State) (hlow : 0x400 ≤ o) (hhigh : o < 0x1000) :
    debugWrite (0x8000000 + o) v s = busNoted { s with pwr := { s.pwr with patch := tblPut s.pwr.patch o v } } := by
  rw [debugWrite, if_neg (by omega), if_pos (by omega), Nat.add_sub_cancel_left]

theorem debugWrite_sram {a : Nat} (v : Word) (s : State) (hlow : 0x10100000 ≤ a) (hhigh : a < 0x10400000) :
    debugWrite a v s = busNoted (if s.pair.halted then sramPut a v s else s) := by
  rw [debugWrite, if_neg (by omega), if_neg (by omega), if_pos (by omega)]

theorem debugWrite_registers {a : Nat} (v : Word) (s : State) (ha : a < 0x2000000) :
    debugWrite (0x40000000 + a) v s = regWrite .int a v.toNat (busNoted s) := by
  rw [debugWrite, if_neg (by omega), if_neg (by omega), if_neg (by omega), if_pos (by omega), Nat.add_sub_cancel_left]

theorem debugWrite_outside {a : Nat} (v : Word) (s : State) (ha : 0x42000000 ≤ a) : debugWrite a v s = s := by
  rw [debugWrite, if_neg (by omega), if_neg (by omega), if_neg (by omega), if_neg (by omega)]

theorem debugRead_retention {o : Nat} (s : State) (ho : o < 0x400) :
    debugRead (0x8000000 + o) s = emit (.debugValue (w32 (atticWord s o))) s := by
  rw [debugRead, mapRead, if_neg (by omega), if_pos (by omega), Nat.add_sub_cancel_left]

theorem debugRead_registers {a : Nat} (s : State) (ha : a < 0x2000000) :
    debugRead (0x40000000 + a) s = emit (.debugValue (w32 (busRead .int a s).1)) (busRead .int a s).2 := by
  rw [debugRead, mapRead, if_neg (by omega), if_neg (by omega), if_neg (by omega), if_neg (by omega), if_neg (by omega), if_pos (by omega),
    Nat.add_sub_cancel_left]

theorem debugRead_outside {a : Nat} (s : State) (ha : 0x54000000 ≤ a) : debugRead a s = s := by
  rw [debugRead, mapRead, if_neg (by omega), if_neg (by omega), if_neg (by omega), if_neg (by omega), if_neg (by omega), if_neg (by omega),
    if_neg (by omega)]

/-- Settles O38: by the part of the map that the address names. -/
theorem systemBusReachesTheMap : Obligations.SystemBusReachesTheMap := by
  refine fun v s hon => ⟨?retention, ?sram, ?registers, ?unaligned, ?attic, ?outside⟩
  case retention =>
    intro o ho halign
    have haligned : (0x8000000 + o) % 4 = 0 := by omega
    refine ⟨⟨busNoted (retentionPut o v s), ?_, fun i hi => ?_, fun a ha => ?_, ?_⟩, ?_⟩
    · simpa [debugWrite_retention v s ho] using systemBus_aligned (write := true) (v := v) hon haligned
    · have hlen : i < (leBytes 4 v.toNat).length := by simpa [leBytes] using hi
      rw [busNoted_pwr, retentionPut, memGet_write_inside _ _ _ _ hlen, leBytes_getD _ _ _ hi]
    · rw [busNoted_pwr, retentionPut, memGet_write_outside _ _ _ _ (by simpa [leBytes] using ha)]
    · rw [busNoted_main, retentionPut]
    · simpa [debugRead_retention s ho] using systemBus_aligned (write := false) (v := v) hon haligned
  case sram =>
    intro a hlow hhigh halign hhalted
    have hwrite := systemBus_aligned (write := true) (v := v) hon halign
    simpa [debugWrite_sram v s hlow hhigh, hhalted, sramPut, busNoted] using hwrite
  case registers =>
    intro a ha halign
    have haligned : (0x40000000 + a) % 4 = 0 := by omega
    refine ⟨?_, ?_⟩
    · simpa [debugWrite_registers v s ha, busNoted] using systemBus_aligned (write := true) (v := v) hon haligned
    · simpa [debugRead_registers s ha] using systemBus_aligned (write := false) (v := v) hon haligned
  case unaligned =>
    intro a halign
    refine ⟨?_, fun hlow hhigh => ?_, fun hout => ?_⟩
    · simp [Answers, exec, execSystemBusAccess, hon, halign]
    · simp [Answers, exec, execSystemBusAccess, hon, halign, hlow, hhigh]
    · have hblock : ¬ ((!false && decide (0x40000000 ≤ a) && decide (a < 0x42000000)) = true) := by
        simp
        omega
      rw [Answers, exec, execSystemBusAccess, if_neg hon, if_neg halign, if_neg hblock]
  case attic =>
    intro o hlow hhigh halign hrunning
    have hwrite := systemBus_aligned (write := true) (v := v) hon (show (0x8000000 + o) % 4 = 0 by omega)
    simpa [debugWrite_attic v s hlow hhigh, busNoted, hrunning] using hwrite
  case outside =>
    intro a halign hout write
    have haccess := systemBus_aligned (write := write) (v := v) hon halign
    rwa [debugWrite_outside v s (by omega), debugRead_outside s hout, ite_self] at haccess

end Sys2Proof.Machine
end

section
/-! SUPPORT. Proofs/InterruptsAndCrc.lean: what doorbells, claims and ends of interrupt do, and the check values of the CRC units (R328 to R346,
R364 to R372). -/

namespace Sys2Proof.Machine

/-! ### A doorbell word (R328) -/

theorem toNat_doorbellWord {k n : Nat} (hk : k < 4) (hn : n < 1024) : (w32 (k * 0x40000000 + n)).toNat = k * 0x40000000 + n := by
  rw [w32, BitVec.toNat_ofNat]
  exact Nat.mod_eq_of_lt (by omega)

/-- A doorbell of a source that takes it: an event, an assert, or a deassert. -/
theorem icuDoorbell_taken {k n : Nat} {s : State} (hk : k < 3) (hn : n < 256 ∨ 512 ≤ n ∧ n < 1024) (htype : (srcOf s n).isLevel = !(k == 0)) :
    icuDoorbell (w32 (k * 0x40000000 + n)) s = if k = 2 then icuDrop n s else icuRaise n (k == 1) s := by
  have hsource : fld (w32 (k * 0x40000000 + n)).toNat 9 0 = n := by
    rw [toNat_doorbellWord (by omega) (by omega), fld]
    omega
  have hkind : fld (w32 (k * 0x40000000 + n)).toNat 31 30 = k := by
    rw [toNat_doorbellWord (by omega) (by omega), fld]
    omega
  have hreserved : fld (w32 (k * 0x40000000 + n)).toNat 29 10 = 0 := by
    rw [toNat_doorbellWord (by omega) (by omega), fld]
    omega
  simp only [icuDoorbell, hsource, hkind, hreserved]
  rw [if_neg (by omega), if_neg (by simp [htype])]

/-! ### Claims and ends of interrupt (R337, R338) -/

theorem icuClaimed_presented {c : Bool} {n at_ : Nat} {s : State} (hlate : icuLate s c = none) (hpres : icuPres s c = some (n, at_)) :
    icuClaimed s c = some (n, (srcOf s n).prio) := by
  rw [icuClaimed, hlate, hpres]
  rfl

theorem icuClaimEffect_presented {c : Bool} {n at_ : Nat} {s : State} (hlate : icuLate s c = none) (hpres : icuPres s c = some (n, at_)) :
    icuClaimEffect c s = icuSettle (setStack c ((n, (srcOf s n).prio) :: icuStack s c) (modSrc n (fun x => { x with pend := false })
      { setPres c none s with icu := { (setPres c none s).icu with held := s.icu.held.filter fun e => !(e.1 == n) } })) := by
  rw [icuClaimEffect, icuClaimed_presented hlate hpres]
  cases c <;> simp [hlate, setPres, icuStack, modSrc]

/-- The checker's own target where the pair is split, the main core's otherwise (R337). -/
theorem target_of_split {c : Bool} {s : State} (h : c = true → splitNow s = true) : (c && splitNow s) = c := by
  cases c with
  | false => rfl
  | true => simpa using h rfl

theorem pwrState_of_kept {s t : State} (h : kept s = kept t) : s.pwr.state = t.pwr.state := congrArg (·.2.2.2.1) h

/-- The source whose interrupt ends pends again where its level stands. -/
abbrev sourceEnded (n : Nat) : State → State := modSrc n (fun x => { x with pend := x.pend || (x.isLevel && x.level) })

theorem icuEoiEffect_top {c : Bool} {n p : Nat} {r : List (Nat × Nat)} {s : State} (hstack : icuStack s c = (n, p) :: r)
    (hawake : s.pwr.state ≠ 1) :
    icuEoiEffect c n s = icuSettle (sourceEnded n (setStack c r s)) := by
  have hstill : (icuSettle (sourceEnded n (setStack c r s))).pwr.state ≠ 1 := by
    rw [pwrState_of_kept (kept_icuSettle (sourceEnded n (setStack c r s)))]
    cases c <;> exact hawake
  rw [icuEoiEffect, hstack]
  simp [hstill]

theorem icuEoiEffect_other {c : Bool} {m : Nat} {s : State} (htop : ∀ e ∈ (icuStack s c).head?, e.1 ≠ m) :
    icuEoiEffect c m s = { s with icu := { s.icu with eoiErr := up8 s.icu.eoiErr } } := by
  rw [icuEoiEffect]
  cases hstack : icuStack s c with
  | nil => rfl
  | cons e r =>
    have hne : e.1 ≠ m := htop e (by rw [hstack]; rfl)
    simp [hne]

/-- Settles O39: by the kind of the doorbell, what the claiming core is presented, and the top of its stack. -/
theorem interruptsAreRaisedAndClaimed : Obligations.InterruptsAreRaisedAndClaimed := by
  refine fun s => ⟨?doorbells, ?claim, ?eoi, ?eoiOther, ?unsplit, fun w v => ⟨rfl, rfl, rfl, rfl, fun d => rfl⟩, fun n v => rfl⟩
  case doorbells =>
    intro n hn
    refine ⟨fun hevent => ?_, fun hlevel => ⟨?_, ?_⟩⟩
    · have hbell := icuDoorbell_taken (k := 0) (by decide) hn (by simpa using hevent)
      rw [Nat.zero_mul, Nat.zero_add] at hbell
      rw [Answers, exec, execIcuDoorbell, hbell]
      simp [icuRaise]
    · have hbell := icuDoorbell_taken (k := 1) (by decide) hn (by simpa using hlevel)
      rw [Nat.one_mul] at hbell
      rw [Answers, exec, execIcuDoorbell, hbell]
      simp [icuRaise]
    · have hbell := icuDoorbell_taken (k := 2) (by decide) hn (by simpa using hlevel)
      rw [Answers, exec, execIcuDoorbell, hbell, if_pos rfl, icuDrop]
  case claim =>
    intro c n p at_ hsplit hlate hpres hp
    refine ⟨icuClaimEffect c s, claimWord (icuClaimed s c), ?_, ?_, ?_⟩
    · rw [hp, icuClaimEffect_presented hlate hpres]
    · rw [hp, icuClaimed_presented hlate hpres, claimWord]
    · rw [Answers, exec, execIcuClaim, target_of_split hsplit, emit]
  case eoi =>
    intro c n p r hsplit hn hstack hawake
    have hsource : (BitVec.ofNat 10 n).toNat = n := by
      rw [BitVec.toNat_ofNat]
      exact Nat.mod_eq_of_lt hn
    rw [Answers, exec, execIcuEoi, target_of_split hsplit, hsource, icuEoiEffect_top hstack hawake]
  case eoiOther =>
    intro c m hsplit htop
    rw [Answers, exec, execIcuEoi, target_of_split hsplit, icuEoiEffect_other htop]
  case unsplit =>
    intro hjoined m t
    simp [Answers, exec, execIcuClaim, execIcuEoi, hjoined]

/-! ### The CRC units (R366 to R372) -/

/-- A START without ALIVE, and with it (R368, R370). -/
theorem crcStartUnit_plain {x : CrcUnit} (h : x.aliveEn = false) :
    crcStartUnit x = { x with poly := x.cfg, run := (crcKind x.cfg).init, count := 0 } := by
  simp [crcStartUnit, h]

theorem crcStartUnit_alive {x : CrcUnit} (h : x.aliveEn = true) :
    crcStartUnit x = { x with
      poly := x.cfg, run := crcByte (crcKind x.cfg) (crcKind x.cfg).init x.alive, count := 1, alive := x.alive + 1 } := by
  simp [crcStartUnit, crcFeed, h]

theorem width_of_narrow {c : Nat} (h : c < 4) : (crcKind c).width ≠ 64 :=
  match c, h with
  | 0, _ | 1, _ | 2, _ | 3, _ => by decide

theorem width_of_wide {c : Nat} (h : 4 ≤ c) : (crcKind c).width = 64 := by
  obtain ⟨k, rfl⟩ := Nat.exists_eq_add_of_le h
  rw [Nat.add_comm]
  rfl

/-- An update of a unit that depends on what the unit holds is one to a value. -/
theorem modCrc_const (u : Nat) (f : CrcUnit → CrcUnit) (s : State) : modCrc u f s = modCrc u (fun _ => f (crcUnit s u)) s := rfl

/-- Settles O40: each write is one function of its unit, which is worked out for the configuration at hand. -/
theorem crcUnitsComputeCheckValues : Obligations.CrcUnitsComputeCheckValues := by
  refine ⟨?writes, fun u f s => ⟨crcUnit_modCrc_same u f s, fun k hk => crcUnit_modCrc_other u k f s hk⟩, ?values⟩
  case writes =>
    rintro u v s x rfl
    refine ⟨rfl, ?_, ?_, fun hplain => ?_, fun halive => ?_, fun hnarrow => ⟨?_, ?_⟩, fun hwide => ⟨?_, ?_⟩⟩
    · rfl
    · simp [Answers, exec, execCrcData32, crcFeedWord, leBytes, Nat.div_div_eq_div_mul, modCrc_const _ (crcFeedWord 4 v)]
    · rw [Answers, exec, execCrcStart, modCrc_const, crcStartUnit_plain hplain]
    · rw [Answers, exec, execCrcStart, modCrc_const, crcStartUnit_alive halive]
    · rw [Answers, exec, execCrcStateLoWrite, modCrc_const, crcStateLo, if_neg (width_of_narrow hnarrow)]
    · rw [Answers, exec, execCrcStateHiWrite, modCrc_const, crcStateHi, if_neg (width_of_narrow hnarrow)]
    · rw [Answers, exec, execCrcStateLoWrite, modCrc_const, crcStateLo, if_pos (width_of_wide hwide)]
    · rw [Answers, exec, execCrcStateHiWrite, modCrc_const, crcStateHi, if_pos (width_of_wide hwide)]
  case values =>
    intro l
    refine ⟨?_, ?_, ?_, ?_, ?_⟩ <;> decide +kernel

end Sys2Proof.Machine
end

section
/-! SUPPORT. Proofs/RingSending.lean: what a node sends changes the ring's ports, counters of the dies and outputs, and nothing else (R136 to
R147). -/

namespace Sys2Proof.Machine

/-- The state but for what sending a packet changes: the ring, the dies and the outputs. -/
def offRing (s : State) : State := { s with ring := {}, dies := [], out := [] }

@[simp] theorem offRing_modPort (node : Nat) (east : Bool) (f : Port → Port) (s : State) : offRing (modPort node east f s) = offRing s := rfl

@[simp] theorem offRing_modDie (d : Nat) (f : Die → Die) (s : State) : offRing (modDie d f s) = offRing s := rfl

@[simp] theorem offRing_portCount (node : Nat) (east : Bool) (o k : Nat) (s : State) : offRing (portCount node east o k s) = offRing s := by
  unfold portCount
  split <;> rfl

@[simp] theorem offRing_dieError (node : Nat) (s : State) : offRing (dieError node s) = offRing s := by
  unfold dieError
  split <;> rfl

@[simp] theorem offRing_sendBlock (node : Nat) (east : Bool) (low : Nat) (data : List Byte) (s : State) :
    offRing (sendBlock node east low data s) = offRing s := rfl

@[simp] theorem offRing_sendPacket (node : Nat) (east : Bool) (p : Packet) (s : State) : offRing (sendPacket node east p s) = offRing s := by
  simp only [sendPacket, offRing_modPort, offRing_portCount]
  exact foldl_keep offRing _ _ (fun t i => offRing_sendBlock ..) s

@[simp] theorem offRing_creditCount (node : Nat) (east : Bool) (s : State) : offRing (creditCount node east s) = offRing s := by
  unfold creditCount
  split
  · rw [offRing_portCount, offRing_modPort]
  · rfl

@[simp] theorem offRing_creditSettle (node : Nat) (east : Bool) (s : State) : offRing (creditSettle node east s) = offRing s := by
  rw [creditSettle, offRing_modPort, offRing_creditCount]

@[simp] theorem offRing_oweFrom (node : Nat) (src : Option Bool) (p : Packet) (s : State) : offRing (oweFrom node src p s) = offRing s := by
  cases src <;> rfl

@[simp] theorem offRing_portSend (node : Nat) (east : Bool) (s : State) : offRing (portSend node east s) = offRing s := by
  unfold portSend
  split
  · rfl
  · split
    · exact offRing_creditSettle ..
    · simp only [offRing_oweFrom, offRing_creditSettle, offRing_sendPacket, offRing_modPort]

@[simp] theorem offRing_portQueue (node : Nat) (east : Bool) (p : Packet) (src : Option Bool) (s : State) :
    offRing (portQueue node east p src s) = offRing s := by
  rw [portQueue, offRing_portSend, offRing_modPort]

@[simp] theorem offRing_forwardPacket (node : Nat) (p : Packet) (src : Option Bool) (s : State) :
    offRing (forwardPacket node p src s) = offRing s := by
  unfold forwardPacket
  split
  · exact offRing_portQueue ..
  · split
    · rw [offRing_dieError, offRing_oweFrom]
    · rw [offRing_portCount, offRing_portQueue]

@[simp] theorem offRing_inject (node dst vc type addr : Nat) (data : List Byte) (s : State) :
    offRing (inject node dst vc type addr data s) = offRing s := by
  rw [inject, offRing_forwardPacket]
  rfl

@[simp] theorem offRing_sendCmd (d kind : Nat) (args : List Nat) (s : State) : offRing (sendCmd d kind args s) = offRing s := by
  rw [sendCmd, offRing_inject, offRing_modDie]

/-- What lies off the ring decides TB_SAFE. -/
theorem tbSafe_of_offRing {s t : State} (h : offRing s = offRing t) : tbSafe s = tbSafe t :=
  have : tbSafe (offRing s) = tbSafe (offRing t) := congrArg tbSafe h
  this

end Sys2Proof.Machine
end

section
/-! SUPPORT. Proofs/Snapshots.lean: a snapshot is requested, latched and acknowledged, and a command is sent again (R144 to R150, R479 to
R482). -/

namespace Sys2Proof.Machine

theorem viewActs_int {s : State} (hon : s.boot ≠ .off) (hrunning : s.pair.halted = false) (hrestart : s.upd.restart = false) :
    viewActs s .int = true := by
  simp [viewActs, hon, hrunning, hrestart]

/-- A snapshot request while none is pending, with its instant, its dies and the state that has asked them. -/
theorem snapRequest_idle {v : Nat} {t : Int} {ds : List Nat} {s u : State} (hidle : s.snap.pending = none)
    (ht : t = extendStamp (tbSafe s) s.snap.at_.toNat (fld v 9 8)) (hds : ds = [0, 1, 2, 3].filter (fun d => diePresent s d))
    (hu : u = ds.foldl (fun u d => sendCmd d cmdSnapshot [fld v 7 0, t.toNat] u) { s with snap := { s.snap with
      id := fld v 7 0, reason := fld v 11 10, pending := some t.toNat, done := false, latched := 0
      late := decide (t < (tbSafe s : Int)), waitFor := 16 + (ds.map (2 ^ ·)).sum } }) :
    snapRequest v s = if t < (tbSafe s : Int) then snapPorts u else u := by
  have htime : tbSafe u = tbSafe s := by
    rw [hu]
    refine Eq.trans (tbSafe_of_offRing (foldl_keep offRing _ ds (fun u d => offRing_sendCmd d cmdSnapshot _ u) _)) ?_
    rfl
  rw [snapRequest, if_neg (by simp [hidle])]
  simp only [← ht, ← hds, modSnap]
  rw [← hu, htime]

theorem snapRequest_pending {v : Nat} {s : State} (hpending : s.snap.pending.isSome = true) :
    snapRequest v s = { s with snap := { s.snap with refusals := up8 s.snap.refusals } } := by
  rw [snapRequest, if_pos hpending, modSnap]

/-- A command that was sent to the die arrives for the first time. -/
theorem cmdArrives_sent {d kind : Nat} {args : List Nat} {c : CmdOut} {s : State} (hsent : Sent d kind args c s) (f : State → State) :
    cmdArrives d kind args f s = ackCmd d c.seq (f (noted d kind args c s)) := by
  obtain ⟨hreleased, hfind⟩ := hsent
  exact cmdArrives_first d kind args c f s hreleased hfind

/-- The acknowledgement of a command that the die has executed, up to what follows from the command's kind. -/
theorem ackPacket_answers {d : Fin 4} {seq : Nat} {c : CmdOut} {s : State} (hseq : seq < 256)
    (hfind : (die s d).cmds.find? (fun c => c.seq == seq && executedSeq (die s d) c.seq) = some c) :
    Answers (.ackPacket d seq 0) s (
      let u := modDie d (fun x => { x with cmds := x.cmds.filter fun c => !(c.seq == seq), reached := (ackSignalled d seq s).time.edges })
        (ackSignalled d seq s)
      let u := if c.kind = cmdFence then fenceAcked d u else u
      let u := if c.kind = cmdDerived then stageStep (ctx u d (c.args.headD 0)).part u else u
      dResetSettle d (snapSettle u)) := by
  rw [Answers, exec, execAckPacket, Nat.mod_eq_of_lt hseq]
  simp [hfind]

/-- Settles O41: by whether a snapshot is pending, its instant has passed, and by the kind of the command that is acknowledged. -/
theorem snapshotsLatchAndAcknowledge : Obligations.SnapshotsLatchAndAcknowledge := by
  refine ⟨?request, ?latchCompanion, ?latchDie, ?cmd, ?ack, ?resend⟩
  case request =>
    intro v s hon hrunning hrestart
    have hacts := viewActs_int hon hrunning hrestart
    refine ⟨fun hpending => ?_, fun t ds u hidle ht hds hu => ?_⟩
    · rw [Answers, exec, execSnapshotRequest, if_pos hacts, snapRequest_pending hpending]
    · have hexec : exec (.snapshotRequest v) s = .next (if t < (tbSafe s : Int) then snapPorts u else u) := by
        rw [exec, execSnapshotRequest, if_pos hacts, snapRequest_idle hidle ht hds hu]
      refine ⟨fun hahead => ?_, fun hpast => ?_⟩
      · rw [Answers, hexec, if_neg (Int.not_lt.mpr hahead)]
      · rw [Answers, hexec, if_pos hpast]
  case latchCompanion =>
    intro t s hpending hwaits hdue
    simp [Answers, exec, execSnapshotLatch, hpending, hwaits, hdue]
  case latchDie =>
    intro d t id s harmed hreleased hdue
    simp [Answers, exec, execSnapshotLatch, Fin.succ_ne_zero, harmed, hreleased, hdue]
  case cmd =>
    rintro d id instant c s u hsent rfl
    rw [Answers, exec, execSnapshotCmd, cmdArrives_sent hsent]
  case ack =>
    rintro d seq c s u hseq hfind rfl
    have hack := ackPacket_answers hseq hfind
    refine ⟨fun hnotFence hnotDerived => ?_, fun hfence => ?_⟩
    · simpa [hnotFence, hnotDerived] using hack
    · have hkinds : cmdFence ≠ cmdDerived := by decide
      simpa [hfence, hkinds] using hack
  case resend =>
    intro d seq c s hfind hlate
    simp [Answers, exec, execCmdResendTimeout, hfind, hlate]

end Sys2Proof.Machine
end

section
/-! SUPPORT. Proofs/WatchdogUnits.lean: what a key does to a unit, and the ends of windows, pulses and cycles (R347 to R360). -/

namespace Sys2Proof.Machine

/-! ### The way of a key to its unit (R308, R349) -/

/-- The write that leaves the gate reaches the unit's WDG_SERVICE. -/
theorem regWrite_wdgService (n : Fin 8) (w : Nat) (s : State) : regWrite .int (0x7000C + 0x40 * n) w s = wdgKey .int n w s := by
  have hblock : (0x7000C + 0x40 * n.val) / 65536 = 7 := by omega
  have hoffset : (0x7000C + 0x40 * n.val) % 65536 = 0xC + 0x40 * n := by omega
  have halign : (0x7000C + 0x40 * n.val) % 4 = 0 := by omega
  have hunit : regIdx (0xC + 0x40 * n.val) 0 0x40 8 = some n.val := by
    rw [regIdx, if_pos (by omega)]
    congr 1
    omega
  have hregister : (0xC + 0x40 * n.val) % 0x40 = 0xC := by omega
  simp [regWrite, intWrite, wdgRegWrite, viewServes, halign, hblock, hoffset, hunit, hregister]

/-! ### What a key does -/

theorem wdgKey_served {v : View} {n w : Nat} {s : State} (hserves : viewServes s v = true) : wdgKey v n w s = wdgEnds (wdgWrite v n w s) := by
  rw [wdgKey, if_pos hserves]

/-- The holder's write to a unit that counts. -/
theorem wdgWrite_held {v : View} {n : Nat} {s : State} (hholds : wdgHolds v (wdgUnit s n) = true) (henable : (wdgUnit s n).enable = true)
    (hholder : (wdgUnit s n).holder ≠ 0) : ¬ ((!wdgHolds v (wdgUnit s n) || !wdgCounts (wdgUnit s n)) = true) := by
  simp [hholds, wdgCounts, henable, hholder]

/-- The unit that a write to WDG_SERVICE has found, disarmed (R349). -/
def wdgDisarmed (n : Nat) (s : State) : State := modWdg n (fun u => { u with armed := false }) s

theorem wdgUnit_wdgDisarmed (n : Nat) (s : State) : wdgUnit (wdgDisarmed n s) n = { wdgUnit s n with armed := false } :=
  wdgUnit_modWdg_same n _ s

/-- A service of a unit that stands between OPEN and CLOSE, with no change of mode waiting (R350, R351). -/
theorem wdgServe_inWindow {n : Nat} {s : State} (hexpired : wdgJustExpired s (wdgUnit s n) = false)
    (hopen : (wdgUnit s n).opn ≤ wdgElapsed s n) (hclose : s.time.edges / 4 < ((wdgUnit s n).since + (wdgUnit s n).close * 400) / 4) :
    wdgServe n s = (modWdg n (fun u => wdgPending { u with since := s.time.edges, openZero := false, warned := false }) s, false) := by
  have hearly : ¬ ((!(wdgUnit s n).openZero && decide (wdgElapsed s n < (wdgUnit s n).opn)) = true) := by
    simp [Nat.not_lt.mpr hopen]
  rw [wdgServe, if_neg (by simp [hexpired]), if_neg (Nat.not_le.mpr hclose), if_neg hearly]

theorem wdgWrite_service {v : View} {n : Nat} {s : State} (hholds : wdgHolds v (wdgUnit s n) = true) (henable : (wdgUnit s n).enable = true)
    (hholder : (wdgUnit s n).holder ≠ 0) (harmed : (wdgUnit s n).armed = true) (hexpired : wdgJustExpired s (wdgUnit s n) = false)
    (hcycle : (wdgUnit s n).cycle = 0) : wdgWrite v n 0xA5 s = wdgServe n (wdgDisarmed n s) := by
  rw [wdgWrite, if_neg (wdgWrite_held hholds henable hholder), if_neg (by decide), if_pos rfl]
  simp [harmed, hexpired, hcycle, wdgDisarmed]

theorem wdgWrite_arm {v : View} {n : Nat} {s : State} (hholds : wdgHolds v (wdgUnit s n) = true) (henable : (wdgUnit s n).enable = true)
    (hholder : (wdgUnit s n).holder ≠ 0) (hidle : (wdgUnit s n).armed = false) :
    wdgWrite v n 0x5A s = (modWdg n (fun u => { u with armed := true }) s, false) := by
  rw [wdgWrite, if_neg (wdgWrite_held hholds henable hholder), if_neg (by decide), if_neg (by decide), if_pos ⟨rfl, hidle⟩]

theorem wdgWrite_badKey {v : View} {n w : Nat} {s : State} (hholds : wdgHolds v (wdgUnit s n) = true) (henable : (wdgUnit s n).enable = true)
    (hholder : (wdgUnit s n).holder ≠ 0) (hw : 256 ≤ w) : wdgWrite v n w s = wdgFail n 2 (wdgDisarmed n s) := by
  rw [wdgWrite, if_neg (wdgWrite_held hholds henable hholder), if_pos hw, wdgDisarmed]

theorem wdgWrite_foreign {v : View} {n w : Nat} {s : State} (hforeign : wdgHolds v (wdgUnit s n) = false) :
    wdgWrite v n w s = ({ s with wdg := { s.wdg with foreign := up8 s.wdg.foreign } }, false) := by
  simp [wdgWrite, hforeign]

theorem wdgUnit_modWdg_other {n k : Nat} (f : WdgUnit → WdgUnit) (s : State) (hk : k ≠ n) : wdgUnit (modWdg n f s) k = wdgUnit s k := by
  rw [wdgUnit, modWdg, tblMod, tblSet]
  split
  · exact tblGet_erase_other _ _ _ _ hk
  · exact tblGet_put_other _ _ _ _ _ hk

/-- What an accepted service leaves of the units. -/
theorem wdgServe_units {n : Nat} {s : State} (hexpired : wdgJustExpired s (wdgUnit s n) = false) (hpend : (wdgUnit s n).pendMode = none)
    (hopen : (wdgUnit s n).opn ≤ wdgElapsed s n) (hclose : s.time.edges / 4 < ((wdgUnit s n).since + (wdgUnit s n).close * 400) / 4) :
    wdgUnit (wdgEnds (wdgServe n (wdgDisarmed n s))) n =
      { wdgUnit s n with armed := false, since := s.time.edges, openZero := false, warned := false } ∧
    ∀ k, k ≠ n → wdgUnit (wdgEnds (wdgServe n (wdgDisarmed n s))) k = wdgUnit s k := by
  have hunit := wdgUnit_wdgDisarmed n s
  have hserved := wdgServe_inWindow (n := n) (s := wdgDisarmed n s) (by rw [hunit]; exact hexpired) (by rw [wdgElapsed, hunit]; exact hopen)
    (by rw [hunit]; exact hclose)
  rw [hserved]
  refine ⟨?_, fun k hk => ?_⟩
  · refine (wdgUnit_modWdg_same n _ _).trans ?_
    rw [hunit, wdgPending]
    dsimp only
    rw [hpend]
    rfl
  · refine (wdgUnit_modWdg_other _ _ hk).trans (wdgUnit_modWdg_other _ _ hk)

/-- Settles O42: by the view that writes the key, whether it holds the unit, and what the unit's window shows. -/
theorem watchdogsGuardTheirWindows : Obligations.WatchdogsGuardTheirWindows := by
  refine ⟨?ways, ?keys, ?foreign, ?expiry, ?pulse, ?cycle⟩
  case ways =>
    intro n up s
    refine ⟨fun hacts => ?_, fun w => regWrite_wdgService n w s, fun v hv => ?_⟩
    · simp [Answers, exec, execWdgArm, execWdgService, hacts, serviceWrite]
    · rcases hv with rfl | rfl <;> exact ⟨rfl, rfl⟩
  case keys =>
    intro n v s hserves hholds henable hholder
    refine ⟨fun hidle => ?_, fun harmed hexpired hcycle hpend hopen hclose => ?_, fun w hw => ?_⟩
    · rw [wdgKey_served hserves, wdgWrite_arm hholds henable hholder hidle]
      rfl
    · rw [wdgKey_served hserves, wdgWrite_service hholds henable hholder harmed hexpired hcycle]
      exact wdgServe_units hexpired hpend hopen hclose
    · rw [wdgKey_served hserves, wdgWrite_badKey hholds henable hholder hw]
      rfl
  case foreign =>
    intro n v w s hserves hforeign
    rw [wdgKey_served hserves, wdgWrite_foreign hforeign]
    rfl
  case expiry =>
    intro n s henable hholder hon hlate
    have hexpires : (wdgCounts (wdgUnit s n) && !(s.boot == .off) && decide ((wdgUnit s n).close ≤ wdgElapsed s n)) = true := by
      simp [wdgCounts, henable, hholder, hon, hlate]
    rw [Answers, exec, execWdgExpiry, wdgExpire, if_pos hexpires]
  case pulse =>
    rintro n t s u hpulse hover hu
    refine ⟨fun hlast => ?_, fun hother => ?_⟩
    · simp [Answers, exec, execWdPulseEnd, wdgPulseEnd, hpulse, hover, ← hu, hlast]
    · simp [Answers, exec, execWdPulseEnd, wdgPulseEnd, hpulse, hover, ← hu, hother]
  case cycle => exact fun n s _ _ => rfl

end Sys2Proof.Machine
end

section
/-! SUPPORT. Proofs/EthernetPorts.lean: requests and links of an Ethernet port, and what its engine makes of a PTP message (R384, R396, R397,
R518). -/

namespace Sys2Proof.Machine

/-! ### The transmit queue (R396, R397) -/

theorem modNet_congr {p : Nat} {f g : NetPort → NetPort} {s : State} (h : f (netPort s p) = g (netPort s p)) : modNet p f s = modNet p g s := by
  unfold netPort at h
  simp only [modNet, tblMod, h]

@[simp] theorem netPort_icuEvent (n : Nat) (s : State) (p : Nat) : netPort (icuEvent n s) p = netPort s p := by
  simp [netPort]

@[simp] theorem netPort_emit (o : Out) (s : State) (p : Nat) : netPort (emit o s) p = netPort s p := rfl

/-- Sending a frame leaves the queue of its port alone. -/
theorem queue_netSend (p : Nat) (e : TxReq × Bool) (s : State) : (netPort (netSend p e s) p).queue = (netPort s p).queue := by
  unfold netSend
  extract_lets x u v t w y
  have hv : (netPort v p).queue = (netPort s p).queue := by
    unfold v
    rw [netPort_emit, netPort_modNet_same]
  have hy : (netPort y p).queue = (netPort s p).queue := by
    unfold y
    split
    · exact hv
    · rw [netPort_modNet_same]
      exact hv
  split
  · rfl
  split
  · split
    · rw [netPort_modNet_same]
      exact hy
    · rw [netPort_icuEvent, netPort_modNet_same]
      exact hy
  · exact hv

/-- A port with nothing queued sends a request without a launch time at once. -/
theorem netQueue_empty {p : Nat} {r : TxReq} {s : State} (hempty : (netPort s p).queue = []) (hnow : r.launchEn = false) :
    netQueue p (r, false) s =
      netSend p (r, false) (modNet p (fun x => { x with queue := x.queue.drop 1 }) (modNet p (fun x => { x with queue := [(r, false)] }) s)) := by
  have hqueued : modNet p (fun x => { x with queue := x.queue ++ [(r, false)] }) s = modNet p (fun x => { x with queue := [(r, false)] }) s :=
    modNet_congr (by simp [hempty])
  have hone : (netPort (modNet p (fun x => { x with queue := [(r, false)] }) s) p).queue = [(r, false)] :=
    congrArg NetPort.queue (netPort_modNet_same p _ s)
  rw [netQueue, hqueued]
  simp [hone, netPump, netHead, hnow]

/-! ### What the port's engine makes of a message (R384) -/

theorem ptpReceive_counted {p : Fin 2} {m : PtpMsg} {s : State} (hm : m ≠ .badFcs) :
    Answers (.ptpMessageReceive p m) s (ptpReceived p m s) := by
  cases m with
  | badFcs => exact absurd rfl hm
  | _ => rfl

/-- A message that the engine is given, with the port's stamp of its arrival. -/
theorem ptpReceive_fed {p : Fin 2} {m : PtpMsg} {s u t : State} (hm : m ≠ .badFcs)
    (hu : u = icuEvent (72 + 2 * p) (modNet p (fun x => { x with rx := wrapAt 16 (x.rx + 1) }) s)) (hfeed : (baseOf u (p + 1)).feed = true)
    (ht : ptpEngine p m u = t) : Answers (.ptpMessageReceive p m) s t := by
  have hcounted := ptpReceive_counted (p := p) (s := s) hm
  rw [ptpReceived, ← hu] at hcounted
  simpa [hfeed, ht] using hcounted

/-- Settles O43: by the queue's head, the link's state, and the kind of the message. -/
theorem ethernetPortsSendAndLink : Obligations.EthernetPortsSendAndLink := by
  refine fun p s => ⟨?request, ?launch, ?up, ?loss, ?retry, rfl, ?messages⟩
  case request =>
    intro r hempty hnow
    refine ⟨_, rfl, ?_⟩
    rw [Answers, exec, execEthTransmitRequest, netQueue_empty hempty hnow]
  case launch =>
    intro e hone hlaunch hearly hlate
    have hrest : (netPort (netSend p e (modNet p (fun x => { x with queue := x.queue.drop 1 }) s)) p).queue = [] := by
      rw [queue_netSend, netPort_modNet_same, hone]
      rfl
    have hdue : (e.1.launchEn && decide (-5 ≤ txAhead s p e.1) && decide (txAhead s p e.1 ≤ 5)) = true := by
      simp [hlaunch, hearly, hlate]
    rw [Answers, exec, execEthTransmitLaunch, hone]
    dsimp only
    rw [if_pos hdue, hrest]
    rfl
  case up =>
    intro ten hon hdown htry
    simp [Answers, exec, execEthLinkUp, hon, hdown, htry]
  case loss =>
    intro hup
    simp [Answers, exec, execEthLinkLoss, hup]
  case retry =>
    intro hon hdown hlong
    simp [Answers, exec, execEthLinkTryTimeout, hon, hdown, hlong]
  case messages =>
    intro u v t hu ht hv
    refine ⟨fun hfeed m hm => ?_, fun hfeed => ⟨?other, fun h => ⟨fun b htakes => ⟨?sync, ?followUp, ?delayResp, ?pdelayTwoStep, ?pdelayFollowUp⟩,
      ?syncTwoStep, ?pdelayOneStep, ?notTaken⟩⟩⟩
    · have hcounted := ptpReceive_counted (p := p) (s := s) hm
      rw [ptpReceived, ← hu] at hcounted
      simpa [hfeed] using hcounted
    case other => exact ptpReceive_fed (by simp) hu hfeed hv.symm
    case sync => exact ptpReceive_fed (by simp) hu hfeed (by simp [ptpEngine, htakes, ht, hv])
    case followUp =>
      intro t2 c2 hsync
      exact ptpReceive_fed (by simp) hu hfeed (by simp [ptpEngine, htakes, ← hv, hsync])
    case delayResp =>
      intro id d t3 hdiff hstamp
      exact ptpReceive_fed (by simp) hu hfeed (by simp [ptpEngine, htakes, ← hv, hdiff, hstamp])
    case pdelayTwoStep =>
      intro id t1 hstamp
      exact ptpReceive_fed (by simp) hu hfeed (by simp [ptpEngine, htakes, ← hv, ← ht, hstamp])
    case pdelayFollowUp =>
      intro t1 t2 t4 c2 hresp
      exact ptpReceive_fed (by simp) hu hfeed (by simp [ptpEngine, htakes, ← hv, hresp])
    case syncTwoStep =>
      intro htakes
      exact ptpReceive_fed (by simp) hu hfeed (by simp [ptpEngine, htakes, ht, hv])
    case pdelayOneStep =>
      intro id b b3 t1 htakes hstamp
      exact ptpReceive_fed (by simp) hu hfeed (by simp [ptpEngine, htakes, ← hv, ← ht, hstamp])
    case notTaken =>
      intro hnot
      exact ptpReceive_fed (by simp) hu hfeed (by simp [ptpEngine, hnot, hv])

end Sys2Proof.Machine
end

section
/-! SUPPORT. Proofs/CaptureAndPulses.lean: blocks of the capture ports, their frame synchronisation, event edges and pulses (R172 to R185). -/

namespace Sys2Proof.Machine

/-! ### Event inputs (R184) -/

theorem modEvt_congr {i : Nat} {f g : EvtIn → EvtIn} {s : State} (h : f (evtIn s i) = g (evtIn s i)) : modEvt i f s = modEvt i g s := by
  unfold evtIn at h
  simp only [modEvt, tblMod, h]

/-- An input that has not kept 16 edges keeps one more. -/
theorem modEvt_kept {i stamp : Nat} {rising : Bool} {s : State} (hroom : (evtIn s i).edges.length < 16) :
    modEvt i (fun e => if 16 ≤ e.edges.length then { e with lost := up16 e.lost } else { e with edges := e.edges ++ [(stamp, rising)] }) s =
      modEvt i (fun e => { e with edges := e.edges ++ [(stamp, rising)] }) s :=
  modEvt_congr (if_neg (Nat.not_le.mpr hroom))

/-- Settles O44: by what the port's stream waits for, the state of its frame synchronisation, and which edges are selected. -/
theorem captureKeepsItsBlocks : Obligations.CaptureKeepsItsBlocks := by
  refine fun s => ⟨?block, ?sync, ?unselected, ?selected, ?ppsIn, ?ppsRise, ?ppsFall⟩
  case block =>
    intro p back l n i r u v hstream hrec henable hrunning hshape hfit hu hv
    have hfits : ¬ ((!(capPort s p).enable || !(capPort s p).running || !blockShape r (capPort s p) l ||
        !edgesFit s (capPort s p) r.blockSamples back) = true) := by
      simp [henable, hrunning, hshape, hfit]
    have htime : tbSafe u = tbSafe s := by
      rw [hu]
      rfl
    simp only [Answers, exec, execCaptureBlock, hstream, hrec, Option.getD_some, if_neg hfits, ← hu]
    refine ⟨fun hfull => ?_, fun hroom hsome => ?_, fun hroom hall => ⟨unsgn 34 ((longOf v 3 : Int) - back +
      edgeError v (if (capPort s p).master then 1 else 5)), ?_⟩⟩
    · rw [if_pos hfull]
    · rw [if_neg (Nat.not_le.mpr hroom), htime, ← hv, if_pos hsome]
    · rw [if_neg (Nat.not_le.mpr hroom), htime, ← hv, if_neg (by omega)]
  case sync =>
    intro p henable hslave
    refine ⟨?_, fun hstopped => ?_⟩
    · simp [Answers, exec, execFsLost, henable, hslave]
    · have hwaits : ((capPort s p).enable && !(capPort s p).master && !(capPort s p).running) = true := by
        simp [henable, hslave, hstopped]
      refine ⟨_, 1 + Config.freeNat s.free % 32767, congrArg Host.Outcome.next (if_pos hwaits), by omega, by omega, ?_⟩
      exact capPort_modCap_same p _ s
  case unselected =>
    intro i rising hnot
    simp [Answers, exec, execEvtEdge, hnot]
  case selected =>
    intro i rising hselected hroom
    refine ⟨unsgn 34 ((longOf s 3 : Int) + edgeError s 5), _, rfl, ?_⟩
    rw [Answers, exec, execEvtEdge, if_neg (by simp [hselected])]
    dsimp only
    rw [modEvt_kept (s := drawn s) hroom]
  case ppsIn =>
    refine ⟨unsgn 34 ((longOf s 3 : Int) + edgeError s 5), _, rfl, fun hother => ?_, fun hpps => ⟨_, rfl, ?_⟩⟩
    · simp [Answers, exec, execPpsInEdge, hother]
    · simp [Answers, exec, execPpsInEdge, hpps]
  case ppsRise =>
    intro hon hlow hsecond
    have hrises : (s.cap.outEn && !s.cap.ppsOut && (decide (longOf s (ppsBase s) % 1000000000 ≤ 4) ||
        decide (999999996 ≤ longOf s (ppsBase s) % 1000000000))) = true := by
      simpa [hon, hlow] using hsecond
    rw [Answers, exec, execPpsOutRise, if_pos hrises]
    rfl
  case ppsFall =>
    intro hhigh hover
    have hfalls : (s.cap.ppsOut && decide (s.cap.outFell + ppsWidth s * 400000 ≤ s.time.edges)) = true := by
      simp [hhigh, hover]
    rw [Answers, exec, execPpsOutFall, if_pos hfalls]
    rfl

end Sys2Proof.Machine
end

section
/-! SUPPORT. Proofs/SafetyPins.lean: SAFE_REQ_n, the seal's re-read, the period of OKAY and the twin telegram (R401 to R418). -/

namespace Sys2Proof.Machine

/-! ### The pins (R401 to R409) -/

theorem safeReqN_long {n : Nat} {s : State} (hlong : 100 ≤ n) (hon : s.boot ≠ .off) :
    Answers (.safeReqN n) s (latchSafe 7 0 0 (icuLevel 121 true { s with sio := { s.sio with reqLow := true } })) := by
  rw [Answers, exec, execSafeReqN, if_neg (by omega)]
  cases hboot : s.boot with
  | off => exact absurd hboot hon
  | boot | ready | up => simp [hlong]

/-- A re-read that finds no pair faulty moves NOW alone. -/
theorem sealReread_good {x : Balls} {s : State} (hon : s.boot ≠ .off) (hran : 0 < s.time.edges) (hperiod : s.time.edges % 4000000 = 0)
    (hgood : ∀ i, i < 8 → pairFault s.sio.sealP [x, x, x, x] i = 0) :
    Answers (.sealReread [x, x, x, x]) s { s with sio := { s.sio with nowP := x.p, nowN := x.n, lastP := x.p, lastN := x.n } } := by
  have hnone : ((List.range 8).find? fun i => !(pairFault s.sio.sealP [x, x, x, x] i == 0)) = none := by
    rw [List.find?_eq_none]
    intro i hi
    simp [hgood i (List.mem_range.mp hi)]
  have hdue : (atMultiple s 4000000 && decide (0 < s.time.edges) && !(s.boot == .off)) = true := by
    simp [atMultiple, hperiod, hran, hon]
  rw [Answers, exec, execSealReread, if_pos hdue]
  simp [hnone]

theorem okayPeriod_ne_zero (s : State) : okayPeriod s ≠ 0 := by
  unfold okayPeriod
  split <;> decide

/-- A period of OKAY that begins with no hold. -/
theorem okayPeriodBoundary_toggles {s : State} (hfree : holds s = 0) (hperiod : s.time.edges % okayPeriod s = 0) :
    Answers .okayPeriodBoundary s (okayEdge 1 { s with sio := { s.sio with toggling := true } }) := by
  have hdue : (atMultiple s (okayPeriod s) && holds s == 0) = true := by
    simp [atMultiple, okayPeriod_ne_zero, hperiod, hfree]
  rw [Answers, exec, execOkayPeriodBoundary, if_pos hdue]

/-! ### The telegram (R413 to R418) -/

/-- What a telegram does that falls due now. -/
theorem telegramBuild_due {inTime : Bool} {s : State} (henable : s.sio.tgEnable = true) (hready : 2 ≤ deviceState s) (hcycle : s.sio.txCycle ≠ 0)
    (htime : (s.time.edges + 80000) % (s.sio.txCycle * 40000) = 0) :
    Answers (.telegramBuild inTime) s (
      if inTime && !s.pair.halted then
        if (netPort s 0).addr = 0 && (netPort s 1).addr = 0 then s
        else
        let r := telegramReq s
        let s := telegramOn 1 r (telegramOn 0 r s)
        { s with sio := { s.sio with alive := wrapAt 16 (s.sio.alive + 1) } }
      else { s with sio := { s.sio with missed := up8 s.sio.missed } }) := by
  have hdue : (s.sio.tgEnable && decide (2 ≤ deviceState s) && !(s.sio.txCycle == 0) &&
      (s.time.edges + 80000) % (s.sio.txCycle * 40000) == 0) = true := by
    simp [henable, hready, hcycle, htime]
  rw [Answers, exec, execTelegramBuild, if_pos hdue]

/-- Settles O45: by how long the pin is low, what the samples show, and what the telegram's cycle and wait have come to. -/
theorem safetyPinsAndTelegrams : Obligations.SafetyPinsAndTelegrams := by
  refine fun s => ⟨fun n hlong hon => safeReqN_long hlong hon, fun n hshort => ?short, rfl,
    fun x hon hran hperiod hgood => sealReread_good hon hran hperiod hgood, ?okay, ?build, ?copy, ?wait, ?timeout⟩
  case short => rw [Answers, exec, execSafeReqN, if_pos hshort]
  case okay =>
    intro hfree hperiod
    have hedge := okayPeriodBoundary_toggles hfree hperiod
    refine ⟨fun hlow => ?_, fun hb => ?_⟩
    · simpa [okayEdge, hlow, emit] using hedge
    · simpa [okayEdge, hb, emit] using hedge
  case build =>
    intro henable hready hcycle htime
    refine ⟨fun hrunning haddr => ⟨_, rfl, ?_⟩, ?_⟩
    · have hport : ¬ (((netPort s 0).addr = 0 && (netPort s 1).addr = 0) = true) := by
        intro hneither
        obtain ⟨hna, hnb⟩ := (Bool.and_eq_true ..).mp hneither
        exact haddr.elim (· (of_decide_eq_true hna)) (· (of_decide_eq_true hnb))
      have hbuilt := telegramBuild_due (inTime := true) henable hready hcycle htime
      rwa [if_pos (by simp [hrunning]), if_neg hport] at hbuilt
    · have hmissed := telegramBuild_due (inTime := false) henable hready hcycle htime
      rwa [if_neg (by simp)] at hmissed
  case copy =>
    intro p b u hu hreceives haddr
    have htakes : ¬ ((u.sio.rxCycle = 0 || (netPort u p).addr = 0) = true) := by
      simp [hreceives]
      exact haddr
    simp only [Answers, exec, execTelegramCopyReceive, ← hu, if_neg htakes]
    refine ⟨fun hvalid hforeign => ?_, fun hnone => ⟨fun hvalid hown => ?_, fun hbad => ?_⟩⟩
    · rw [if_pos hvalid, if_pos hforeign]
    · simp [hvalid, hown, hnone]
    · simp [hbad, hnone]
  case wait =>
    intro w hwait hover
    simp [Answers, exec, execTelegramWaitExpiry, hwait, hover]
  case timeout =>
    intro hreceives hfresh hlong
    simp [Answers, exec, execTelegramRxTimeout, hreceives, hfresh, hlong]

end Sys2Proof.Machine
end

section
/-! SUPPORT. Proofs/RingLinks.lean: blocks that a node receives, sends again and stamps, and links that go down (R136 to R155). -/

namespace Sys2Proof.Machine

/-! ### A block that comes in (R136 to R142) -/

theorem block_reaches {node : Fin 5} {east : Bool} {b : List Byte} {s : State} (hup : portUp s node east = true) (hlen : b.length = 80) :
    ¬ ((!portUp s node east || !(b.length == 80)) = true) := by
  simp [hup, hlen]

/-- The port as an expected block leaves it, before its payload is looked at. -/
def blockTaken (node : Nat) (east : Bool) (b : List Byte) (s : State) : State :=
  modPort node east (fun p => { p with
    expect := (p.expect + 1) % 256, lastRecv := s.time.edges, sent := unacked (slotFld b 83 76) p.sent
    credits := tblMod 32 p.credits (slotFld b 85 84) (fun n => min 32 (n + slotFld b 90 86)) }) s

/-- What answers an expected block. -/
theorem linkBlockReceive_expected {node : Fin 5} {east : Bool} {b : List Byte} {s : State} (hup : portUp s node east = true) (hlen : b.length = 80)
    (hcrc : rd b 76 4 = (crc32c (b.take 76)).toNat) (hseq : slotFld b 75 68 = (portOf s node east).expect) :
    Answers (.linkBlockReceive node east b) s (
      let u := blockPayload node east b (blockTaken node east b s)
      match choosePacket (portOf u node east) with
      | some _ => portSend node east u
      | none => creditSettle node east (sendBlock node east 3 [] u)) := by
  rw [Answers, exec, execLinkBlockReceive, if_neg (block_reaches hup hlen)]
  dsimp only
  rw [if_neg (by simp [hcrc]), if_neg (by simp [hseq])]
  rfl

/-! ### Blocks sent again (R140, R141) -/

/-- The oldest unacknowledged block has waited 600 ns. -/
theorem retry_due {node : Fin 5} {east : Bool} {b : SentBlock} {r : List SentBlock} {s : State} (hup : portUp s node east = true)
    (hsent : (portOf s node east).sent = b :: r) (hlate : b.at_ + 240 ≤ s.time.edges) :
    (portUp s node east && ((portOf s node east).sent.head?.any fun b => decide (b.at_ + 240 ≤ s.time.edges))) = true := by
  simp [hup, hsent, hlate]

theorem linkRetryTimeout_again {node : Fin 5} {east : Bool} {b : SentBlock} {r : List SentBlock} {s : State} (hup : portUp s node east = true)
    (hsent : (portOf s node east).sent = b :: r) (hlate : b.at_ + 240 ≤ s.time.edges) (hfew : sentOut (portOf s node east) = false) :
    ∃ t, Answers (.linkRetryTimeout node east) s t ∧ (portOf t node east).sent.map (fun e => (e.bseq, e.sends, e.at_)) =
      (portOf s node east).sent.map fun e => (e.bseq, e.sends + 1, s.time.edges) := by
  refine ⟨_, congrArg Host.Outcome.next ((if_pos (retry_due hup hsent hlate)).trans (if_neg (by simp [hfew]))), ?_⟩
  refine (congrArg (fun p : Port => p.sent.map fun e => (e.bseq, e.sends, e.at_)) (portOf_modPort_same ..)).trans ?_
  simp [Function.comp_def]

/-! ### Time blocks (R153, R154) -/

/-- What a time block with a stamp and an echo does: `u` has its stamps, `v` the link delay. -/
theorem timeBlockReceive_echo {node : Fin 5} {east : Bool} {t a b : Int} {s u v : State} (hup : portUp s node east = true)
    (hu : u = modPort node east (fun p => { p with rxStamp := nodeTime s node, rxTime := t }) s)
    (hv : v = modPort node east (fun p => { p with delay := ((b - a) + (nodeTime s node - t)) / 2 }) u) :
    Answers (.timeBlockReceive node east (some t) (some (a, b))) s (
      if node = 0 || (die s (node - 1)).inReset || !(timeSide s node == east) then v
      else timeOffset (node - 1) (neighbour node east) (((a - b) + (nodeTime s node - t)) / 2) v) := by
  have hdie : die v (node - 1) = die s (node - 1) := by
    rw [hv, hu]
    rfl
  have hside : timeSide v node = timeSide s node := by
    rw [hv, hu]
    rfl
  rw [Answers, exec, execTimeBlockReceive, if_neg (by simp [hup])]
  simp only [← hu, ← hv, hdie, hside]

/-- Settles O46: by the block's checks, the blocks that wait, the causes of a link to go down, and the side a die takes its time from. -/
theorem ringCarriesAndRetries : Obligations.RingCarriesAndRetries := by
  refine fun node east s => ⟨fun hup => ⟨?badCrc, ?unexpected, ?expected, ?retry, ?send, ?noStamp, ?receive⟩, ?down, ?state⟩
  case badCrc =>
    intro b hlen hcrc
    rw [Answers, exec, execLinkBlockReceive, if_neg (block_reaches hup hlen)]
    dsimp only
    rw [if_pos (by simpa using hcrc)]
  case unexpected =>
    intro b hlen hcrc hseq
    rw [Answers, exec, execLinkBlockReceive, if_neg (block_reaches hup hlen)]
    dsimp only
    rw [if_neg (by simp [hcrc]), if_pos (by simpa using hseq)]
  case expected =>
    intro b u hlen hcrc hseq hu
    have hanswer := linkBlockReceive_expected hup hlen hcrc hseq
    rw [show blockPayload node east b (blockTaken node east b s) = u from hu.symm] at hanswer
    refine ⟨fun hnext => ?_, fun hnone => ?_⟩
    · obtain ⟨e, he⟩ := Option.isSome_iff_exists.mp hnext
      simpa [he] using hanswer
    · simpa [hnone] using hanswer
  case retry =>
    intro b r hsent hlate
    refine ⟨fun hfew => linkRetryTimeout_again hup hsent hlate hfew, fun hout => ?_⟩
    rw [Answers, exec, execLinkRetryTimeout, if_pos (retry_due hup hsent hlate), if_pos hout]
  case send =>
    refine ⟨_, rfl, ?_⟩
    rw [Answers, exec, execTimeBlockSend, if_pos hup]
  case noStamp =>
    intro echo
    simp [Answers, exec, execTimeBlockReceive, hup]
  case receive =>
    intro t u hu
    refine ⟨?_, fun a b v hv => ?_⟩
    · simp [Answers, exec, execTimeBlockReceive, hup, ← hu]
    · have hecho := timeBlockReceive_echo hup hu hv
      refine ⟨fun hnot => ?_, fun hnode hreleased hside => ?_⟩
      · rwa [if_pos] at hecho
        rcases hnot with h0 | hreset | hother
        · simp [Fin.ext_iff, h0]
        · simp [hreset]
        · simp [hother]
      · have hfrom : ¬ ((node = 0 || (die s (node - 1)).inReset || !(timeSide s node == east)) = true) := by
          simp [Fin.ext_iff, hnode, hreleased, hside]
        rwa [if_neg hfrom] at hecho
  case down =>
    intro k cause hup hcause
    simp [Answers, exec, execLinkDown, hup, hcause]
  case state =>
    intro d up q hreleased hnew
    simp [Answers, exec, execRingState, Fin.succ_ne_zero, hreleased, hnew]

end Sys2Proof.Machine
end

section
/-! SUPPORT. Proofs/DieDiscovery.lean: dies announce themselves, are found by the tokens, or are lost (R131 to R134, R151, R152, R155, R156, R425). -/

namespace Sys2Proof.Machine

/-! ### HELLO (R152) -/

theorem hello_heard {d : Fin 4} {st : SelfTest} {s u : State} (hreleased : (die s d).inReset = false) (hnew : (die s d).hello = false)
    (hcode : (die s d).microcode = true) (hheard : heardBy s d = true) (hintime : announceLate s d = false)
    (hu : u = dieHello d (selfTestOf st) (sendHello d s)) :
    Answers (.hello d st) s (if (die s d).dReset.isSome then (if (die u d).st = 5 then execHello.dResetFailed d u else dResetEnds d u)
      else discoverWhenAll u) := by
  have hannounces : ¬ (((die s d).inReset || (die s d).hello || !(die s d).microcode || !(heardBy s d)) = true) := by
    simp [hreleased, hnew, hcode, hheard]
  rw [Answers, exec, execHello, if_neg hannounces, if_neg (by simp [hintime]), hu]

/-! ### DISCOVER (R152) -/

/-- A token is taken from the ring. -/
def tokenTaken (t : Bool × Nat × Nat) (s : State) : State := { s with ring := { s.ring with tokens := s.ring.tokens.filter fun x => !(x == t) } }

theorem discover_die {d : Fin 4} {east : Bool} {hops : Nat} {s v : State} (htoken : (east, d.val + 1, hops) ∈ s.ring.tokens)
    (hreleased : (die s d).inReset = false)
    (hv : v = modDie d (fun x => { x with hop := x.hop.orElse fun _ => some (east, hops + 1) }) (tokenTaken (east, d.val + 1, hops) s)) :
    Answers (.discover d.succ east hops) s (if portUp s d.succ east then
      { v with ring := { v.ring with tokens := (east, neighbour d.succ east, hops + 1) :: v.ring.tokens } } else v) := by
  have hnode : d.succ.val = d.val + 1 := rfl
  rw [Answers, exec, execDiscover, hnode, if_neg (not_not_intro htoken), if_neg (Fin.succ_ne_zero d), Nat.add_sub_cancel]
  dsimp only
  rw [if_neg (by simpa [die] using hreleased), hv]
  rfl

/-- Settles O47: each event under the condition that its execution tests, in the order in which the dies are found. -/
theorem diesAnnounceAndAreFound : Obligations.DiesAnnounceAndAreFound := by
  refine ⟨?hello, ?token, ?returned, ?silent, ?eastLost, ?westLost, ?dies⟩
  case hello =>
    intro d st s u hreleased hnew hcode hheard hintime hu
    have hanswer := hello_heard hreleased hnew hcode hheard hintime hu
    refine ⟨fun hfirst => ?_, fun hreset hgood => ?_⟩
    · simpa [hfirst] using hanswer
    · simpa [hreset, hgood] using hanswer
  case token =>
    intro east d hops s u v htoken hreleased hu hv
    have hanswer := discover_die htoken hreleased (hv.trans (congrArg _ hu))
    refine ⟨fun hup => ?_, fun hdown => ?_⟩
    · rwa [if_pos hup] at hanswer
    · rwa [if_neg (Bool.eq_false_iff.mp hdown)] at hanswer
  case returned =>
    intro east hops s htoken
    have htoken' : (east, (0 : Fin 5).val, hops) ∈ s.ring.tokens := htoken
    rw [Answers, exec, execDiscover, if_neg (not_not_intro htoken'), if_pos rfl]
    rfl
  case silent =>
    intro x s u hx hfinds hnotYet hlate hu hstill
    have hdue : (discovering s && s.ring.east.isNone && decide (x + 600000000 ≤ s.time.edges)) = true := by
      simp [hfinds, hnotYet, hlate]
    simp only [Answers, exec, execDiscoveryTimeout, hx, if_pos hdue, ← hu, hstill]
    rfl
  case eastLost =>
    intro e s heast hwest hlate
    simp [Answers, exec, execDiscoverReturnTimeout, heast, hwest, hlate]
  case westLost =>
    intro e w s heast hwest hlate
    simp [Answers, exec, execDiscoverReturnTimeout, hwest, hlate]
  case dies =>
    intro d s hreleased hpresent
    refine ⟨fun hnew hlate => ?_, fun hawake hcut => ?_, fun halarm hheard hlate hunread => ?_⟩
    · simp [Answers, exec, execDieAnnounceTimeout, hreleased, hnew, hpresent, hlate]
    · simp [Answers, exec, execDieUnreachable, hreleased, hpresent, hawake, hcut]
    · have hexpires : (alarmCode (die s d) && alarmHeard (die s d) && decide ((die s d).almAt + 400000 ≤ s.time.edges) &&
          !((die s d).seq.any fun q => q.read)) = true := by
        rw [halarm, hheard, hunread, decide_eq_true hlate]
        rfl
      rw [Answers, exec, execAlarmHoldExpiry, if_pos hexpires]

end Sys2Proof.Machine
end

section
/-! SUPPORT. Proofs/DieCommands.lean: what each command packet does at its first arrival, and alarms and code that come to a die (R122 to R124,
R150, R151, R425). -/

namespace Sys2Proof.Machine

/-! ### Alarms (R122) -/

/-- A core that holds no frame names no copy. -/
theorem coreCopy_idle {d i : Nat} {s : State} (hidle : (coreOf s d i).frame = none) : coreCopy s d i = none := by
  simp [coreCopy, hidle]

/-- A frame of the die that a free value picks, where there is one. -/
theorem picked_frame (l : List (FrameId × Bool)) (i : Nat) : l[i]? = none ∨ ∃ x ∈ l, l[i]? = some x := by
  cases h : l[i]? with
  | none => exact .inl rfl
  | some x => exact .inr ⟨x, List.mem_of_getElem? h, rfl⟩

/-! ### The fence of a die (R124, R297) -/

theorem fence_command {d : Fin 4} {e : Hdr × Nat × Nat × Bool} {s : State} (hseq : (die s d).seq = none)
    (hfind : (die s d).fenceCmds.find? (fun e => !e.2.2.2) = some e) :
    Answers (.fence d) s (cmdArrives d cmdFence [e.2.1, e.2.2.1] (fenceCommand d e) s) := by
  rw [Answers, exec, execFence, hseq, hfind]
  rfl

theorem fence_sequence {d : Fin 4} {q : FenceSeq} {s : State} (hseq : (die s d).seq = some q) (hread : q.read = true)
    (hwants : wantsFence q = true) : Answers (.fence d) s (cmdArrives d cmdFence [] (fenceSeq d q) s) := by
  simp [Answers, exec, execFence, hseq, Option.filter, hread, hwants]

theorem fence_repeated {d : Fin 4} {s : State} (hseq : (die s d).seq = none) (hnone : (die s d).fenceCmds = []) :
    Answers (.fence d) s (cmdArrives d cmdFence [] (fun s => s) s) := by
  simp [Answers, exec, execFence, hseq, hnone]

/-- A command that the die has executed before is acknowledged again. -/
theorem cmdArrives_again {d kind : Nat} {args : List Nat} {e : Nat × Nat × List Nat} {f : State → State} {s : State}
    (hreleased : (die s d).inReset = false)
    (hnew : (die s d).cmds.find? (fun c => c.kind == kind && c.args == args && !executedSeq (die s d) c.seq) = none)
    (hold : (die s d).executed.find? (fun e => e.2.1 == kind && e.2.2 == args) = some e) : cmdArrives d kind args f s = ackCmd d e.1 s := by
  simp [cmdArrives, hreleased, hnew, hold]

/-- Settles O48: each command packet meets `cmdArrives_sent`; code and alarms act at once on a released die. -/
theorem diesTakeCommands : Obligations.DiesTakeCommands := by
  refine fun d c s => ⟨?launch, ?fenceSequence, ?fenceCommand, ?cause, ?descriptor, ?scan, ?derived, ?again, ?code, ?alarm, ?clear, ?clearRead⟩
  case launch =>
    intro f at_ hsent
    rw [Answers, exec, execLaunchCmd, cmdArrives_sent hsent]
  case fenceSequence =>
    intro q hseq hread hwants hsent
    have hfence := fence_sequence hseq hread hwants
    rwa [cmdArrives_sent hsent] at hfence
  case fenceCommand =>
    intro e hseq hfind hsent
    have hfence := fence_command hseq hfind
    rwa [cmdArrives_sent hsent] at hfence
  case cause =>
    intro q hreleased hseq hunread hfirmware
    refine ⟨_, rfl, fun hwants => ?_, fun hnot => ?_⟩
    · simp [Answers, exec, execReadCause, hseq, hunread, hreleased, hfirmware, hwants]
    · simp [Answers, exec, execReadCause, hseq, hunread, hreleased, hfirmware, hnot]
  case descriptor =>
    intro slot b hlen hslot hsent
    refine ⟨_, rfl, ?_⟩
    rw [Answers, exec, execDescriptorWrite, if_pos ⟨hlen, hslot⟩, cmdArrives_sent hsent]
  case scan =>
    intro slot hslot hsent
    refine ⟨_, rfl, ?_⟩
    rw [Answers, exec, execScanStateReset, if_pos hslot, cmdArrives_sent hsent]
  case derived =>
    intro slot rows gap hslot hkind hsent
    rw [Answers, exec, execDerivedCommit, if_pos ⟨hslot, hkind⟩, cmdArrives_sent hsent]
  case again =>
    intro e hreleased hseq hnone hnew hold
    have hfence := fence_repeated hseq hnone
    rwa [cmdArrives_again hreleased hnew hold] at hfence
  case code =>
    intro code hreleased
    refine ⟨fun hboots hunheard hfresh => ?_, fun p r i => ?_⟩
    · simp [Answers, exec, execCodePacket, hreleased, hboots, hunheard, hfresh]
    · simp [Answers, exec, execCodePacket, hreleased]
  case alarm =>
    intro hreleased
    refine ⟨⟨_, picked_frame (framesOn s d (List.range 64)) (Config.freeNat s.free % max 1 (framesOn s d (List.range 64)).length), ?_⟩,
      fun slot => ?_, fun c k hidle => ?_⟩
    · simp [Answers, exec, execAlarmAssert, hreleased]
    · simp [Answers, exec, execAlarmAssert, hreleased]
    · simp [Answers, exec, execAlarmAssert, hreleased, coreCopy_idle hidle]
  case clear =>
    intro hseq halarm
    simp [Answers, exec, execAlarmClear, hseq, halarm]
  case clearRead =>
    intro q hseq hread hnot
    simp [Answers, exec, execAlarmClear, hseq, hread, hnot]

end Sys2Proof.Machine
end

section
/-! SUPPORT. Proofs/FrameStarts.lean: launches are converted and due, frames start and meet their deadlines, slots open and regions are reloaded
(R181, R188 to R199, R394). -/

namespace Sys2Proof.Machine

/-- Staging writes store rooms only. -/
theorem stageStore_parts (d n g : Nat) (cl : List Nat) (s : State) : (stageStore d n g cl s).parts = s.parts := by
  unfold stageStore
  split
  · rfl
  · extract_lets r b put
    split
    · rfl
    · exact foldl_keep State.parts (fun s c => modDie d (fun x => { x with store := tblMod [] x.store c put }) s) cl (fun _ _ => rfl) s

theorem stageOn_parts (n g k : Nat) (cl : List Nat) (s : State) : (stageOn n g k cl s).parts = s.parts := by
  unfold stageOn
  split
  · exact stageStore_parts ..
  · rfl

/-- What a region's layout says depends on the partitions alone, and on their layouts only. -/
theorem regionRec_of_parts {s t : State} (h : s.parts = t.parts) (n g : Nat) : regionRec s n g = regionRec t n g := by
  rw [regionRec, regionRec, part, part, h]

theorem regionRec_modRegion (n g : Nat) (f : RegionRt → RegionRt) (s : State) : regionRec (modRegion n g f s) n g = regionRec s n g := by
  rw [regionRec, modRegion, part_modPart_same]
  rfl

/-- Settles O50: each event under the condition that its execution tests. -/
theorem framesAreLaunchedAndStarted : Obligations.FramesAreLaunchedAndStarted := by
  refine ⟨?convert, ?launch, ?start, ?deadlines, ?slot, ?partner, ?reload⟩
  case convert =>
    rintro n p r t L s hplan hbase hruns rfl rfl hahead hnear
    simp only [Answers, exec, execLaunchConvert, hplan, hruns, Bool.not_true, Bool.false_eq_true, if_false, if_neg hbase,
      if_neg (Int.not_lt.mpr hnear), if_pos hahead]
    rfl
  case launch =>
    intro n p k sched L r s u hdue hplan hu
    refine ⟨_, rfl, ?_⟩
    simp only [Answers, exec, execFrameLaunch, hdue, hplan, ← hu]
  case start =>
    intro d id tw s hpick
    simp [Answers, exec, execFrameStart, startOne, hpick]
  case deadlines =>
    intro f x s hframe
    refine ⟨fun halone hrunning hdue => ?_, fun hwaits hqueued htuning hdue => ?_⟩
    · simp [Answers, exec, execDeadlineExpiry, hframe, copiesOf, halone, hrunning, hdue]
    · simp [Answers, exec, execWaitDeadlineExpiry, hframe, hwaits, hqueued, htuning, hdue]
  case slot =>
    intro n g t s htuning hnext hdue
    simp only [Answers, exec, execTuningSlotOpen, htuning]
    rw [if_neg (by simp [hnext, hdue])]
  case partner =>
    intro n g s hreload
    simp [Answers, exec, execRegionReloadDone, hreload]
  case reload =>
    intro n g s u hreload hnone hu
    have hlayout : regionRec u n g = regionRec s n g := by
      rw [hu, regionRec_of_parts (stageOn_parts ..), regionRec_modRegion]
    have hnoSlot : ∀ l : List Frame, ¬ ((((regionRec { u with frames := l } n g).bind (·.tuning)).isSome &&
        (part { u with frames := l } n).st == 2) = true) := by
      intro l
      have hframes : regionRec { u with frames := l } n g = regionRec u n g := regionRec_of_parts rfl n g
      rw [hframes, hlayout, hnone]
      simp
    simp only [Answers, exec, execRegionReloadDone, reloading, hreload, ← hu, Bool.false_eq_true, if_false, Bool.not_true]
    rw [if_neg (hnoSlot _)]

end Sys2Proof.Machine
end

section
/-! SUPPORT. Proofs/Pegs.lean: what the operations of a core do to its region's pegs (R117, R118). -/

namespace Sys2Proof.Machine

/-! ### Peg operations (R117) -/

/-- An operation that the peg takes does its effect. -/
theorem pegOp_takes {d i peg : Nat} {g : Peg → Option (State → State)} {f : Frame} {tw : Bool} {c : Copy} {p : Peg} {k : State → State} {s : State}
    (hcore : coreActs s d i = some (f, tw, c)) (hpeg : pegOf s d f.id.part c.region peg = some p) (htakes : g p = some k) :
    pegOp d i peg g s = k s := by
  rw [pegOp_eq d i peg g f tw c p s hcore hpeg, htakes]

/-- One that it does not take, and one on a peg that is not there, is a peg fault of the core. -/
theorem pegOp_faults {d i peg : Nat} {g : Peg → Option (State → State)} {f : Frame} {tw : Bool} {c : Copy} {s : State}
    (hcore : coreActs s d i = some (f, tw, c)) (hrefused : (pegOf s d f.id.part c.region peg).bind g = none) :
    pegOp d i peg g s = pegFault d i f tw s := by
  simp only [pegOp, hcore, hrefused]

/-- Without a waiting core nothing takes what a POST counted. -/
theorem wakeTake_nobody {d peg : Nat} (p : Peg) {s : State} (hnone : waiters s d peg = []) : wakeTake d peg p s = s := by
  simp only [wakeTake, hnone]

/-- A peg's new value leaves the waiting cores as they are. -/
theorem waiters_pegSetTo (d peg : Nat) (p : Peg) (s : State) : waiters (pegSetTo d peg p s) d peg = waiters s d peg := by
  rw [waiters, die_pegSetTo]
  rfl

/-- Counts of a die leave its cores as they are. -/
theorem coreOf_dieCount (d o k i : Nat) (s : State) : coreOf (dieCount d o k s) d i = coreOf s d i := by
  rw [coreOf, dieCount, die_modDie_same]
  rfl

/-- A core that waits names the peg. -/
theorem waitPeg_pegWaits (d core peg : Nat) (s : State) : (coreOf (pegWaits d core peg s) d core).waitPeg = some peg := by
  rw [pegWaits, clusterCount, coreOf_dieCount, coreOf_modCore_same]

/-- Settles O52: every operation is `pegOp` with its own table of what the peg takes. -/
theorem pegsSynchroniseCores : Obligations.PegsSynchroniseCores := by
  intro d core peg f tw c s hcore
  refine ⟨fun p hpeg => ⟨?arrive, ?opens, ?waits, ?passes, ?post, ?take, ?takeWaits, ?set, ?badArrive, ?badWait, ?badCount, ?badSet⟩, ?noPeg⟩
  case arrive =>
    intro hkind hshut hmore
    have hopen : (p.arrivals + 1 == p.expected) = false := beq_eq_false_iff_ne.mpr hmore
    refine congrArg Host.Outcome.next ((pegOp_takes hcore hpeg (if_neg (by simp [hkind, hshut]))).trans ?_)
    simp only [hopen, hshut, Bool.false_eq_true, if_false]
  case opens =>
    intro hkind hshut hlast
    refine congrArg Host.Outcome.next ((pegOp_takes hcore hpeg (if_neg (by simp [hkind, hshut]))).trans ?_)
    simp only [hlast, beq_self_eq_true, if_true]
  case waits =>
    intro hkind hshut hclear
    exact ⟨congrArg Host.Outcome.next (pegOp_takes hcore hpeg ((if_neg hkind).trans (if_neg (by simp [hshut, hclear])))), waitPeg_pegWaits ..⟩
  case passes =>
    intro hkind hready
    exact congrArg Host.Outcome.next (pegOp_takes hcore hpeg ((if_neg hkind).trans (if_pos (by simpa using hready))))
  case post =>
    intro hkind hroom hnone
    refine congrArg Host.Outcome.next ((pegOp_takes hcore hpeg (if_neg (by omega))).trans ?_)
    exact wakeTake_nobody _ ((waiters_pegSetTo ..).trans hnone)
  case take =>
    intro hkind hcount
    exact congrArg Host.Outcome.next (pegOp_takes hcore hpeg ((if_neg (not_not_intro hkind)).trans (if_pos hcount)))
  case takeWaits =>
    intro hkind hcount
    exact congrArg Host.Outcome.next (pegOp_takes hcore hpeg ((if_neg (not_not_intro hkind)).trans (if_neg (by omega))))
  case set =>
    intro hkind hclear
    refine congrArg Host.Outcome.next ((pegOp_takes hcore hpeg (if_neg ?_)).trans rfl)
    simp [hkind, hclear]
  case badArrive =>
    intro hbad
    exact congrArg Host.Outcome.next (pegOp_faults hcore (by simp [hpeg, hbad]))
  case badWait =>
    intro hbad
    exact congrArg Host.Outcome.next (pegOp_faults hcore (by simp [hpeg, hbad]))
  case badCount =>
    intro hbad
    exact ⟨congrArg Host.Outcome.next (pegOp_faults hcore (by simp [hpeg, hbad])),
      congrArg Host.Outcome.next (pegOp_faults hcore (by simp [hpeg, hbad]))⟩
  case badSet =>
    intro hbad
    exact congrArg Host.Outcome.next (pegOp_faults hcore (by simp [hpeg, hbad]))
  case noPeg =>
    rintro hnone u rfl
    have hfault (g : Peg → Option (State → State)) : pegOp d core peg g s = pegFault d core f tw s := pegOp_faults hcore (by simp [hnone])
    exact ⟨congrArg _ (hfault _), congrArg _ (hfault _), congrArg _ (hfault _), congrArg _ (hfault _), congrArg _ (hfault _)⟩

end Sys2Proof.Machine
end

section
/-! SUPPORT. Proofs/Slivers.lean: a core's batches, their boundaries, its slivers, its DMA and the end of its region (R110 to R118, R196). -/

namespace Sys2Proof.Machine

/-! ### What a cluster has under way: `workOf` after each part of a sliver's end -/

theorem workOf_of_work {s t : State} {d : Nat} (h : (die s d).work = (die t d).work) (c : Nat) : workOf s d c = workOf t d c := by
  rw [workOf, workOf, h]

theorem work_dieCount (d o k : Nat) (s : State) : (die (dieCount d o k s) d).work = (die s d).work := by
  rw [dieCount, die_modDie_same]

theorem work_modCore (d i : Nat) (f : Core → Core) (s : State) : (die (modCore d i f s) d).work = (die s d).work := by
  rw [modCore, die_modDie_same]

theorem workOf_coreBusyCount (d i c : Nat) (s : State) : workOf (coreBusyCount d i s) d c = workOf s d c := by
  apply workOf_of_work
  unfold coreBusyCount
  extract_lets x k
  split
  · rfl
  · exact (work_dieCount ..).trans (work_modCore ..)

theorem work_wakeAll (d peg : Nat) (s : State) : (die (wakeAll d peg s) d).work = (die s d).work :=
  foldl_keep (fun s => (die s d).work) (fun s i => wakeCore d i s) _ (fun _ _ => (work_dieCount ..).trans (work_modCore ..)) s

theorem workOf_stepArrive (d n g c k : Nat) (s : State) : workOf (stepArrive d n g c s) d k = workOf s d k := by
  refine workOf_of_work (foldl_keep (fun s => (die s d).work) _ _ (fun s e => ?_) s) k
  extract_lets a p u
  have hu : (die u d).work = (die s d).work := by rw [die_modDie_same]
  split
  · exact (work_wakeAll ..).trans hu
  · exact hu

theorem workOf_setWork (d c : Nat) (w : Work) (s : State) : workOf (setWork d c w s) d c = some w := by
  rw [workOf, setWork, die_modDie_same]
  exact tblFind_put_same ..

/-- Counting a cluster's busy cycles moves only where its count goes on from. -/
theorem workOf_clusterBusyCount {d c : Nat} {w : Work} {s : State} (hw : workOf s d c = some w) :
    ∃ t, workOf (clusterBusyCount d c s) d c = some { w with since := t } := by
  simp only [clusterBusyCount, hw]
  split
  · exact ⟨w.since, hw⟩
  · exact ⟨_, workOf_setWork ..⟩

/-! ### Handing out the next sliver (R110, R123) -/

/-- A core that may take a sliver has the next one, and the cluster one more outstanding. -/
theorem handSliver_takes {d c k i : Nat} {w v : Work} {s : State} (hw : workOf s d c = some w) (hnext : nextSliver w = some (i, v))
    (hlive : k ∈ w.live) :
    (coreOf (handSliver d c k s) d (32 * c + k)).sliver = i + 1 ∧ (coreOf (handSliver d c k s) d (32 * c + k)).frame = some w.frame ∧
    ∃ t, workOf (handSliver d c k s) d c = some { v with out := w.out + 1, since := t } := by
  have htake : (nextSliver w).filter (fun _ => mayTake w k) = some (i, v) := by simp [hnext, mayTake, hlive]
  simp only [handSliver, workOf_coreBusyCount, hw, htake]
  refine ⟨?sliver, ?frame, ?since, ?work⟩
  case sliver =>
    rw [clusterCount, coreOf_dieCount, coreOf_modCore_same]
  case frame =>
    rw [clusterCount, coreOf_dieCount, coreOf_modCore_same]
  case work =>
    rw [clusterCount, workOf_of_work ((work_dieCount ..).trans (work_modCore ..)), workOf_setWork]

/-- With nothing left to hand out the core is without a sliver, the cluster's work as it was. -/
theorem handSliver_idles {d c k : Nat} {w : Work} {s : State} (hw : workOf s d c = some w) (hnone : nextSliver w = none) :
    (coreOf (handSliver d c k s) d (32 * c + k)).sliver = 0 ∧ (coreOf (handSliver d c k s) d (32 * c + k)).frame = none ∧
    workOf (handSliver d c k s) d c = some w := by
  simp only [handSliver, workOf_coreBusyCount, hw, hnone, Option.filter_none, coreOf_modCore_same]
  exact ⟨trivial, trivial, (workOf_of_work (work_modCore ..) c).trans ((workOf_coreBusyCount ..).trans hw)⟩

/-! ### The end of a sliver (R114) -/

/-- The state in which a cluster's work `w` has a core's sliver kept and its barriers have taken their arrival. -/
def sliverKept (d core n g : Nat) (w : Work) (s : State) : State :=
  stepArrive d n g (core / 32) (setWork d (core / 32) (sliverRan d core w s) s)

theorem workOf_sliverKept (d core n g : Nat) (w : Work) (s : State) :
    workOf (sliverKept d core n g w s) d (core / 32) = some (sliverRan d core w s) := by
  rw [sliverKept, workOf_stepArrive, workOf_setWork]

/-- A finished sliver of a core outside a batch is kept with what ran, its barriers take an arrival, and the core is given the next one of what
is left; while slivers of the step are outstanding that is all. -/
theorem sliverDone_hands {d : Fin 4} {core : Nat} {f : Frame} {tw : Bool} {c : Copy} {w : Work} {s : State}
    (hcore : coreActs s d core = some (f, tw, c)) (hw : workOf s d (core / 32) = some w) (houtside : (coreOf s d core).inBatch = false)
    (hrunning : c.phase = .running) (hframe : w.frame = f.id) :
    ∃ (t : Nat) (u : State),
      ∀ r, workOf (handSliver d (core / 32) (core % 32) (sliverKept d core f.id.part c.region { w with since := t } u)) d (core / 32) = some r →
        r.out ≠ 0 →
        Answers (.sliverDone d core) s
          (handSliver d (core / 32) (core % 32) (sliverKept d core f.id.part c.region { w with since := t } u)) := by
  obtain ⟨t, ht⟩ := workOf_clusterBusyCount hw
  have hcounted : workOf (coreCount d core 0x4 1 (clusterBusyCount d (core / 32) s)) d (core / 32) = some { w with since := t } :=
    (workOf_of_work (work_dieCount ..) _).trans ht
  refine ⟨t, coreCount d core 0x4 1 (clusterBusyCount d (core / 32) s), fun r hr hout => ?_⟩
  unfold sliverKept at hr ⊢
  simp only [Answers, exec, execSliverDone, hcore, hw, hcounted, Option.getD_some]
  rw [if_neg (by simp [houtside, hrunning, hframe]), hr]
  split
  case h_1 v x hv hregion =>
    obtain rfl := Option.some.inj hv
    rw [if_neg (by simp [hout])]
  case h_2 => rfl

/-- A core's number is its cluster's and its place in it. -/
theorem coreOf_clusterPlace (s : State) (d core : Nat) : coreOf s d core = coreOf s d (32 * (core / 32) + core % 32) := by
  rw [Nat.div_add_mod]

/-- Settles O51: the batch, the sliver, the DMA, the boundary and the region's end in turn. -/
theorem coresWorkThroughTheirSlivers : Obligations.CoresWorkThroughTheirSlivers := by
  intro d core s
  refine ⟨fun f tw c hcore => ⟨?batch, fun w hw hagain houtside hrunning hframe => ⟨?takes, ?idles⟩,
      fun t found hlen hunits => ⟨fun hok => ⟨?moves, ?waits⟩, ?forbidden⟩, ?noDma⟩,
    fun hbatch => ⟨?settles, ?alone⟩,
    fun id x tw c hit outs hframe hcopy hrunning hdie hdone hfit => ⟨?ends, ?pegs, ?signature⟩⟩
  case batch =>
    intro cycles work obs q t hrunning houtside hcycles hq ht
    simp only [Answers, exec, execEngineBatch, hcore, ← hq]
    rw [if_neg (by simp [hrunning, houtside, hcycles]), ← ht]
    exact ⟨fun hgood => by simp [hgood], fun hbad => by simp [hbad]⟩
  case takes =>
    intro hmore hlive
    obtain ⟨since, u, hanswers⟩ := sliverDone_hands hcore hw houtside hrunning hframe
    have hsliver : nextSliver (sliverRan d core { w with since := since } u) =
        some (w.next, { sliverRan d core { w with since := since } u with next := w.next + 1 }) := by
      simp [nextSliver, sliverRan, hagain, hmore]
    obtain ⟨hs, hfr, t, hwork⟩ := handSliver_takes (workOf_sliverKept d core f.id.part c.region _ u) hsliver hlive
    refine ⟨_, hanswers _ hwork (Nat.succ_ne_zero _), ?_, ?_, ?_⟩
    · rw [coreOf_clusterPlace, hs]
    · rw [coreOf_clusterPlace, hfr, ← hframe]
      rfl
    · rw [hwork]
      rfl
  case idles =>
    intro hall hout
    obtain ⟨since, u, hanswers⟩ := sliverDone_hands hcore hw houtside hrunning hframe
    have hnone : nextSliver (sliverRan d core { w with since := since } u) = none := by simp [nextSliver, sliverRan, hagain, hall]
    obtain ⟨hs, hfr, hwork⟩ := handSliver_idles (k := core % 32) (workOf_sliverKept d core f.id.part c.region _ u) hnone
    have hstill : w.out - 1 ≠ 0 := by omega
    refine ⟨_, hanswers _ hwork hstill, ?_, ?_, ?_⟩
    · rw [coreOf_clusterPlace, hs]
    · rw [coreOf_clusterPlace, hfr]
    · rw [hwork]
      rfl
  case moves =>
    intro houtside
    simp only [Answers, exec, execDmaTransfer, hcore, hok, houtside]
    rw [if_neg (by simp [hlen, hunits])]
    rfl
  case waits =>
    intro hinside hroom
    simp only [Answers, exec, execDmaTransfer, hcore, hok, hinside]
    rw [if_neg (by simp [hlen, hunits])]
    simp [Nat.not_le.mpr hroom]
  case forbidden =>
    intro hbad
    simp only [Answers, exec, execDmaTransfer, hcore, hbad]
    rw [if_neg (by simp [hlen, hunits])]
    rfl
  case noDma =>
    intro t found hnothing
    simp only [Answers, exec, execDmaTransfer, hcore]
    rw [if_pos hnothing]
  case settles =>
    intro f g tw tx c b u hcopy hu hafter
    simp only [Answers, exec, execBatchBoundary, hbatch, hcopy, ← hu, hafter, if_true]
  case alone =>
    intro u hu hcopy hafter
    simp only [Answers, exec, execBatchBoundary, hbatch, hcopy, ← hu, hafter, if_true]
  case ends =>
    intro hgood hpegs
    simp [Answers, exec, execRegionEnd, hframe, hcopy, hrunning, hdie, hdone, hfit, hgood, hpegs]
  case pegs =>
    intro hgood hpegs
    simp [Answers, exec, execRegionEnd, hframe, hcopy, hrunning, hdie, hdone, hfit, hgood, hpegs]
  case signature =>
    intro i hbad
    simp [Answers, exec, execRegionEnd, hframe, hcopy, hrunning, hdie, hdone, hfit, hbad]

end Sys2Proof.Machine
end

section
/-! SUPPORT. Proofs/Judgements.lean: pieces and records of a frame arrive, waits for them end, the judge judges and tests itself (R242 to R260). -/

namespace Sys2Proof.Machine

/-- Data of an ended copy is kept and may complete the frame (R242). -/
theorem resultPacket_kept {id : FrameId} {x : Frame} {tw : Bool} {c : Copy} {s : State} (o : Nat) (data : List Byte) (hframe : frameOf s id = some x)
    (hcopy : copyOf x tw = some c) (hended : c.phase = .ended) (hopen : x.phase ≠ .queued) :
    Answers (.resultPacket id tw o data) s
      (judgeReady id (takeStock id tw (modCopy id tw (fun y => { y with pieces := tblPut y.pieces o data }) s))) := by
  simp [Answers, exec, execResultPacket, hframe, hcopy, hended, hopen]

/-- A record of this attempt is kept and may complete the frame (R250). -/
theorem evidPacket_kept {id : FrameId} {x : Frame} {tw : Bool} {c : Copy} {b : List Byte} {e : EvRec} {s : State} (hframe : frameOf s id = some x)
    (hcopy : copyOf x tw = some c) (hended : c.phase = .ended) (hparse : evParse b = some e) (hattempt : e.attempt = x.attempt) (hfirst : c.ev = none) :
    Answers (.evidPacket id tw b) s (judgeReady id (takeStock id tw (modCopy id tw (fun y => { y with ev := some e }) s))) := by
  simp [Answers, exec, execEvidPacket, hframe, hcopy, hended, hparse, hattempt, hfirst]

/-- The wait for a record ends for a frame that has run, is fenced or has ended (R246, R258). -/
theorem evidenceWait_ends {id : FrameId} {x : Frame} {s : State} (hframe : frameOf s id = some x) (hdue : x.deadline + 100000 ≤ tbSafe s)
    (hphase : x.phase = .running ∨ x.phase = .fencing ∨ x.phase = .ended) (hnone : x.main.ev = none) :
    Answers (.evidenceWaitExpiry id) s (publishMissing x s) := by
  have hwaits : ¬ ((decide (tbSafe s < x.deadline + 100000) || x.phase == .queued ||
      (x.phase == .waiting && !id.tuning && inQueue x)) = true) := by
    rcases hphase with h | h | h <;> simp [h, hdue]
  simp only [Answers, exec, execEvidenceWaitExpiry, hframe, hnone]
  rw [if_neg hwaits]
  rfl

/-- The wait for the data of a frame without a partner ends at the judge (R251). -/
theorem resultWait_ends {id : FrameId} {x : Frame} {s : State} (hframe : frameOf s id = some x) (hended : x.phase = .ended)
    (hopen : earlyVerdict x = none) (halone : x.twin = none) (hstays : x.twinGone = false) (hlate : dataLate s id.part x.main = true) :
    Answers (.resultWaitExpiry id) s (toJudge x (modFrame id (fun y => { y with twinGone := false }) s)) := by
  have hkept : { x with twinGone := false } = x := by rw [← hstays]
  have hgone : (x.twinGone || !(partnerDone x false)) = false := by simp [partnerDone, halone, hstays]
  simp only [Answers, exec, execResultWaitExpiry, hframe, hlate, hgone, hkept, if_true]
  rw [if_neg (by simp [hended, hopen])]

/-- Settles O53: arrival, waits, judgement and self-test in turn. -/
theorem resultsAreJudged : Obligations.ResultsAreJudged := by
  intro id s
  refine ⟨fun x tw c hframe hcopy hended => ⟨?piece, ?record, ?badRecord⟩, ?late, ?evidence, ?data, ?judge, ?testFails, rfl⟩
  case piece =>
    intro o data hopen
    exact resultPacket_kept o data hframe hcopy hended hopen
  case record =>
    intro b e hparse hattempt hfirst
    exact evidPacket_kept hframe hcopy hended hparse hattempt hfirst
  case badRecord =>
    intro b hbad
    simp [Answers, exec, execEvidPacket, hframe, hcopy, hbad]
  case late =>
    intro hnone tw o b
    exact ⟨by simp [Answers, exec, execResultPacket, hnone], by simp [Answers, exec, execEvidPacket, hnone]⟩
  case evidence =>
    intro x hframe hdue hphase hnone
    exact evidenceWait_ends hframe hdue hphase hnone
  case data =>
    intro x hframe hended hopen halone hstays hlate
    exact resultWait_ends hframe hended hopen halone hstays hlate
  case judge =>
    intro x q differ hqueue hframe
    have hstill : frameOf { s with evd := { s.evd with queue := q } } id = some x := hframe
    simp only [Answers, exec, execJudgement, hqueue, hstill]
  case testFails =>
    intro htick hon
    simp [Answers, exec, execJudgeSelftest, htick, hon]

end Sys2Proof.Machine
end
